-- ==== Sys2Proof/Word.lean ====
section
/-! DEFINITION. The block's plain words and its sparse tables. -/
namespace Sys2Proof

/-- A byte. -/
abbrev Byte := BitVec 8

/-- A 64-byte block, queue word or crossbar beat (R40, R130). -/
abbrev Block := BitVec 512

/-- A table indexed by number, of which only the entries that differ from the reset entry are listed, in strictly
rising order of their index. -/
abbrev Sparse (α : Type) := List (Nat × α)

end Sys2Proof
end

