-- ==== Sys2Proof/Syntax.lean ====
section
/-! DEFINITION. The commands the hub takes, one constructor per row of spec/opcode_table.json, with the operands each
carries from outside. -/
namespace Sys2Proof

/-- An MCTP packet as the I3C target receives it (R451, R452): the transport header's fields and whether its packet
error code is good. -/
structure MctpPacket where
  som : Bool
  eom : Bool
  seq : Nat
  tagOwner : Bool
  tag : Nat
  src : Nat
  dst : Nat
  pecOk : Bool
  payload : List Byte
  deriving DecidableEq, Repr

/-- Where a SIGNAL or ARRIVE command comes from (R164); the graph task is the row SIG_POST. -/
inductive SignalSource where
  | engine (port : Nat)
  | hostDma
  | queue (queue : Nat)
  | link (port : Nat)
  deriving DecidableEq, Repr

/-- A beat on an engine port's write channel (R501). -/
structure WriteBeat where
  addr : BitVec 37
  data : Block
  hint : BitVec 2
  signal : Bool
  remote : Bool
  chip : Nat
  last : Bool
  deriving DecidableEq, Repr


/-- The structure that holds an uncorrectable SRAM word (R416). -/
inductive SramWord where
  | slot (n : Nat)
  | spillRecord (n : Nat)
  | flow (n : Nat)
  | object (n : Nat)
  | barrier (n : Nat)
  | queue (n : Nat)
  | shared
  | overlayCache
  | hotRow (offset : Nat)
  | replayBuffer (port vc place : Nat)
  | controller
  deriving DecidableEq, Repr

/-- The commands, in the order of the table. -/
inductive Instr where
  /-- DICT_WRITE (R28) -/
  | dictWrite (mctp : Bool) (index : Nat) (sub : Nat) (first : Nat) (count : Nat) (value : List (BitVec 8))
  /-- MCTP_MESSAGE (R452) -/
  | mctpMessage (packets : List MctpPacket)
  /-- MCTP_ASSEMBLY_TIMEOUT (R452) -/
  | mctpAssemblyTimeout
  /-- SET_ENDPOINT_ID (R452) -/
  | setEndpointId (eid : Nat)
  /-- GET_ENDPOINT_ID (R452) -/
  | getEndpointId
  /-- GET_MCTP_VERSION_SUPPORT (R452) -/
  | getMctpVersionSupport
  /-- GET_MESSAGE_TYPE_SUPPORT (R452) -/
  | getMessageTypeSupport
  /-- GET_VENDOR_DEFINED_MESSAGE_SUPPORT (R452) -/
  | getVendorDefinedMessageSupport
  /-- ENTDAA (R451) -/
  | entdaa (addr : Nat)
  /-- SETDASA (R451) -/
  | setdasa (staticAddr : Nat) (addr : Nat)
  /-- RSTDAA (R451) -/
  | rstdaa
  /-- GETPID (R451) -/
  | getpid
  /-- GETBCR (R451) -/
  | getbcr
  /-- GETDCR (R451) -/
  | getdcr
  /-- GETSTATUS (R451) -/
  | getstatus
  /-- GETMWL (R451) -/
  | getmwl
  /-- GETMRL (R451) -/
  | getmrl
  /-- SETMWL (R451) -/
  | setmwl (length : BitVec 16)
  /-- SETMRL (R451) -/
  | setmrl (length : BitVec 16)
  /-- ENEC (R451) -/
  | enec (events : BitVec 8)
  /-- DISEC (R451) -/
  | disec (events : BitVec 8)
  /-- I3C_PRIVATE_READ (R451) -/
  | i3cPrivateRead
  /-- WINDOW_GO (R455) -/
  | windowGo
  /-- DICT_REQUEST_COMPLETE (R455) -/
  | dictRequestComplete
  /-- UNIT_STOP (R30) -/
  | unitStop (code : Nat)
  /-- UNIT_START (R30) -/
  | unitStart (code : Nat)
  /-- UNIT_STOP_EFFECT (R30) -/
  | unitStopEffect (code : Nat)
  /-- TICK_BOUNDARY (R106) -/
  | tickBoundary
  /-- TICK_IN_EDGE (R102) -/
  | tickInEdge (since : Nat)
  /-- TICK_IN_HOLDOVER (R102) -/
  | tickInHoldover
  /-- TICK_MARK (R127) -/
  | tickMark (port : Nat) (record : BitVec 128)
  /-- TICK_MARKS_MISSING (R127) -/
  | tickMarksMissing
  /-- DEADLINE_EXPIRY (R123) -/
  | deadlineExpiry
  /-- DELAYED_RELEASE_EXPIRY (R123) -/
  | delayedReleaseExpiry
  /-- IMAGE_LOAD (R60) -/
  | imageLoad
  /-- IMAGE_UNLOAD (R60) -/
  | imageUnload
  /-- IMAGE_LOAD_COMPLETE (R60) -/
  | imageLoadComplete
  /-- STEP (R63) -/
  | step (aperture : Nat) (record : BitVec 512)
  /-- JOB_OPEN (R152) -/
  | jobOpen (aperture : Nat) (record : BitVec 512)
  /-- JOB_CLOSE (R63) -/
  | jobClose (aperture : Nat) (record : BitVec 512)
  /-- JOB_CLOSE_EFFECT (R63) -/
  | jobCloseEffect (ctx : Nat)
  /-- JOIN (R150) -/
  | join (aperture : Nat) (record : BitVec 512)
  /-- LEAVE (R150) -/
  | leave (aperture : Nat) (record : BitVec 512)
  /-- DOORBELL_DATA_WORD (R141) -/
  | doorbellDataWord (aperture : Nat) (word : BitVec 512)
  /-- WINDOW_RESERVE (R64) -/
  | windowReserve
  /-- TEMPLATE_INSTANTIATE (R65) -/
  | templateInstantiate (inst : Nat)
  /-- TOKEN_MATCH (R73) -/
  | tokenMatch (bank : Nat)
  /-- HOLD_LIFT (R70) -/
  | holdLift (slot : Nat)
  /-- NULL_TASK_RESOLVE (R52) -/
  | nullTaskResolve (slot : Nat)
  /-- TASK_SKIP (R75) -/
  | taskSkip (slot : Nat)
  /-- DISPATCH (R83) -/
  | dispatch (dispatcher : Nat)
  /-- TOKEN_FORM (R76) -/
  | tokenForm
  /-- COMPLETION_RECORD (R88) -/
  | completionRecord (port : Nat) (record : BitVec 320)
  /-- WRITE_FENCE_CLEAR (R78) -/
  | writeFenceClear (port : Nat)
  /-- YIELD_RECORD (R207) -/
  | yieldRecord (port : Nat) (record : BitVec 64)
  /-- YIELD_BOUND_EXPIRY (R92) -/
  | yieldBoundExpiry (port : Nat)
  /-- ENGINE_PORT_RESTORE (R98) -/
  | enginePortRestore (port : Nat)
  /-- ENGINE_PORT_CONFIG_WRITE (R99) -/
  | enginePortConfigWrite (port : Nat) (value : BitVec 16)
  /-- EP_READY_RISE (R396) -/
  | epReadyRise (port : Nat)
  /-- EP_READY_FALL (R502) -/
  | epReadyFall (port : Nat)
  /-- READ_APERTURE_READ (R135) -/
  | readApertureRead (aperture : Nat)
  /-- APERTURE_BIND (R132) -/
  | apertureBind (read : Bool) (aperture : Nat) (value : BitVec 16)
  /-- QUEUE_ENABLE (R159) -/
  | queueEnable (queue : Nat)
  /-- QUEUE_DISABLE (R159) -/
  | queueDisable (queue : Nat)
  /-- QUEUE_FLUSH (R143) -/
  | queueFlush (queue : Nat)
  /-- QUEUE_FLUSH_EFFECT (R143) -/
  | queueFlushEffect (queue : Nat)
  /-- QUEUE_CONFIG_WRITE (R159) -/
  | queueConfigWrite (queue : Nat) (value : BitVec 128)
  /-- Q_ENQUEUE (R145) -/
  | qEnqueue (slot : Nat)
  /-- Q_DEQUEUE (R145) -/
  | qDequeue (slot : Nat)
  /-- QUEUE_PRODUCER_RESUME (R514) -/
  | queueProducerResume (queue : Nat)
  /-- RESULT_RELEASE (R155) -/
  | resultRelease (flow : Nat)
  /-- SIGNAL (R169) -/
  | signal (src : SignalSource) (cmd : BitVec 64)
  /-- ARRIVE (R178) -/
  | arrive (src : SignalSource) (cmd : BitVec 64)
  /-- HELD_SIGNAL_APPLY (R181) -/
  | heldSignalApply
  /-- SIGNAL_OPEN (R162) -/
  | signalOpen (value : BitVec 128)
  /-- SIGNAL_CLOSE (R162) -/
  | signalClose
  /-- SIG_WAIT (R172) -/
  | sigWait (slot : Nat)
  /-- BARRIER_ARRIVE (R172) -/
  | barrierArrive (slot : Nat)
  /-- SIG_POST (R176) -/
  | sigPost (slot : Nat)
  /-- WAIT_RESOLVE (R173) -/
  | waitResolve (slot : Nat)
  /-- PREEMPT_REQUEST (R202) -/
  | preemptRequest (port : Nat)
  /-- SPILL_END (R211) -/
  | spillEnd (port : Nat)
  /-- RESTORE_ISSUE (R214) -/
  | restoreIssue (port : Nat)
  /-- SWITCH_INCOMING_ISSUE (R214) -/
  | switchIncomingIssue (port : Nat)
  /-- DMA_COPY (R217) -/
  | dmaCopy (slot : Nat)
  /-- DMA_FILL (R217) -/
  | dmaFill (slot : Nat)
  /-- TABLE_OPEN (R224) -/
  | tableOpen
  /-- TABLE_CLOSE (R224) -/
  | tableClose
  /-- EMB_GATHER (R226) -/
  | embGather (slot : Nat)
  /-- EMB_POOL (R230) -/
  | embPool (slot : Nat)
  /-- EMB_SCORE (R233) -/
  | embScore (slot : Nat)
  /-- EXCHANGE_POINT (R237) -/
  | exchangePoint
  /-- POOL_REQ (R239) -/
  | poolReq (src : Nat) (header : BitVec 128) (payload : List (BitVec 128))
  /-- SCORE_REQ (R239) -/
  | scoreReq (src : Nat) (header : BitVec 128) (payload : List (BitVec 128))
  /-- POOL_REPLY (R240) -/
  | poolReply (src : Nat) (header : BitVec 128) (payload : List (BitVec 128))
  /-- SCORE_REPLY (R240) -/
  | scoreReply (src : Nat) (header : BitVec 128) (payload : List (BitVec 128))
  /-- REMOTE_TIMEOUT (R241) -/
  | remoteTimeout (tag : Nat)
  /-- EMB_UPDATE (R252) -/
  | embUpdate (slot : Nat)
  /-- UPDATE_PUBLISH (R253) -/
  | updatePublish (slot : Nat)
  /-- FOLD_START (R258) -/
  | foldStart (entry : Nat)
  /-- FOLD_COPY_COMPLETE (R258) -/
  | foldCopyComplete (entry : Nat)
  /-- MIGRATION_COPY_COMPLETE (R261) -/
  | migrationCopyComplete (table : Nat) (row : Nat)
  /-- HOT_ROW_DEMOTION (R263) -/
  | hotRowDemotion (entry : Nat)
  /-- REPLICA (R265) -/
  | replica (src : Nat) (header : BitVec 128) (payload : List (BitVec 128))
  /-- LEASE (R265) -/
  | lease (src : Nat) (header : BitVec 128)
  /-- DROP (R267) -/
  | drop (src : Nat) (header : BitVec 128)
  /-- VOXPOR_SWAP (R268) -/
  | voxporSwap (table : Nat)
  /-- VOXPOR_SCAN_COMPLETE (R268) -/
  | voxporScanComplete (table : Nat)
  /-- TABLE_DIGEST_SCAN_COMPLETE (R272) -/
  | tableDigestScanComplete (table : Nat)
  /-- EXP_SELECT (R280) -/
  | expSelect (slot : Nat)
  /-- EXP_SEND (R288) -/
  | expSend (slot : Nat)
  /-- EXCHANGE_OPEN (R284) -/
  | exchangeOpen (slot : Nat)
  /-- EXP_RETURN (R293) -/
  | expReturn (slot : Nat)
  /-- EXP_RECV (R291) -/
  | expRecv (slot : Nat)
  /-- EXP_COLLECT (R294) -/
  | expCollect (slot : Nat)
  /-- SEND_COUNT (R290) -/
  | sendCount (src : Nat) (header : BitVec 128) (payload : List (BitVec 128))
  /-- SEND_ROW (R290) -/
  | sendRow (src : Nat) (header : BitVec 128) (payload : List (BitVec 128))
  /-- RETURN_COUNT (R294) -/
  | returnCount (src : Nat) (header : BitVec 128) (payload : List (BitVec 128))
  /-- RETURN_ROW (R294) -/
  | returnRow (src : Nat) (header : BitVec 128) (payload : List (BitVec 128))
  /-- EXCHANGE_TIMEOUT (R291) -/
  | exchangeTimeout (tag : BitVec 32)
  /-- ENGINE_READ_REQUEST (R501) -/
  | engineReadRequest (port : Nat) (addr : BitVec 37) (tag : Nat) (hint : BitVec 2)
  /-- ENGINE_WRITE_BEAT (R501) -/
  | engineWriteBeat (port : Nat) (beat : WriteBeat)
  /-- HOST_DMA_READ (R505) -/
  | hostDmaRead (addr : BitVec 37) (tag : Nat) (part : Nat)
  /-- HOST_DMA_WRITE (R505) -/
  | hostDmaWrite (addr : BitVec 37) (part : Nat) (signal : Bool) (data : BitVec 512)
  /-- CONTROL_REQUEST (R504) -/
  | controlRequest (write : Bool) (addr : Nat) (size : Nat) (data : BitVec 512)
  /-- MEM_READ_RESPONSE (R312): the fields of the response and its beat (R301) -/
  | memReadResponse (port : Nat) (tag : BitVec 10) (status : BitVec 3) (data : BitVec 512)
  /-- MEM_WRITE_RESPONSE (R302) -/
  | memWriteResponse (port : Nat) (rsp : BitVec 16)
  /-- REPAIR_RESPONSE (R324) -/
  | repairResponse (port : Nat) (rsp : BitVec 16)
  /-- MEM_TIMEOUT (R304) -/
  | memTimeout (port : Nat) (tag : Nat)
  /-- RECONSTRUCT_TIMEOUT (R315) -/
  | reconstructTimeout (held : Nat)
  /-- PORT_OFFLINE_RISE (R318) -/
  | portOfflineRise (port : Nat)
  /-- PORT_OFFLINE_GRANT (R318) -/
  | portOfflineGrant (port : Nat)
  /-- DRAIN_COMPLETE (R318) -/
  | drainComplete (port : Nat)
  /-- PORT_OFFLINE_FALL (R318) -/
  | portOfflineFall (port : Nat) (contentLost : Bool)
  /-- OFFLINE_RETRAIN (R319) -/
  | offlineRetrain (port : Nat)
  /-- OFFLINE_REPLACE (R319) -/
  | offlineReplace (port : Nat)
  /-- RESTORE (R323) -/
  | restore (port : Nat) (answered : Bool)
  /-- REBUILD_CHUNK_COMPLETE (R321) -/
  | rebuildChunkComplete (port : Nat)
  /-- PAGE_RESTORE_COMPLETE (R325) -/
  | pageRestoreComplete (port : Nat) (page : Nat)
  /-- SCRUB_ROW (R328): the row that the scrubber has reached in the group -/
  | scrubRow (group : Nat) (row : Nat)
  /-- MEM_WIPE_CHUNK (R428) -/
  | memWipeChunk (port : Nat) (chunk : Nat)
  /-- LANE_SIGNAL_LOSS (R335): the level of the port's LANE_SIGNAL_OK pins from now on -/
  | laneSignalLoss (port : Nat) (level : BitVec 16)
  /-- LANE_CHANGE_SWITCH (R335) -/
  | laneChangeSwitch (port : Nat)
  /-- CONTROL_FLIT (R341): the lane words received since the flit before it, each with its lane (R332) -/
  | controlFlit (port : Nat) (words : List (BitVec 4 × BitVec 256))
  /-- DATA_FLIT (R342): the lanes and the words received since the flit before it, lane by word (R332) -/
  | dataFlit (port : Nat) (lanes : List (BitVec 4)) (words : List (BitVec 256))
  /-- FLIT_TRANSMIT (R343) -/
  | flitTransmit (port : Nat)
  /-- CONTROL_FLIT_PERIOD (R341) -/
  | controlFlitPeriod (port : Nat)
  /-- LINK_REPLAY_TIMEOUT (R343) -/
  | linkReplayTimeout (port : Nat) (vc : Nat)
  /-- LINK_DEAD_TIMEOUT (R352) -/
  | linkDeadTimeout (port : Nat)
  /-- TRAINING_LOCK (R350) -/
  | trainingLock (port : Nat)
  /-- TRAINING_TIMEOUT (R350) -/
  | trainingTimeout (port : Nat)
  /-- IDENTITY_BLOCK (R351), with the delay echoes of R353: round trip and partner's turnaround, in 1/16 hc -/
  | identityBlock (port : Nat) (block : BitVec 512) (echoes : List (Nat × Nat))
  /-- DOWN_RETRAIN (R350) -/
  | downRetrain (port : Nat)
  /-- REFUSED_RETRY (R350) -/
  | refusedRetry (port : Nat)
  /-- LINK_ENABLE_WRITE (R352) -/
  | linkEnableWrite (value : BitVec 16)
  /-- WRITE (R338) -/
  | write (src : Nat) (header : BitVec 128) (beats : List (BitVec 512))
  /-- QUEUE (R338) -/
  | queue (src : Nat) (header : BitVec 128) (words : List (BitVec 512))
  /-- START (R356) -/
  | start (port : Nat) (record : BitVec 128)
  /-- START_BARRIER_GO (R356) -/
  | startBarrierGo (value : BitVec 128)
  /-- START_TIME_ELAPSED (R356) -/
  | startTimeElapsed
  /-- SOLDER_ARM (R360) -/
  | solderArm (value : Nat)
  /-- RNG_PROBE_IN (R372) -/
  | rngProbeIn (value : BitVec 256)
  /-- DIGEST (R378) -/
  | digest (slot : Nat)
  /-- REPLAY_CONTROL_WRITE (R379) -/
  | replayControlWrite (value : Nat)
  /-- LOG_CONSUMED_WRITE (R379) -/
  | logConsumedWrite (value : BitVec 32)
  /-- TASK_WATCHDOG_EXPIRY (R391) -/
  | taskWatchdogExpiry (port : Nat)
  /-- DATA_TASK_WATCHDOG_EXPIRY (R393) -/
  | dataTaskWatchdogExpiry (slot : Nat)
  /-- DATA_UNIT_STALL (R393) -/
  | dataUnitStall (slot : Nat)
  /-- DISPATCH_STALL (R392) -/
  | dispatchStall (dispatcher : Nat)
  /-- NO_ENGINE (R392) -/
  | noEngine (slot : Nat)
  /-- MC_WATCHDOG_EXPIRY (R394) -/
  | mcWatchdogExpiry
  /-- MC_RESTART_COMPLETE (R394) -/
  | mcRestartComplete
  /-- MC_HEARTBEAT (R394) -/
  | mcHeartbeat (value : BitVec 8)
  /-- RESET_REQUEST_L0 (R402) -/
  | resetRequestL0 (ctx : Nat)
  /-- RESET_REQUEST_L1 (R396) -/
  | resetRequestL1 (port : Nat)
  /-- RESET_REQUEST_L2 (R397) -/
  | resetRequestL2 (part : Nat)
  /-- RESET_REQUEST_L3 (R397) -/
  | resetRequestL3
  /-- RESET_REQUEST_L4 (R397) -/
  | resetRequestL4
  /-- RESET_REQUEST_L5 (R397) -/
  | resetRequestL5
  /-- L0_DRAIN_END (R402) -/
  | l0DrainEnd (ctx : Nat)
  /-- CLEANUP_WALKS_COMPLETE (R402) -/
  | cleanupWalksComplete (ctx : Nat)
  /-- CLEANUP_OVERRUN (R399) -/
  | cleanupOverrun (ctx : Nat)
  /-- ENGINE_RESET_TIMEOUT (R396) -/
  | engineResetTimeout (port : Nat)
  /-- LEVEL_TIMEOUT (R395) -/
  | levelTimeout
  /-- RESET_LEVEL_COMPLETE (R397) -/
  | resetLevelComplete
  /-- NIGHT_RELEASE (R412) -/
  | nightRelease
  /-- DUMP_REQUEST (R417) -/
  | dumpRequest
  /-- DUMP_COMPLETE (R418) -/
  | dumpComplete (unreachable : List Nat)
  /-- DUMP_ACK (R420) -/
  | dumpAck
  /-- MEM_ZERO_FILL (R405) -/
  | memZeroFill (value : BitVec 128)
  /-- MEM_ZERO_FILL_COMPLETE (R405) -/
  | memZeroFillComplete
  /-- SRAM_BANK_ROTATION (R415) -/
  | sramBankRotation (array : Nat) (bank : Nat)
  /-- SRAM_UNCORRECTABLE (R416) -/
  | sramUncorrectable (word : SramWord)
  /-- RESET_N_ASSERT (R508) -/
  | resetNAssert
  /-- RESET_N_RELEASE (R423) -/
  | resetNRelease
  /-- CORE_PWR_GOOD_FALL (R510) -/
  | corePwrGoodFall
  /-- CORE_PWR_GOOD_RISE (R439) -/
  | corePwrGoodRise
  /-- START_GO (R424) -/
  | startGo
  /-- MORNING_BEGIN (R425) -/
  | morningBegin
  /-- NOON_LIMIT (R426) -/
  | noonLimit
  /-- THERMAL_SAMPLE (R433) -/
  | thermalSample (readings : List Int)
  /-- THROTTLE_STEP (R433) -/
  | throttleStep (fall : Bool)
  /-- CLOCK_RANGE (R38) -/
  | clockRange (clock : Nat) (khz : Nat)
  /-- VOLTAGE_RANGE (R435) -/
  | voltageRange (region : Nat) (mv : Int)
  /-- POWER_REQUEST_P0 (R437) -/
  | powerRequestP0
  /-- POWER_REQUEST_P1 (R437) -/
  | powerRequestP1
  /-- POWER_REQUEST_P2 (R438) -/
  | powerRequestP2
  /-- POWER_REQUEST_P3 (R439) -/
  | powerRequestP3
  /-- POWER_DRAIN_COMPLETE (R438) -/
  | powerDrainComplete
  /-- P2_DRAIN_TIMEOUT (R438) -/
  | p2DrainTimeout
  /-- SELF_REFRESH_ACK (R503) -/
  | selfRefreshAck (port : Nat) (level : Bool)
  /-- SRAM_BIST (R441) -/
  | sramBist (target : BitVec 16)
  /-- LANE_CAL (R442) -/
  | laneCal (target : BitVec 16)
  /-- MEM_RETRAIN (R440) -/
  | memRetrain (target : BitVec 16)
  /-- MEM_MARCH (R443) -/
  | memMarch (target : BitVec 16) (force : Bool)
  /-- LINK_LOOPBACK (R440) -/
  | linkLoopback (target : BitVec 16) (force : Bool)
  /-- LOGIC_BIST (R443) -/
  | logicBist (target : BitVec 16) (force : Bool)
  /-- SELFTEST_COMPLETE (R440) -/
  | selftestComplete (pass : Bool)
  /-- DEBUG_LEVEL_WRITE (R459) -/
  | debugLevelWrite (value : Nat)
  /-- AUTH_CHALLENGE (R462) -/
  | authChallenge
  /-- GRANT_OBSERVE (R464) -/
  | grantObserve (sigR : BitVec 384) (sigS : BitVec 384)
  /-- GRANT_OPEN (R464) -/
  | grantOpen (sigR : BitVec 384) (sigS : BitVec 384)
  /-- GRANT_SOLDER (R464) -/
  | grantSolder (sigR : BitVec 384) (sigS : BitVec 384) (ports : BitVec 16)
  /-- GRANT_DEPLOY (R458) -/
  | grantDeploy (sigR : BitVec 384) (sigS : BitVec 384)
  /-- GRANT_RETURN (R458) -/
  | grantReturn (sigR : BitVec 384) (sigS : BitVec 384)
  /-- LIFECYCLE_PROVISION (R457) -/
  | lifecycleProvision (key : BitVec 768)
  /-- FW_LOAD_DATA (R466) -/
  | fwLoadData (value : List (BitVec 8))
  /-- FW_LOAD_GO (R466) -/
  | fwLoadGo
  /-- FW_VERIFY_COMPLETE (R466) -/
  | fwVerifyComplete
  /-- DEBUG_MEM_READ (R461) -/
  | debugMemRead
  /-- DEBUG_MEM_WRITE (R461) -/
  | debugMemWrite (data : BitVec 512)
  /-- COUNTER_CLEAR (R475) -/
  | counterClear (value : BitVec 32)
  /-- COUNTER_SUM_FORWARD (R474) -/
  | counterSumForward (obj : Nat) (elem : Nat)
  /-- ALARM_ACK (R483) -/
  | alarmAck (code : Nat)
  /-- ALARM_MASK_WRITE (R483) -/
  | alarmMaskWrite (value : BitVec 128)
  /-- MEM_TRAINING_COMPLETE (R425) -/
  | memTrainingComplete (port : Nat)
  /-- LANE_CHANGE_ACK_TIMEOUT (R335) -/
  | laneChangeAckTimeout (port : Nat)
  /-- EP_RESET_RELEASE (R396) -/
  | epResetRelease (port : Nat)
  /-- TICK_OUT_PULSE_END (R103) -/
  | tickOutPulseEnd
  /-- CLOCK_LOWER_SETTLE (R431) -/
  | clockLowerSettle
  /-- SELFTEST_DRAIN_TIMEOUT (R443) -/
  | selftestDrainTimeout
  /-- AUTH_NONCE_EXPIRY (R462) -/
  | authNonceExpiry
  deriving DecidableEq, Repr

end Sys2Proof
end

