-- ==== Sys2Proof/WellFormed.lean ====
section
/-! DEFINITION. Which commands are well formed: every number lies in the range that the field, the port count or the array
that carries it in the spec can name. The meanings are total and need none of this; the checks say which commands an
outside agent can send. -/
namespace Sys2Proof

/-- An engine port number, 0 to 63 (R6, R99). -/
def enginePortOk (p : Nat) : Bool := decide (p < 64)
/-- A memory port number, 0 to 23 (R300). -/
def memoryPortOk (p : Nat) : Bool := decide (p < 24)
/-- A link port number, 0 to 15 (R332). -/
def linkPortOk (p : Nat) : Bool := decide (p < 16)
/-- A context, 12 bits (R62). -/
def contextOk (c : Nat) : Bool := decide (c < 4096)
/-- A partition, 4 bits (R198). -/
def partitionOk (p : Nat) : Bool := decide (p < 16)
/-- A Matching Store slot, 19 bits (R68). -/
def slotOk (n : Nat) : Bool := decide (n < 524288)
/-- A queue, 14 bits (R129). -/
def queueOk (n : Nat) : Bool := decide (n < 16384)
/-- A read aperture (R132). -/
def readApertureOk (a : Nat) : Bool := decide (a < 4096)
/-- A doorbell aperture (R132). -/
def apertureOk (a : Nat) : Bool := decide (a < 2048)
/-- A chip ID, 12 bits (R165). -/
def chipOk (c : Nat) : Bool := decide (c < 4096)
/-- A table number, 12 bits (R219). -/
def tableOk (t : Nat) : Bool := decide (t < 4096)
/-- A byte. -/
def byteOk (v : Nat) : Bool := decide (v < 256)
/-- A 16-bit number. -/
def wordOk (v : Nat) : Bool := decide (v < 65536)

/-- An MCTP packet's fields (R452). -/
def MctpPacket.wf (p : MctpPacket) : Bool :=
  decide (p.seq < 4) && decide (p.tag < 8) && byteOk p.src && byteOk p.dst

/-- The source of a command (R164). -/
def SignalSource.wf : SignalSource → Bool
  | .engine p => enginePortOk p
  | .hostDma => true
  | .queue q => queueOk q
  | .link p => linkPortOk p

/-- The place of an SRAM word (R416). -/
def SramWord.wf : SramWord → Bool
  | .slot n => slotOk n
  | .spillRecord n => slotOk n
  | .flow n => decide (n < 1048576)
  | .object n => decide (n < 262144)
  | .barrier n => decide (n < 4096)
  | .queue n => queueOk n
  | .shared => true
  | .overlayCache => true
  | .hotRow off => decide (off < 25165824)
  | .replayBuffer p vc _ => linkPortOk p && decide (vc < 4)
  | .controller => true

/-- The well-formed commands. -/
def Instr.wf : Instr → Bool
  | .dictWrite _ index sub first count value => wordOk index && byteOk sub && wordOk first && wordOk count && decide (value.length ≤ 4096)
  | .mctpMessage packets => packets.all MctpPacket.wf
  | .mctpAssemblyTimeout => true
  | .setEndpointId eid => byteOk eid
  | .getEndpointId => true
  | .getMctpVersionSupport => true
  | .getMessageTypeSupport => true
  | .getVendorDefinedMessageSupport => true
  | .entdaa addr => decide (addr < 128)
  | .setdasa staticAddr addr => decide (staticAddr < 128) && decide (addr < 128)
  | .rstdaa => true
  | .getpid => true
  | .getbcr => true
  | .getdcr => true
  | .getstatus => true
  | .getmwl => true
  | .getmrl => true
  | .setmwl _ => true
  | .setmrl _ => true
  | .enec _ => true
  | .disec _ => true
  | .i3cPrivateRead => true
  | .windowGo => true
  | .dictRequestComplete => true
  | .unitStop code => byteOk code
  | .unitStart code => byteOk code
  | .unitStopEffect code => byteOk code
  | .tickBoundary => true
  | .tickInEdge _ => true
  | .tickInHoldover => true
  | .tickMark port _ => linkPortOk port
  | .tickMarksMissing => true
  | .deadlineExpiry => true
  | .delayedReleaseExpiry => true
  | .imageLoad => true
  | .imageUnload => true
  | .imageLoadComplete => true
  | .step aperture _ => apertureOk aperture
  | .jobOpen aperture _ => apertureOk aperture
  | .jobClose aperture _ => apertureOk aperture
  | .jobCloseEffect ctx => contextOk ctx
  | .join aperture _ => apertureOk aperture
  | .leave aperture _ => apertureOk aperture
  | .doorbellDataWord aperture _ => apertureOk aperture
  | .windowReserve => true
  | .templateInstantiate inst => decide (inst < 8192)
  | .tokenMatch bank => decide (bank < 16)
  | .holdLift slot => slotOk slot
  | .nullTaskResolve slot => slotOk slot
  | .taskSkip slot => slotOk slot
  | .dispatch dispatcher => decide (dispatcher < 4)
  | .tokenForm => true
  | .completionRecord port _ => enginePortOk port
  | .writeFenceClear port => enginePortOk port
  | .yieldRecord port _ => enginePortOk port
  | .yieldBoundExpiry port => enginePortOk port
  | .enginePortRestore port => enginePortOk port
  | .enginePortConfigWrite port _ => enginePortOk port
  | .epReadyRise port => enginePortOk port
  | .epReadyFall port => enginePortOk port
  | .readApertureRead aperture => readApertureOk aperture
  | .apertureBind read aperture _ => if read then readApertureOk aperture else apertureOk aperture
  | .queueEnable q => queueOk q
  | .queueDisable q => queueOk q
  | .queueFlush q => queueOk q
  | .queueFlushEffect q => queueOk q
  | .queueConfigWrite q _ => queueOk q
  | .qEnqueue slot => slotOk slot
  | .qDequeue slot => slotOk slot
  | .queueProducerResume q => queueOk q
  | .resultRelease flow => decide (flow < 1048576)
  | .signal src _ => src.wf
  | .arrive src _ => src.wf
  | .heldSignalApply => true
  | .signalOpen _ => true
  | .signalClose => true
  | .sigWait slot => slotOk slot
  | .barrierArrive slot => slotOk slot
  | .sigPost slot => slotOk slot
  | .waitResolve slot => slotOk slot
  | .preemptRequest port => enginePortOk port
  | .spillEnd port => enginePortOk port
  | .restoreIssue port => enginePortOk port
  | .switchIncomingIssue port => enginePortOk port
  | .dmaCopy slot => slotOk slot
  | .dmaFill slot => slotOk slot
  | .tableOpen => true
  | .tableClose => true
  | .embGather slot => slotOk slot
  | .embPool slot => slotOk slot
  | .embScore slot => slotOk slot
  | .exchangePoint => true
  | .poolReq src _ _ => chipOk src
  | .scoreReq src _ _ => chipOk src
  | .poolReply src _ _ => chipOk src
  | .scoreReply src _ _ => chipOk src
  | .remoteTimeout tag => decide (tag < 16777216)
  | .embUpdate slot => slotOk slot
  | .updatePublish slot => slotOk slot
  | .foldStart entry => decide (entry < 268435456)
  | .foldCopyComplete entry => decide (entry < 268435456)
  | .migrationCopyComplete table _ => tableOk table
  | .hotRowDemotion entry => decide (entry < 268435456)
  | .replica src _ _ => chipOk src
  | .lease src _ => chipOk src
  | .drop src _ => chipOk src
  | .voxporSwap table => tableOk table
  | .voxporScanComplete table => tableOk table
  | .tableDigestScanComplete table => tableOk table
  | .expSelect slot => slotOk slot
  | .expSend slot => slotOk slot
  | .exchangeOpen slot => slotOk slot
  | .expReturn slot => slotOk slot
  | .expRecv slot => slotOk slot
  | .expCollect slot => slotOk slot
  | .sendCount src _ _ => chipOk src
  | .sendRow src _ _ => chipOk src
  | .returnCount src _ _ => chipOk src
  | .returnRow src _ _ => chipOk src
  | .exchangeTimeout _ => true
  | .engineReadRequest port _ tag _ => enginePortOk port && byteOk tag
  | .engineWriteBeat port beat => enginePortOk port && chipOk beat.chip
  | .hostDmaRead _ tag part => byteOk tag && partitionOk part
  | .hostDmaWrite _ part _ _ => partitionOk part
  | .controlRequest _ addr size _ => decide (addr < 1048576) && decide (size ≤ 6)
  | .memReadResponse port _ _ _ => memoryPortOk port
  | .memWriteResponse port _ => memoryPortOk port
  | .repairResponse port _ => memoryPortOk port
  | .memTimeout port tag => memoryPortOk port && decide (tag < 1024)
  | .reconstructTimeout _ => true
  | .portOfflineRise port => memoryPortOk port
  | .portOfflineGrant port => memoryPortOk port
  | .drainComplete port => memoryPortOk port
  | .portOfflineFall port _ => memoryPortOk port
  | .offlineRetrain port => memoryPortOk port
  | .offlineReplace port => memoryPortOk port
  | .restore port _ => memoryPortOk port
  | .rebuildChunkComplete port => memoryPortOk port
  | .pageRestoreComplete port _ => memoryPortOk port
  | .scrubRow group _ => decide (group < 4)
  | .memWipeChunk port _ => memoryPortOk port
  | .laneSignalLoss port _ => linkPortOk port
  | .laneChangeSwitch port => linkPortOk port
  | .controlFlit port _ => linkPortOk port
  | .dataFlit port lanes words => linkPortOk port && lanes.length == words.length
  | .flitTransmit port => linkPortOk port
  | .controlFlitPeriod port => linkPortOk port
  | .linkReplayTimeout port vc => linkPortOk port && decide (vc < 4)
  | .linkDeadTimeout port => linkPortOk port
  | .trainingLock port => linkPortOk port
  | .trainingTimeout port => linkPortOk port
  | .identityBlock port _ echoes => linkPortOk port && echoes.length == 16
    && echoes.all fun e => decide (e.1 < 4294967296) && decide (e.2 ≤ e.1)
  | .downRetrain port => linkPortOk port
  | .refusedRetry port => linkPortOk port
  | .linkEnableWrite _ => true
  | .write src _ _ => chipOk src
  | .queue src _ _ => chipOk src
  | .start port _ => linkPortOk port
  | .startBarrierGo _ => true
  | .startTimeElapsed => true
  | .solderArm value => byteOk value
  | .rngProbeIn _ => true
  | .digest slot => slotOk slot
  | .replayControlWrite value => byteOk value
  | .logConsumedWrite _ => true
  | .taskWatchdogExpiry port => enginePortOk port
  | .dataTaskWatchdogExpiry slot => slotOk slot
  | .dataUnitStall slot => slotOk slot
  | .dispatchStall dispatcher => decide (dispatcher < 4)
  | .noEngine slot => slotOk slot
  | .mcWatchdogExpiry => true
  | .mcRestartComplete => true
  | .mcHeartbeat _ => true
  | .resetRequestL0 ctx => contextOk ctx
  | .resetRequestL1 port => enginePortOk port
  | .resetRequestL2 part => partitionOk part
  | .resetRequestL3 => true
  | .resetRequestL4 => true
  | .resetRequestL5 => true
  | .l0DrainEnd ctx => contextOk ctx
  | .cleanupWalksComplete ctx => contextOk ctx
  | .cleanupOverrun ctx => contextOk ctx
  | .engineResetTimeout port => enginePortOk port
  | .levelTimeout => true
  | .resetLevelComplete => true
  | .nightRelease => true
  | .dumpRequest => true
  | .dumpComplete unreachable => unreachable.all byteOk
  | .dumpAck => true
  | .memZeroFill _ => true
  | .memZeroFillComplete => true
  | .sramBankRotation _ _ => true
  | .sramUncorrectable word => word.wf
  | .resetNAssert => true
  | .resetNRelease => true
  | .corePwrGoodFall => true
  | .corePwrGoodRise => true
  | .startGo => true
  | .morningBegin => true
  | .noonLimit => true
  | .thermalSample _ => true
  | .throttleStep _ => true
  | .clockRange clock _ => decide (clock < 7)
  | .voltageRange region _ => decide (region < 16)
  | .powerRequestP0 => true
  | .powerRequestP1 => true
  | .powerRequestP2 => true
  | .powerRequestP3 => true
  | .powerDrainComplete => true
  | .p2DrainTimeout => true
  | .selfRefreshAck port _ => memoryPortOk port
  | .sramBist _ => true
  | .laneCal _ => true
  | .memRetrain _ => true
  | .memMarch _ _ => true
  | .linkLoopback _ _ => true
  | .logicBist _ _ => true
  | .selftestComplete _ => true
  | .debugLevelWrite value => byteOk value
  | .authChallenge => true
  | .grantObserve _ _ => true
  | .grantOpen _ _ => true
  | .grantSolder _ _ _ => true
  | .grantDeploy _ _ => true
  | .grantReturn _ _ => true
  | .lifecycleProvision _ => true
  | .fwLoadData value => decide (value.length ≤ 1024)
  | .fwLoadGo => true
  | .fwVerifyComplete => true
  | .debugMemRead => true
  | .debugMemWrite _ => true
  | .counterClear _ => true
  | .counterSumForward _ _ => true
  | .alarmAck code => decide (code < 128)
  | .alarmMaskWrite _ => true
  | .memTrainingComplete port => memoryPortOk port
  | .laneChangeAckTimeout port => linkPortOk port
  | .epResetRelease port => enginePortOk port
  | .tickOutPulseEnd => true
  | .clockLowerSettle => true
  | .selftestDrainTimeout => true
  | .authNonceExpiry => true

end Sys2Proof
end

