-- ==== Sys2Proof/Config.lean ====
section
/-! DEFINITION. What the build fixes without the spec giving a number, and the free values of what the spec leaves
open: constants without a body, so that nothing can be proved of their value (log 3 and log 19). -/
namespace Sys2Proof.Config

/-- The n-th nonce of the physical entropy source (R462). -/
opaque nonce : Nat → BitVec 384
/-- DEVICE_UID, set at manufacture (R456). -/
opaque deviceUid : BitVec 128
/-- MCTP_VENDOR_IANA, set at build (R471). -/
opaque vendorIana : BitVec 32
/-- I3C_STATIC_ADDR, set at build (R471): 0 stands for none. -/
opaque i3cStaticAddr : Nat
/-- The provisioned ID that GETPID returns (R451 gives no value). -/
opaque i3cPid : BitVec 48
/-- The bus characteristics register that GETBCR returns (R451 gives no value). -/
opaque i3cBcr : BitVec 8
/-- The device characteristics register that GETDCR returns (R451 gives no value). -/
opaque i3cDcr : BitVec 8
/-- The status that GETSTATUS returns (R451 gives no value), the n-th time it is asked. -/
opaque i3cStatus : Nat → BitVec 16
/-- The body of the answer to Get MCTP Version Support (R452 names DSP0236 and gives no bytes). -/
opaque mctpVersions : List Byte
/-- The body of the answer to Get Vendor Defined Message Support beyond the enterprise number (R452). -/
opaque mctpVendorSets : List Byte
/-- Counter of row i (0 to 3) of the count-min sketch that (table, global row) falls on (R260 gives no hash). -/
opaque sketchIndex : Nat → Nat → Nat → BitVec 16
/-- The Psifort firmware key in the boot ROM (R465): X then Y. -/
opaque firmwareKey : BitVec 768
/-- How many of its units a dump has read when DEBUG_LEVEL is lowered (R470 does not say), the n-th time. -/
opaque dumpUnitsRead : Nat → BitVec 5
/-- The bit of a payload that a CORRUPT injection inverts (R358 does not say which), the n-th time. -/
opaque corruptBit : Nat → BitVec 11
/-- Which of the symbols left is the i-th one that a SYMBOLS injection inverts (R358 does not say which), the n-th time. -/
opaque invertedSymbol : Nat → Nat → BitVec 10
/-- Check bytes that fail decoding, for a block written as lost, as far as they do (R322 gives none), by its address. -/
opaque failingCheck : Nat → BitVec 32
/-- The residence time in 1/16 hc that a chip adds to a MGMT record it forwards (R355 gives no number), the n-th time. -/
opaque residence : Nat → BitVec 16
/-- The bytes of a Hot Row Store row that SRAM_UNCORRECTABLE hit (R416), the n-th time they are read. -/
opaque spoiltByte : Nat → BitVec 8
/-- ADMIT_TICK of a record no frame step of which was admitted (R153 gives none), the n-th such record. -/
opaque admitTick : Nat → BitVec 32
/-- Whether a memory controller answers the test read of a RESTORE written through DICT_WRITE (R323), the n-th time. -/
opaque restoreAnswered : Nat → Bool

end Sys2Proof.Config
end

