-- ==== Sys2Proof/Machine/Sparse.lean ====
section
/-! DEFINITION. Reading and writing sparse tables (an unlisted entry has the table's default) and bit fields, bytes and
serial numbers (R12, R16). -/
namespace Sys2Proof

/-- The entry listed at an index, if any. -/
def Sparse.find {α : Type} : Sparse α → Nat → Option α
  | [], _ => none
  | (i, v) :: t, k => if i = k then some v else Sparse.find t k

/-- The entry at an index of a table whose unlisted entries are d. -/
def Sparse.get {α : Type} (m : Sparse α) (d : α) (k : Nat) : α := (Sparse.find m k).getD d

/-- The table without the entry of an index. -/
def Sparse.erase {α : Type} : Sparse α → Nat → Sparse α
  | [], _ => []
  | (i, v) :: t, k => if i = k then t else if k < i then (i, v) :: t else (i, v) :: Sparse.erase t k

/-- The table with an entry listed in its place. -/
def Sparse.insert {α : Type} : Sparse α → Nat → α → Sparse α
  | [], k, v => [(k, v)]
  | (i, w) :: t, k, v =>
    if k < i then (k, v) :: (i, w) :: t
    else if i = k then (k, v) :: t
    else (i, w) :: Sparse.insert t k v

/-- Writes an entry of a table whose unlisted entries are d: the default is not listed. -/
def Sparse.set {α : Type} [DecidableEq α] (m : Sparse α) (d : α) (k : Nat) (v : α) : Sparse α :=
  if v = d then Sparse.erase m k else Sparse.insert m k v

/-- Every listed entry changed by a function, entries that become the default unlisted. -/
def Sparse.mapAll {α : Type} [DecidableEq α] (m : Sparse α) (d : α) (f : Nat → α → α) : Sparse α :=
  (m.map fun e => (e.1, f e.1 e.2)).filter fun e => decide (e.2 ≠ d)

/-- The canonical form: indices strictly rising, no entry equal to the default. -/
def Sparse.wf {α : Type} [DecidableEq α] (d : α) : Sparse α → Bool
  | [] => true
  | (i, v) :: t => decide (v ≠ d) && t.all (fun e => decide (i < e.1)) && Sparse.wf d t

/-- The least index that is not listed. -/
def Sparse.freeKey {α : Type} (m : Sparse α) : Nat := m.foldl (fun k e => if e.1 = k then k + 1 else k) 0

namespace Machine

/-- Bits [lo + len - 1 : lo] of a number. -/
def fld (v lo len : Nat) : Nat := (v >>> lo) % 2 ^ len

/-- Bit i of a number. -/
def bit (v i : Nat) : Bool := fld v i 1 == 1

/-- A field placed at bit lo, cut to its width. -/
def at' (v lo len : Nat) : Nat := (v % 2 ^ len) <<< lo

/-- A flag placed at bit lo. -/
def flag (b : Bool) (lo : Nat) : Nat := if b then 1 <<< lo else 0

/-- Little-endian bytes of a number (R12). -/
def leBytes : Nat → Nat → List Byte
  | 0, _ => []
  | n + 1, v => BitVec.ofNat 8 v :: leBytes n (v >>> 8)

/-- The number that little-endian bytes spell (R12). -/
def ofLe : List Byte → Nat
  | [] => 0
  | b :: t => b.toNat + (ofLe t) <<< 8

/-- Big-endian bytes of a number. -/
def beBytes (n v : Nat) : List Byte := (leBytes n v).reverse

/-- The number that big-endian bytes spell. -/
def ofBe (bs : List Byte) : Nat := ofLe bs.reverse

/-- Serial-number order of R16: a comes before b at width w. -/
def serialLt (w a b : Nat) : Bool :=
  let d := (b % 2 ^ w + 2 ^ w - a % 2 ^ w) % 2 ^ w
  decide (d ≠ 0 ∧ d < 2 ^ (w - 1))

/-- Serial-number order of R16: a does not come after b at width w. -/
def serialLe (w a b : Nat) : Bool := a % 2 ^ w == b % 2 ^ w || serialLt w a b

/-- Quotient rounded up. -/
def ceilDiv (a b : Nat) : Nat := if b = 0 then 0 else (a + b - 1) / b

/-- A number in two's complement at a width. -/
def ofSigned (w : Nat) (i : Int) : Nat := (i % (2 ^ w : Int)).toNat

/-- The element of a list at an index, or a default. -/
def nth {α : Type} (l : List α) (d : α) (i : Nat) : α := l.getD i d

/-- The elements of a list at indices lo to lo + n - 1. -/
def slice {α : Type} (l : List α) (lo n : Nat) : List α := (l.drop lo).take n

/-- A list cut or filled to a length. -/
def padTo {α : Type} (l : List α) (d : α) (n : Nat) : List α := (l ++ List.replicate (n - l.length) d).take n

/-- A list cut into pieces of a length (the last may be shorter); fuel bounds the number of pieces. -/
def chunksFuel {α : Type} (n : Nat) : Nat → List α → List (List α)
  | 0, _ => []
  | _ + 1, [] => []
  | f + 1, l => l.take n :: chunksFuel n f (l.drop n)

/-- A list cut into pieces of a length. -/
def chunks {α : Type} (n : Nat) (l : List α) : List (List α) := chunksFuel n l.length l

/-- The element with the least key, the first of several. -/
def argMin {α : Type} (key : α → Nat) : List α → Option α
  | [] => none
  | x :: t => match argMin key t with
    | none => some x
    | some y => if key y < key x then some y else some x

/-- The element with the least of two keys, the first of several. -/
def argMin2 {α : Type} (k1 k2 : α → Nat) : List α → Option α
  | [] => none
  | x :: t => match argMin2 k1 k2 t with
    | none => some x
    | some y => if k1 y < k1 x || (k1 y == k1 x && k2 y < k2 x) then some y else some x

/-- A list with an element inserted in order, after the elements it does not precede. -/
def insertBy {α : Type} (before : α → α → Bool) (x : α) : List α → List α
  | [] => [x]
  | y :: t => if before x y then x :: y :: t else y :: insertBy before x t

/-- A stable sort. -/
def sortBy {α : Type} (before : α → α → Bool) (l : List α) : List α :=
  l.foldl (fun acc x => insertBy before x acc) []

/-- Removes the first element that satisfies a test. -/
def dropFirst {α : Type} (p : α → Bool) : List α → List α
  | [] => []
  | x :: t => if p x then t else x :: dropFirst p t

/-- Changes every element that satisfies a test. -/
def modWhere {α : Type} (p : α → Bool) (f : α → α) (l : List α) : List α := l.map fun x => if p x then f x else x

/-- The list without repeats, first occurrences kept. -/
def uniq {α : Type} [DecidableEq α] (l : List α) : List α :=
  l.foldl (fun acc x => if acc.contains x then acc else acc ++ [x]) []

end Machine
end Sys2Proof
end

