-- ==== Sys2Proof/Machine/Codes.lean ====
section
/-! DEFINITION. CRC-32C of the flits (R336), the Reed-Solomon block code (R311), the counter generator (R369), the
overlay hash (R249) and ECDSA P-384 verification (R463, R465; log 22 for the curve). -/
namespace Sys2Proof.Machine

/-- One bit step of the reflected CRC-32C. -/
def crcStep (c : Nat) : Nat := if c % 2 = 1 then (c >>> 1) ^^^ 0x82F63B78 else c >>> 1

/-- n bit steps. -/
def crcSteps : Nat → Nat → Nat
  | 0, c => c
  | n + 1, c => crcSteps n (crcStep c)

/-- CRC-32C of bytes, polynomial 0x1EDC_6F41 (R336; log 23: reflected, initial value and final complement of all
ones, as CRC-32C is defined). -/
def crc32c (bs : List Byte) : Nat :=
  (bs.foldl (fun c b => crcSteps 8 (c ^^^ b.toNat)) 0xFFFFFFFF) ^^^ 0xFFFFFFFF

/-- Multiplication by α in GF(2^8) of R311: x^8 + x^4 + x^3 + x^2 + 1. -/
def gfDouble (a : Nat) : Nat := let d := a * 2; if d ≥ 256 then d ^^^ 0x11D else d

/-- Product in GF(2^8), over n bits of the second factor. -/
def gfMulBits : Nat → Nat → Nat → Nat
  | 0, _, _ => 0
  | n + 1, a, b => (if b % 2 = 1 then a else 0) ^^^ gfMulBits n (gfDouble a) (b / 2)

/-- Product in GF(2^8). -/
def gfMul (a b : Nat) : Nat := gfMulBits 8 a b

/-- Power in GF(2^8). -/
def gfPow (a : Nat) : Nat → Nat
  | 0 => 1
  | n + 1 => gfMul a (gfPow a n)

/-- α^n. -/
def gfExp (n : Nat) : Nat := gfPow 2 (n % 255)

/-- Inverse in GF(2^8): a^254. -/
def gfInv (a : Nat) : Nat := gfPow a 254

/-- The syndrome of a codeword at α^j, its first symbol the coefficient of the highest power (log 24). -/
def rsSyndrome (cw : List Nat) (j : Nat) : Nat :=
  let r := gfExp j
  cw.foldl (fun acc c => gfMul acc r ^^^ c) 0

/-- The generator polynomial (x - α^0)(x - α^1)(x - α^2)(x - α^3) without its leading coefficient, highest first. -/
def rsGenerator : List Nat :=
  let mulLin (p : List Nat) (r : Nat) : List Nat :=
    (p ++ [0]).zipWith (· ^^^ ·) (0 :: p.map (gfMul · r))
  (mulLin (mulLin (mulLin (mulLin [1] 1) 2) 4) 8).drop 1

/-- One step of the systematic division: remainder (highest first) after one information symbol. -/
def rsStep (rem : List Nat) (d : Nat) : List Nat :=
  let f := d ^^^ nth rem 0 0
  (rem.drop 1 ++ [0]).zipWith (· ^^^ ·) (rsGenerator.map (gfMul f))

/-- The four check bytes of a block (R311). -/
def rsCheck (block : List Nat) : List Nat := block.foldl rsStep [0, 0, 0, 0]

/-- The outcomes of a decode (R312). -/
inductive Decoded where
  | clean
  | corrected (block : List Nat)
  | uncorrectable
  deriving DecidableEq, Repr

/-- Decodes 64 block bytes and 4 check bytes, correcting up to two erroneous symbols (R311, R312). -/
def rsDecode (cw : List Nat) : Decoded :=
  let s := fun j => rsSyndrome cw j
  let s0 := s 0
  let s1 := s 1
  let s2 := s 2
  let s3 := s 3
  if s0 = 0 ∧ s1 = 0 ∧ s2 = 0 ∧ s3 = 0 then .clean
  else
    -- position i stands at power 67 - i
    let locator := fun i => gfExp (67 - i)
    let fix (e : List (Nat × Nat)) : List Nat :=
      cw.zipIdx.map fun c => e.foldl (fun v f => if f.1 = c.2 then v ^^^ f.2 else v) c.1
    let single := (List.range 68).find? fun i =>
      let x := locator i
      s0 ≠ 0 && gfMul s0 x == s1 && gfMul s1 x == s2 && gfMul s2 x == s3
    match single with
    | some i => .corrected ((fix [(i, s0)]).take 64)
    | none =>
      let det := gfMul s0 s2 ^^^ gfMul s1 s1
      if det = 0 then .uncorrectable
      else
        let inv := gfInv det
        let sum := gfMul (gfMul s0 s3 ^^^ gfMul s1 s2) inv
        let prod := gfMul (gfMul s1 s3 ^^^ gfMul s2 s2) inv
        let roots := (List.range 68).filter fun i =>
          let x := locator i
          gfMul x x ^^^ gfMul sum x ^^^ prod == 0
        match roots with
        | [i, j] =>
          let xi := locator i
          let xj := locator j
          let ei := gfMul (s1 ^^^ gfMul s0 xj) (gfInv (xi ^^^ xj))
          let ej := s0 ^^^ ei
          if ei = 0 ∨ ej = 0 then .uncorrectable else .corrected ((fix [(i, ei), (j, ej)]).take 64)
        | _ => .uncorrectable

/-- 64-bit truncation. -/
def u64 (x : Nat) : Nat := x % 2 ^ 64

/-- mix64 of R369. -/
def mix64 (z : Nat) : Nat :=
  let z := u64 ((z ^^^ (z >>> 30)) * 0xBF58476D1CE4E5B9)
  let z := u64 ((z ^^^ (z >>> 27)) * 0x94D049BB133111EB)
  z ^^^ (z >>> 31)

/-- gisar_draw of R369. -/
def gisarDraw (seed flowId taskId drawIndex : Nat) : Nat :=
  let step (s : Nat × Nat × Nat) (r : Nat) : Nat × Nat × Nat :=
    let (h, a, b) := s
    let h := mix64 (u64 (h + r * 0x9E3779B97F4A7C15))
    let a := mix64 (a ^^^ h)
    let b := mix64 (u64 (b + a))
    (h ^^^ b, a, b)
  ([1, 2, 3, 4].foldl step (u64 seed, (taskId % 2 ^ 32) <<< 32 ||| drawIndex % 2 ^ 32, flowId % 2 ^ 32)).1

/-- The first map index of (table, key) in a map of 2^log2 entries (R249). -/
def overlayHash (log2 table key : Nat) : Nat :=
  let h := u64 (key * 0x9E3779B97F4A7C15) ^^^ u64 (table * 0xC2B2AE3D27D4EB4F)
  h >>> (64 - log2)

/-- The field prime of P-384. -/
def p384P : Nat := 2 ^ 384 - 2 ^ 128 - 2 ^ 96 + 2 ^ 32 - 1
/-- The coefficient b of P-384. -/
def p384B : Nat := 0xB3312FA7E23EE7E4988E056BE3F82D19181D9C6EFE8141120314088F5013875AC656398D8A2ED19D2A85C8EDD3EC2AEF
/-- The order of P-384. -/
def p384N : Nat := 0xFFFFFFFFFFFFFFFFFFFFFFFFFFFFFFFFFFFFFFFFFFFFFFFFC7634D81F4372DDF581A0DB248B0A77AECEC196ACCC52973
/-- The base point of P-384. -/
def p384G : Nat × Nat :=
  (0xAA87CA22BE8B05378EB1C71EF320AD746E1D3B628BA79B9859F741E082542A385502F25DBF55296C3A545E3872760AB7,
   0x3617DE4A96262C6F5D9E98BF9292DC29F8F41DBD289A147CE9DA3113B5F0B8C00A60B1CE1D7E819D7A431D7C90EA0E5F)

/-- Modular power over n bits of the exponent. -/
def powMod (m : Nat) : Nat → Nat → Nat → Nat
  | 0, _, _ => 1 % m
  | n + 1, b, e => ((if e % 2 = 1 then b else 1) * powMod m n (b * b % m) (e / 2)) % m

/-- Modular inverse for a prime modulus of 384 bits. -/
def invMod (m a : Nat) : Nat := powMod m 384 (a % m) (m - 2)

/-- The affine points of P-384; none is the point at infinity. -/
abbrev EcPoint := Option (Nat × Nat)

/-- Whether a pair of coordinates is a point of the curve (R458). -/
def ecOnCurve (x y : Nat) : Bool :=
  decide (x < p384P ∧ y < p384P) && y * y % p384P == (x * x * x + p384P * 3 - 3 * x % (p384P * 3) + p384B) % p384P

/-- Sum of two points. -/
def ecAdd (a b : EcPoint) : EcPoint :=
  match a, b with
  | none, q => q
  | q, none => q
  | some (x1, y1), some (x2, y2) =>
    if x1 = x2 ∧ (y1 + y2) % p384P = 0 then none
    else
      let l := if x1 = x2 then (3 * x1 * x1 + p384P - 3) * invMod p384P (2 * y1) % p384P
               else (y2 + p384P - y1) * invMod p384P (x2 + p384P - x1) % p384P
      let x := (l * l + 2 * p384P - x1 - x2) % p384P
      some (x, (l * (x1 + p384P - x) + p384P - y1) % p384P)

/-- Multiple of a point over n bits of the factor. -/
def ecMulBits : Nat → Nat → EcPoint → EcPoint
  | 0, _, _ => none
  | n + 1, k, q => ecAdd (if k % 2 = 1 then q else none) (ecMulBits n (k / 2) (ecAdd q q))

/-- ECDSA P-384 verification of a SHA-384 digest (FIPS 186-5). -/
def ecdsaVerify (keyX keyY digest r s : Nat) : Bool :=
  if r = 0 ∨ r ≥ p384N ∨ s = 0 ∨ s ≥ p384N then false
  else if !ecOnCurve keyX keyY then false
  else
    let w := invMod p384N s
    match ecAdd (ecMulBits 384 (digest * w % p384N) (some p384G)) (ecMulBits 384 (r * w % p384N) (some (keyX, keyY))) with
    | none => false
    | some (x, _) => x % p384N == r

end Sys2Proof.Machine
end

