-- ==== Sys2Proof/Machine/Float.lean ====
section
/-! DEFINITION. The arithmetic of the Embedding and Routing Engines: IEEE 754 binary32 with round-to-nearest-even,
subnormals kept, every NaN canonical (R222), and the conversions of R221, R240 and R280. Values are 32-bit patterns. -/
namespace Sys2Proof.Machine

/-- The canonical NaN of R222. -/
def fNaN : Nat := 0x7FC00000

/-- A decoded binary32: NaN, an infinity, or (-1)^neg * m * 2^(e - 149). -/
inductive Flt where
  | nan
  | inf (neg : Bool)
  | num (neg : Bool) (m : Nat) (e : Nat)
  deriving DecidableEq, Repr

/-- Decodes a pattern. -/
def fDecode (v : Nat) : Flt :=
  let neg := bit v 31
  let e := fld v 23 8
  let m := fld v 0 23
  if e = 255 then (if m = 0 then .inf neg else .nan)
  else if e = 0 then .num neg m 0
  else .num neg (m + 2 ^ 23) (e - 1)

/-- The pattern of an infinity. -/
def fInf (neg : Bool) : Nat := 0x7F800000 + flag neg 31

/-- Nearest even: m / 2^k, with more telling of nonzero bits already lost below m. -/
def rneShift (m k : Nat) (more : Bool) : Nat :=
  if k = 0 then m
  else
    let q := m >>> k
    let r := m % 2 ^ k
    let half := 2 ^ (k - 1)
    if r > half || (r == half && (more || q % 2 == 1)) then q + 1 else q

/-- The pattern nearest to (-1)^neg * m * 2^(e - 149), e an integer; more: nonzero bits lie below m. -/
def fRound (neg : Bool) (m : Nat) (e : Int) (more : Bool) : Nat :=
  if m = 0 then flag neg 31
  else
    let len := m.log2 + 1
    -- bits to drop so that at most 24 remain and the exponent is not below that of the least subnormal
    let k : Int := max ((len : Int) - 24) (-e)
    let (q, e2) : Nat × Int := if k ≤ 0 then (m <<< (-k).toNat, e + k) else (rneShift m k.toNat more, e + k)
    let (q, e2) : Nat × Int := if q = 2 ^ 24 then (2 ^ 23, e2 + 1) else (q, e2)
    if q < 2 ^ 23 then q + flag neg 31
    else if e2 + 1 ≥ 255 then fInf neg
    else ((e2 + 1).toNat <<< 23) + (q - 2 ^ 23) + flag neg 31

/-- Signed sum of two numbers on a common scale. -/
def signedSum (n1 : Bool) (a : Nat) (n2 : Bool) (b : Nat) : Bool × Nat :=
  if n1 = n2 then (n1, a + b)
  else if a > b then (n1, a - b)
  else if b > a then (n2, b - a)
  else (false, 0)

/-- Exact sum of two numbers, rounded; exponents are those of fDecode, possibly beyond its range. -/
def fAddNum (n1 : Bool) (m1 : Nat) (e1 : Int) (n2 : Bool) (m2 : Nat) (e2 : Int) : Nat :=
  if m1 = 0 ∧ m2 = 0 then flag (n1 && n2) 31
  else
    let e := min e1 e2
    let (n, m) := signedSum n1 (m1 <<< (e1 - e).toNat) n2 (m2 <<< (e2 - e).toNat)
    fRound n m e false

/-- add_rne of R230. -/
def fAdd (x y : Nat) : Nat :=
  match fDecode x, fDecode y with
  | .nan, _ => fNaN
  | _, .nan => fNaN
  | .inf a, .inf b => if a = b then fInf a else fNaN
  | .inf a, .num _ _ _ => fInf a
  | .num _ _ _, .inf b => fInf b
  | .num n1 m1 e1, .num n2 m2 e2 => fAddNum n1 m1 e1 n2 m2 e2

/-- Negation of a pattern. -/
def fNeg (x : Nat) : Nat := if bit x 31 then x - 2 ^ 31 else x + 2 ^ 31

/-- sub_rne of R233. -/
def fSub (x y : Nat) : Nat := fAdd x (fNeg y)

/-- mul_rne of R230. -/
def fMul (x y : Nat) : Nat :=
  match fDecode x, fDecode y with
  | .nan, _ => fNaN
  | _, .nan => fNaN
  | .inf a, .inf b => fInf (a != b)
  | .inf a, .num b m _ => if m = 0 then fNaN else fInf (a != b)
  | .num a m _, .inf b => if m = 0 then fNaN else fInf (a != b)
  | .num n1 m1 e1, .num n2 m2 e2 => fRound (n1 != n2) (m1 * m2) (e1 + e2 - 149) false

/-- fma_rne of R230: x * y + z rounded once. -/
def fFma (x y z : Nat) : Nat :=
  match fDecode x, fDecode y, fDecode z with
  | .nan, _, _ => fNaN
  | _, .nan, _ => fNaN
  | .inf a, .num b m _, c => if m = 0 then fNaN else fFmaInf (a != b) c
  | .num a m _, .inf b, c => if m = 0 then fNaN else fFmaInf (a != b) c
  | .inf a, .inf b, c => fFmaInf (a != b) c
  | .num _ _ _, .num _ _ _, .nan => fNaN
  | .num _ _ _, .num _ _ _, .inf c => fInf c
  | .num n1 m1 e1, .num n2 m2 e2, .num n3 m3 e3 =>
    fAddNum (n1 != n2) (m1 * m2) (e1 + e2 - 149) n3 m3 e3
where
  /-- An infinite product plus a third value. -/
  fFmaInf (n : Bool) (c : Flt) : Nat :=
    match c with
    | .nan => fNaN
    | .inf d => if d = n then fInf n else fNaN
    | .num _ _ _ => fInf n

/-- div_rne of R240. -/
def fDiv (x y : Nat) : Nat :=
  match fDecode x, fDecode y with
  | .nan, _ => fNaN
  | _, .nan => fNaN
  | .inf _, .inf _ => fNaN
  | .inf a, .num b _ _ => fInf (a != b)
  | .num a _ _, .inf b => flag (a != b) 31
  | .num n1 m1 e1, .num n2 m2 e2 =>
    if m2 = 0 then (if m1 = 0 then fNaN else fInf (n1 != n2))
    else
      let q := (m1 <<< 64) / m2
      let r := (m1 <<< 64) % m2
      -- the quotient's low bit is made sticky, far below any rounding position
      fRound (n1 != n2) (q * 2 + (if r = 0 then 0 else 1)) ((e1 : Int) - e2 - 65 + 149) false

/-- Conversion of a count to binary32 (R240). -/
def fOfNat (n : Nat) : Nat := fRound false n 149 false

/-- Conversion of an integer to binary32. -/
def fOfInt (i : Int) : Nat := fRound (decide (i < 0)) i.natAbs 149 false

/-- Whether a pattern is a NaN. -/
def fIsNaN (x : Nat) : Bool := fDecode x == .nan

/-- A key that orders every value but NaN by the total order in which -0 is below +0. -/
def fKey (x : Nat) : Int := if bit x 31 then -((fld x 0 31 : Nat) : Int) - 1 else (fld x 0 31 : Nat)

/-- max_total of R222. -/
def fMax (x y : Nat) : Nat := if fIsNaN x || fIsNaN y then fNaN else if fKey x ≥ fKey y then x else y

/-- IEEE 754 comparison, +0 and -0 equal, false on a NaN: x > y. -/
def fGt (x y : Nat) : Bool :=
  !fIsNaN x && !fIsNaN y && !(fld x 0 31 == 0 && fld y 0 31 == 0) && decide (fKey x > fKey y)

/-- IEEE 754 equality. -/
def fEq (x y : Nat) : Bool := !fIsNaN x && !fIsNaN y && !fGt x y && !fGt y x

/-- IEEE 754 comparison x ≥ y. -/
def fGe (x y : Nat) : Bool := fGt x y || fEq x y

/-- Exact conversion of a small format with eb exponent bits, mb mantissa bits and a bias (R221). -/
def fOfSmall (eb mb bias : Nat) (ieee : Bool) (v : Nat) : Nat :=
  let neg := bit v (eb + mb)
  let e := fld v mb eb
  let m := fld v 0 mb
  if ieee && e == 2 ^ eb - 1 then (if m = 0 then fInf neg else fNaN)
  else if !ieee && e == 2 ^ eb - 1 && m == 2 ^ mb - 1 then fNaN
  else
    let (m, e) := if e = 0 then (m, 1) else (m + 2 ^ mb, e)
    fRound neg m ((e : Int) - bias - mb + 149) false

/-- BF16 to binary32. -/
def fOfBf16 (v : Nat) : Nat := let x := v <<< 16; if fIsNaN x then fNaN else x

/-- Binary32 to BF16, nearest even (R227, R240). -/
def fToBf16 (x : Nat) : Nat :=
  if fIsNaN x then 0x7FC0
  else if fld x 23 8 = 255 then x >>> 16
  else rneShift x 16 false

/-- The element e of a stored row in a format of R221, as binary32. -/
def rowElement (format : Nat) (row : List Byte) (e : Nat) : Nat :=
  let canon (x : Nat) := if fIsNaN x then fNaN else x
  match format with
  | 0 => canon (ofLe (slice row (4 * e) 4))
  | 1 => fOfBf16 (ofLe (slice row (2 * e) 2))
  | 2 => fOfSmall 5 10 15 true (ofLe (slice row (2 * e) 2))
  | 3 => fOfSmall 4 3 7 false (ofLe (slice row e 1))
  | 4 => fOfSmall 5 2 15 true (ofLe (slice row e 1))
  | 5 =>
    let q := ofLe (slice row (8 + e) 1)
    fMul (ofLe (slice row 0 4)) (fOfInt (if q < 128 then (q : Int) else (q : Int) - 256))
  | _ =>
    let b := ofLe (slice row (8 + e / 2) 1)
    let q := if e % 2 = 0 then fld b 0 4 else fld b 4 4
    fMul (ofLe (slice row 0 4)) (fOfInt ((q : Int) - (fld (ofLe (slice row 4 1)) 0 8 : Nat)))

end Sys2Proof.Machine
end

