-- ==== Sys2Proof/Machine/Objects.lean ====
section
/-! DEFINITION. The object dictionary's index space (R486, R487), as the directory of R491 gives it: one row per object,
generated from the tables of spec/. A key is INDEX * 256 + SUB. -/
namespace Sys2Proof.Machine

/-- A row of the directory (R491), with the object's default, the range of its scalar value and its counter class:
0 no counter, 2 event counter, 3 accounting counter (R472). -/
structure ObjDesc where
  key : Nat
  ty : Nat
  array : Bool
  access : Nat
  gate : Nat
  effect : Nat
  debug : Nat
  mctpOnly : Bool
  elements : Nat
  bytes : Nat
  dflt : Nat
  lo : Nat
  hi : Nat
  step : Nat
  cls : Nat

/-- Key of IDENTITY_NAME (R2). -/
def K.identityName : Nat := 0x100000
/-- Key of RELEASE_CODE (R2). -/
def K.releaseCode : Nat := 0x100100
/-- Key of VENDOR_CODE (R487). -/
def K.vendorCode : Nat := 0x100200
/-- Key of BUILD_ENGINE_PORTS (R2). -/
def K.buildEnginePorts : Nat := 0x101001
/-- Key of BUILD_MEMORY_PORTS (R2). -/
def K.buildMemoryPorts : Nat := 0x101002
/-- Key of BUILD_LINK_PORTS (R2). -/
def K.buildLinkPorts : Nat := 0x101003
/-- Key of DICT_DIRECTORY (R487). -/
def K.dictDirectory : Nat := 0x102000
/-- Key of DICT_OBJECTS (R487). -/
def K.dictObjects : Nat := 0x102100
/-- Key of MCTP_EID (R471). -/
def K.mctpEid : Nat := 0x110001
/-- Key of MCTP_VENDOR_IANA (R471). -/
def K.mctpVendorIana : Nat := 0x110002
/-- Key of I3C_STATIC_ADDR (R471). -/
def K.i3cStaticAddr : Nat := 0x110003
/-- Key of I3C_DYNAMIC_ADDR (R471). -/
def K.i3cDynamicAddr : Nat := 0x110004
/-- Key of LIFECYCLE_STATE (R471). -/
def K.lifecycleState : Nat := 0x120001
/-- Key of DEVICE_UID (R471). -/
def K.deviceUid : Nat := 0x120002
/-- Key of OWNER_KEY (R471). -/
def K.ownerKey : Nat := 0x120003
/-- Key of LIFECYCLE_PROVISION (R471). -/
def K.lifecycleProvision : Nat := 0x120004
/-- Key of DEBUG_LEVEL (R471). -/
def K.debugLevel : Nat := 0x120101
/-- Key of AUTH_CHALLENGE (R471). -/
def K.authChallenge : Nat := 0x120102
/-- Key of AUTH_RESPONSE (R471). -/
def K.authResponse : Nat := 0x120103
/-- Key of AUTH_RESULT (R471). -/
def K.authResult : Nat := 0x120104
/-- Key of AUTH_FAILURES (R471). -/
def K.authFailures : Nat := 0x120105
/-- Key of SOLDER_GRANT (R471). -/
def K.solderGrant : Nat := 0x120106
/-- Key of FW_LOAD_OFFSET (R471). -/
def K.fwLoadOffset : Nat := 0x120201
/-- Key of FW_LOAD_DATA (R471). -/
def K.fwLoadData : Nat := 0x120202
/-- Key of FW_LOAD_GO (R471). -/
def K.fwLoadGo : Nat := 0x120203
/-- Key of FW_STATE (R471). -/
def K.fwState : Nat := 0x120204
/-- Key of FW_SVN (R471). -/
def K.fwSvn : Nat := 0x120205
/-- Key of FW_DIGEST (R471). -/
def K.fwDigest : Nat := 0x120206
/-- Key of DEBUG_MEM_ADDR (R471). -/
def K.debugMemAddr : Nat := 0x120301
/-- Key of DEBUG_MEM_DATA (R471). -/
def K.debugMemData : Nat := 0x120302
/-- Key of TICK_SOURCE (R128). -/
def K.tickSource : Nat := 0x200001
/-- Key of TICK_PERIOD_US (R128). -/
def K.tickPeriodUs : Nat := 0x200002
/-- Key of TICK_NUMBER (R128). -/
def K.tickNumber : Nat := 0x200003
/-- Key of TICK_MASTER_CHIP (R128). -/
def K.tickMasterChip : Nat := 0x200004
/-- Key of TICK_SKEW_LIMIT_NS (R128). -/
def K.tickSkewLimitNs : Nat := 0x200005
/-- Key of ADMIT_CAPACITY (R128). -/
def K.admitCapacity : Nat := 0x200100
/-- Key of PATH_LIMIT_PCT (R128). -/
def K.pathLimitPct : Nat := 0x200201
/-- Key of ADMIT_LIMIT (R128). -/
def K.admitLimit : Nat := 0x200202
/-- Key of FLOW_LEAVE_LIMIT (R128). -/
def K.flowLeaveLimit : Nat := 0x200203
/-- Key of SHARE_WEIGHT (R218). -/
def K.shareWeight : Nat := 0x210000
/-- Key of SHARE_ENGINE_HC (R218). -/
def K.shareEngineHc : Nat := 0x210100
/-- Key of SHARE_SWITCH_HC (R218). -/
def K.shareSwitchHc : Nat := 0x210200
/-- Key of CLIENT_JOB_COUNTS (R218). -/
def K.clientJobCounts : Nat := 0x210300
/-- Key of ENGINE_PORT_CONFIG (R99). -/
def K.enginePortConfig : Nat := 0x211000
/-- Key of ENGINE_PORT_STATE (R99). -/
def K.enginePortState : Nat := 0x211100
/-- Key of LOGICAL_MAP_P0 to P15 (R99). -/
def K.logicalMapP0 : Nat := 0x212000
/-- Key of LOAD_BALANCE_ENABLE (R99). -/
def K.loadBalanceEnable : Nat := 0x213000
/-- Key of YIELD_BOUND_NS (R99). -/
def K.yieldBoundNs : Nat := 0x213100
/-- Key of ENGINE_PORT_RESTORE (R99). -/
def K.enginePortRestore : Nat := 0x213200
/-- Key of IMAGE_LOAD_ADDR (R61). -/
def K.imageLoadAddr : Nat := 0x218001
/-- Key of IMAGE_LOAD_SLOT (R61). -/
def K.imageLoadSlot : Nat := 0x218002
/-- Key of IMAGE_LOAD_PARTITION (R61). -/
def K.imageLoadPartition : Nat := 0x218003
/-- Key of IMAGE_LOAD_GO (R61). -/
def K.imageLoadGo : Nat := 0x218004
/-- Key of IMAGE_LOAD_RESULT (R61). -/
def K.imageLoadResult : Nat := 0x218005
/-- Key of IMAGE_SLOT_DIGEST (R61). -/
def K.imageSlotDigest : Nat := 0x218100
/-- Key of FLOWS_IN_USE (R159). -/
def K.flowsInUse : Nat := 0x220001
/-- Key of HOLD_ENTRIES_FREE (R159). -/
def K.holdEntriesFree : Nat := 0x220002
/-- Key of RESERVATIONS_IN_USE (R159). -/
def K.reservationsInUse : Nat := 0x220003
/-- Key of FLOW_QUERY_ID (R159). -/
def K.flowQueryId : Nat := 0x220101
/-- Key of FLOW_QUERY_ENTRY (R159). -/
def K.flowQueryEntry : Nat := 0x220102
/-- Key of QUEUE_CONFIG (R159). -/
def K.queueConfig : Nat := 0x221000
/-- Key of QUEUE_CONTROL (R159). -/
def K.queueControl : Nat := 0x221100
/-- Key of DOORBELL_BIND (R159). -/
def K.doorbellBind : Nat := 0x221200
/-- Key of READ_BIND (R159). -/
def K.readBind : Nat := 0x221300
/-- Key of SIGNAL_SELECT (R187). -/
def K.signalSelect : Nat := 0x230001
/-- Key of SIGNAL_OPEN (R187). -/
def K.signalOpen : Nat := 0x230002
/-- Key of SIGNAL_CLOSE (R187). -/
def K.signalClose : Nat := 0x230003
/-- Key of SIGNAL_STATE (R187). -/
def K.signalState : Nat := 0x230004
/-- Key of SIGNAL_ALIGN_ENTRY (R187). -/
def K.signalAlignEntry : Nat := 0x230005
/-- Key of ALIGNED_IN_USE (R187). -/
def K.alignedInUse : Nat := 0x230006
/-- Key of QUEUE_SIGNAL_BIND (R187). -/
def K.queueSignalBind : Nat := 0x230100
/-- Key of PARTITION_WINDOW (R218). -/
def K.partitionWindow : Nat := 0x240000
/-- Key of PARTITION_CACHE_WAYS (R218). -/
def K.partitionCacheWays : Nat := 0x240100
/-- Key of PREEMPT_ENABLE (R218). -/
def K.preemptEnable : Nat := 0x240200
/-- Key of PREEMPT_WAIT_HC (R218). -/
def K.preemptWaitHc : Nat := 0x240300
/-- Key of SCRATCH_BYTES (R218). -/
def K.scratchBytes : Nat := 0x240400
/-- Key of SPILL_AREA (R218). -/
def K.spillArea : Nat := 0x240500
/-- Key of TABLE_DESC_BASE (R245). -/
def K.tableDescBase : Nat := 0x300001
/-- Key of EXCHANGE_OFFSET_PCT (R245). -/
def K.exchangeOffsetPct : Nat := 0x300002
/-- Key of REMOTE_TIMEOUT_US (R245). -/
def K.remoteTimeoutUs : Nat := 0x300003
/-- Key of TABLE_SELECT (R245). -/
def K.tableSelect : Nat := 0x300101
/-- Key of TABLE_COMMAND (R245). -/
def K.tableCommand : Nat := 0x300102
/-- Key of TABLE_RESULT (R245). -/
def K.tableResult : Nat := 0x300103
/-- Key of TABLE_STATE (R245). -/
def K.tableState : Nat := 0x300200
/-- Key of VOXPOR_SWAP (R275). -/
def K.voxporSwap : Nat := 0x301001
/-- Key of UPDATE_POOL (R275). -/
def K.updatePool : Nat := 0x301100
/-- Key of OVERLAY_MAP_BASE (R275). -/
def K.overlayMapBase : Nat := 0x301201
/-- Key of OVERLAY_MAP_LOG2 (R275). -/
def K.overlayMapLog2 : Nat := 0x301202
/-- Key of TABLE_DIGEST_BASE (R275). -/
def K.tableDigestBase : Nat := 0x301203
/-- Key of LIVE_UPDATE_ENABLE (R275). -/
def K.liveUpdateEnable : Nat := 0x301301
/-- Key of UPDATE_KEEP_TICKS (R275). -/
def K.updateKeepTicks : Nat := 0x301302
/-- Key of HOT_THRESHOLD (R275). -/
def K.hotThreshold : Nat := 0x301303
/-- Key of HOT_IDLE_TICKS (R275). -/
def K.hotIdleTicks : Nat := 0x301304
/-- Key of REPLICA_LEASE_TICKS (R275). -/
def K.replicaLeaseTicks : Nat := 0x301305
/-- Key of FOLD_ENABLE (R275). -/
def K.foldEnable : Nat := 0x301306
/-- Key of TABLE_UPDATE_STATE (R275). -/
def K.tableUpdateState : Nat := 0x301401
/-- Key of TABLE_DIGEST (R275). -/
def K.tableDigest : Nat := 0x301402
/-- Key of EXCHANGE_TIMEOUT_US (R299). -/
def K.exchangeTimeoutUs : Nat := 0x340001
/-- Key of EXCHANGES_OPEN (R299). -/
def K.exchangesOpen : Nat := 0x340002
/-- Key of EXCHANGE_STREAM_SEQ (R299). -/
def K.exchangeStreamSeq : Nat := 0x340100
/-- Key of STRIPE_GROUP_SIZE (R331). -/
def K.stripeGroupSize : Nat := 0x400001
/-- Key of MEM_PORT_PAGES (R331). -/
def K.memPortPages : Nat := 0x400002
/-- Key of MEM_TIMEOUT_US (R331). -/
def K.memTimeoutUs : Nat := 0x400003
/-- Key of REBUILD_RATE_PCT (R331). -/
def K.rebuildRatePct : Nat := 0x400004
/-- Key of SCRUB_PERIOD_H (R331). -/
def K.scrubPeriodH : Nat := 0x400005
/-- Key of PPR_ENABLE (R331). -/
def K.pprEnable : Nat := 0x400006
/-- Key of MEM_PORT_STATE (R331). -/
def K.memPortState : Nat := 0x401000
/-- Key of MEM_PORT_CONTROL (R331). -/
def K.memPortControl : Nat := 0x401100
/-- Key of REBUILD_PROGRESS (R331). -/
def K.rebuildProgress : Nat := 0x401200
/-- Key of RETIRE_TABLE_MP0 to MP23 (R331). -/
def K.retireTableMp0 : Nat := 0x402000
/-- Key of LINK_ENABLE (R362). -/
def K.linkEnable : Nat := 0x440000
/-- Key of LINK_STATE (R362). -/
def K.linkState : Nat := 0x440100
/-- Key of LINK_NEIGHBOR (R362). -/
def K.linkNeighbor : Nat := 0x440200
/-- Key of LINK_DELAY (R362). -/
def K.linkDelay : Nat := 0x440300
/-- Key of LINK_LANES (R362). -/
def K.linkLanes : Nat := 0x440400
/-- Key of LINK_DATELINE (R362). -/
def K.linkDateline : Nat := 0x440500
/-- Key of LINK_BCAST_PORTS (R362). -/
def K.linkBcastPorts : Nat := 0x440600
/-- Key of LINK_REPLAY_TIMEOUT_NS (R362). -/
def K.linkReplayTimeoutNs : Nat := 0x440701
/-- Key of LINK_RETRY_LIMIT (R362). -/
def K.linkRetryLimit : Nat := 0x440702
/-- Key of LINK_DEAD_NS (R362). -/
def K.linkDeadNs : Nat := 0x440703
/-- Key of LINK_MAX_HOPS (R362). -/
def K.linkMaxHops : Nat := 0x440704
/-- Key of LINK_INCARNATION (R362). -/
def K.linkIncarnation : Nat := 0x440705
/-- Key of CHIP_ID (R487). -/
def K.chipId : Nat := 0x440800
/-- Key of ROUTE_TABLE (R362). -/
def K.routeTable : Nat := 0x441000
/-- Key of START_BARRIER_GO (R362). -/
def K.startBarrierGo : Nat := 0x442000
/-- Key of SOLDER_CONFIG (R362). -/
def K.solderConfig : Nat := 0x443001
/-- Key of SOLDER_SEED (R362). -/
def K.solderSeed : Nat := 0x443002
/-- Key of SOLDER_ARM (R362). -/
def K.solderArm : Nat := 0x443003
/-- Key of REPLAY_CONTROL (R389). -/
def K.replayControl : Nat := 0x500001
/-- Key of REPLAY_LOG_BASE (R389). -/
def K.replayLogBase : Nat := 0x500002
/-- Key of REPLAY_LOG_LOG2 (R389). -/
def K.replayLogLog2 : Nat := 0x500003
/-- Key of LOG_PRODUCED (R389). -/
def K.logProduced : Nat := 0x500004
/-- Key of LOG_CONSUMED (R389). -/
def K.logConsumed : Nat := 0x500005
/-- Key of REPLAY_STATUS (R389). -/
def K.replayStatus : Nat := 0x500006
/-- Key of REPLAY_DIVERGE (R389). -/
def K.replayDiverge : Nat := 0x500007
/-- Key of REPLAY_RESULT_HASHES (R389). -/
def K.replayResultHashes : Nat := 0x500008
/-- Key of CHIP_COUNT (R389). -/
def K.chipCount : Nat := 0x500100
/-- Key of RUN_DIGEST_CONTEXTS (R389). -/
def K.runDigestContexts : Nat := 0x500200
/-- Key of RNG_PROBE_IN (R389). -/
def K.rngProbeIn : Nat := 0x500301
/-- Key of RNG_PROBE_OUT (R389). -/
def K.rngProbeOut : Nat := 0x500302
/-- Key of DRAIN_LIMIT_US (R422). -/
def K.drainLimitUs : Nat := 0x540001
/-- Key of DISPATCH_PROGRESS_US (R422). -/
def K.dispatchProgressUs : Nat := 0x540002
/-- Key of ENGINE_L1_LIMIT (R422). -/
def K.engineL1Limit : Nat := 0x540003
/-- Key of ESCALATE_COUNT (R422). -/
def K.escalateCount : Nat := 0x540004
/-- Key of ESCALATE_WINDOW_S (R422). -/
def K.escalateWindowS : Nat := 0x540005
/-- Key of MC_WATCHDOG_MS (R422). -/
def K.mcWatchdogMs : Nat := 0x540006
/-- Key of MC_HEARTBEAT (R422). -/
def K.mcHeartbeat : Nat := 0x540007
/-- Key of RESET_REQUEST (R422). -/
def K.resetRequest : Nat := 0x540100
/-- Key of RESET_STATE (R422). -/
def K.resetState : Nat := 0x540200
/-- Key of ESCALATION_HISTORY (R422). -/
def K.escalationHistory : Nat := 0x540300
/-- Key of NIGHT_RELEASE (R422). -/
def K.nightRelease : Nat := 0x540400
/-- Key of TEARDOWN_REPORT (R422). -/
def K.teardownReport : Nat := 0x540500
/-- Key of MEM_ZERO_FILL (R422). -/
def K.memZeroFill : Nat := 0x540601
/-- Key of MEM_ZERO_FILL_DONE (R422). -/
def K.memZeroFillDone : Nat := 0x540602
/-- Key of UNIT_CONTROL (R30). -/
def K.unitControl : Nat := 0x540701
/-- Key of UNIT_STOPPED (R30). -/
def K.unitStopped : Nat := 0x540702
/-- Key of DUMP_AUTO (R422). -/
def K.dumpAuto : Nat := 0x541001
/-- Key of DUMP_REQUEST (R422). -/
def K.dumpRequest : Nat := 0x541002
/-- Key of DUMP_STATE (R422). -/
def K.dumpState : Nat := 0x541003
/-- Key of DUMP_OFFSET (R422). -/
def K.dumpOffset : Nat := 0x541004
/-- Key of DUMP_DATA (R422). -/
def K.dumpData : Nat := 0x541005
/-- Key of DUMP_ACK (R422). -/
def K.dumpAck : Nat := 0x541006
/-- Key of START_GO (R445). -/
def K.startGo : Nat := 0x580001
/-- Key of START_STAGE (R445). -/
def K.startStage : Nat := 0x580002
/-- Key of CLOCK_CAP_LEVEL (R445). -/
def K.clockCapLevel : Nat := 0x580101
/-- Key of CLOCK_LEVEL (R445). -/
def K.clockLevel : Nat := 0x580102
/-- Key of HCLK_MEASURED_KHZ (R445). -/
def K.hclkMeasuredKhz : Nat := 0x580103
/-- Key of POWER_STATE (R445). -/
def K.powerState : Nat := 0x580201
/-- Key of POWER_REQUEST (R445). -/
def K.powerRequest : Nat := 0x580202
/-- Key of POWER_RESULT (R445). -/
def K.powerResult : Nat := 0x580203
/-- Key of P1_CLOCK_LEVEL (R445). -/
def K.p1ClockLevel : Nat := 0x580204
/-- Key of P1_LANES (R445). -/
def K.p1Lanes : Nat := 0x580205
/-- Key of P2_DRAIN_MS (R445). -/
def K.p2DrainMs : Nat := 0x580206
/-- Key of THERMAL_THROTTLE_C (R445). -/
def K.thermalThrottleC : Nat := 0x580301
/-- Key of THERMAL_GRADIENT_C (R445). -/
def K.thermalGradientC : Nat := 0x580302
/-- Key of THERMAL_TRIP_C (R445). -/
def K.thermalTripC : Nat := 0x580303
/-- Key of THERMAL_SENSORS (R445). -/
def K.thermalSensors : Nat := 0x580304
/-- Key of REGION_VOLTAGE_DIFF (R445). -/
def K.regionVoltageDiff : Nat := 0x580305
/-- Key of WIPE_PENDING (R445). -/
def K.wipePending : Nat := 0x580400
/-- Key of BRASS_ENABLE (R485). -/
def K.brassEnable : Nat := 0x600001
/-- Key of BRASS_QUEUE (R485). -/
def K.brassQueue : Nat := 0x600002
/-- Key of BRASS_FILTER (R485). -/
def K.brassFilter : Nat := 0x600003
/-- Key of EVENT_LOG_QUEUE (R485). -/
def K.eventLogQueue : Nat := 0x600004
/-- Key of COUNTER_CLEAR (R485). -/
def K.counterClear : Nat := 0x600005
/-- Key of ALARM_MASK (R485). -/
def K.alarmMask : Nat := 0x600100
/-- Key of ALARM_ACK (R485). -/
def K.alarmAck : Nat := 0x600200
/-- Key of ALARM_PENDING (R485). -/
def K.alarmPending : Nat := 0x600300
/-- Key of LOADER_WINDOW_STALL_HC (R61). -/
def K.loaderWindowStallHc : Nat := 0x601001
/-- Key of IMAGE_LOADS_REFUSED (R61). -/
def K.imageLoadsRefused : Nat := 0x601002
/-- Key of TOKENS_MATCHED (R99). -/
def K.tokensMatched : Nat := 0x601101
/-- Key of TOKENS_STALE_DROPPED (R99). -/
def K.tokensStaleDropped : Nat := 0x601102
/-- Key of TOKENS_PROTOCOL_DROPPED (R99). -/
def K.tokensProtocolDropped : Nat := 0x601103
/-- Key of BANK_CONFLICT_HC (R99). -/
def K.bankConflictHc : Nat := 0x601104
/-- Key of TASKS_SKIPPED (R99). -/
def K.tasksSkipped : Nat := 0x601105
/-- Key of YIELDS_LATE (R99). -/
def K.yieldsLate : Nat := 0x601106
/-- Key of BALANCED_ISSUES (R99). -/
def K.balancedIssues : Nat := 0x601107
/-- Key of SLOTS_IN_USE (R99). -/
def K.slotsInUse : Nat := 0x601108
/-- Key of DISPATCHED (R99). -/
def K.dispatched : Nat := 0x601200
/-- Key of STEPS_ADMITTED_FULL (R128). -/
def K.stepsAdmittedFull : Nat := 0x601301
/-- Key of STEPS_ADMITTED_FALLBACK (R128). -/
def K.stepsAdmittedFallback : Nat := 0x601302
/-- Key of ADMISSIONS_DEFERRED (R128). -/
def K.admissionsDeferred : Nat := 0x601303
/-- Key of JOINS_DEFERRED (R128). -/
def K.joinsDeferred : Nat := 0x601304
/-- Key of TIN_SUSPENDED (R128). -/
def K.tinSuspended : Nat := 0x601305
/-- Key of ADMIT_IMPOSSIBLE (R128). -/
def K.admitImpossible : Nat := 0x601306
/-- Key of STEPS_LATE (R128). -/
def K.stepsLate : Nat := 0x601307
/-- Key of DEADLINES_MISSED (R128). -/
def K.deadlinesMissed : Nat := 0x601308
/-- Key of DELAY_STALE_DROPPED (R128). -/
def K.delayStaleDropped : Nat := 0x601309
/-- Key of TICK_IN_EARLY (R128). -/
def K.tickInEarly : Nat := 0x60130A
/-- Key of DELAY_ENTRIES_IN_USE (R128). -/
def K.delayEntriesInUse : Nat := 0x60130B
/-- Key of RECORDS_ACCEPTED (R159). -/
def K.recordsAccepted : Nat := 0x601401
/-- Key of DOORBELL_QUEUE_FULL (R159). -/
def K.doorbellQueueFull : Nat := 0x601402
/-- Key of DOORBELL_BUSY (R159). -/
def K.doorbellBusy : Nat := 0x601403
/-- Key of DOORBELL_STALE_GEN (R159). -/
def K.doorbellStaleGen : Nat := 0x601404
/-- Key of DOORBELL_MALFORMED (R159). -/
def K.doorbellMalformed : Nat := 0x601405
/-- Key of RESULTS_RELEASED (R159). -/
def K.resultsReleased : Nat := 0x601406
/-- Key of RELEASE_WAIT_HC (R159). -/
def K.releaseWaitHc : Nat := 0x601407
/-- Key of TELEMETRY_WORDS_DROPPED (R159). -/
def K.telemetryWordsDropped : Nat := 0x601408
/-- Key of QUEUE_WORDS_FLUSHED (R159). -/
def K.queueWordsFlushed : Nat := 0x601409
/-- Key of FLOWS_JOINED (R159). -/
def K.flowsJoined : Nat := 0x60140A
/-- Key of DELAY_RELEASE_SKIPPED (R159). -/
def K.delayReleaseSkipped : Nat := 0x60140B
/-- Key of SIGNALS_APPLIED (R187). -/
def K.signalsApplied : Nat := 0x601501
/-- Key of SIGNALS_COALESCED (R187). -/
def K.signalsCoalesced : Nat := 0x601502
/-- Key of SIGNALS_SATURATED (R187). -/
def K.signalsSaturated : Nat := 0x601503
/-- Key of SIGNALS_DROPPED_CLOSED (R187). -/
def K.signalsDroppedClosed : Nat := 0x601504
/-- Key of SIGNALS_STALE_DROPPED (R187). -/
def K.signalsStaleDropped : Nat := 0x601505
/-- Key of WAITS_IMMEDIATE (R187). -/
def K.waitsImmediate : Nat := 0x601506
/-- Key of WAITS_PARKED (R187). -/
def K.waitsParked : Nat := 0x601507
/-- Key of WAITS_ABANDONED (R187). -/
def K.waitsAbandoned : Nat := 0x601508
/-- Key of BARRIER_PHASES (R187). -/
def K.barrierPhases : Nat := 0x601509
/-- Key of SYNC_DRIFT_EVENTS (R187). -/
def K.syncDriftEvents : Nat := 0x60150A
/-- Key of HELD_SIGNAL_WAIT_HC (R187). -/
def K.heldSignalWaitHc : Nat := 0x60150B
/-- Key of PREEMPTS_REQUESTED (R218). -/
def K.preemptsRequested : Nat := 0x601601
/-- Key of PREEMPTS_YIELDED (R218). -/
def K.preemptsYielded : Nat := 0x601602
/-- Key of PREEMPTS_RACED (R218). -/
def K.preemptsRaced : Nat := 0x601603
/-- Key of PREEMPT_NO_BUFFER (R218). -/
def K.preemptNoBuffer : Nat := 0x601604
/-- Key of SPILL_BEATS (R218). -/
def K.spillBeats : Nat := 0x601605
/-- Key of SWITCH_OVERRUN_HC (R218). -/
def K.switchOverrunHc : Nat := 0x601606
/-- Key of BOUND_CANCELLED (R218). -/
def K.boundCancelled : Nat := 0x601607
/-- Key of DISCARDS (R218). -/
def K.discards : Nat := 0x601608
/-- Key of PARTITION_VIOLATIONS (R218). -/
def K.partitionViolations : Nat := 0x601609
/-- Key of ROWS_GATHERED (R245). -/
def K.rowsGathered : Nat := 0x601701
/-- Key of BAGS_POOLED (R245). -/
def K.bagsPooled : Nat := 0x601702
/-- Key of ROWS_SCORED (R245). -/
def K.rowsScored : Nat := 0x601703
/-- Key of SCORE_NAN (R245). -/
def K.scoreNan : Nat := 0x601704
/-- Key of LOOKUPS_CANCELLED (R245). -/
def K.lookupsCancelled : Nat := 0x601705
/-- Key of REMOTE_RECORDS_SENT (R245). -/
def K.remoteRecordsSent : Nat := 0x601706
/-- Key of REMOTE_RECORDS_SERVED (R245). -/
def K.remoteRecordsServed : Nat := 0x601707
/-- Key of REMOTE_REPLIES_STALE (R245). -/
def K.remoteRepliesStale : Nat := 0x601708
/-- Key of REMOTE_TIMEOUTS (R245). -/
def K.remoteTimeouts : Nat := 0x601709
/-- Key of REORDER_STALL_HC (R245). -/
def K.reorderStallHc : Nat := 0x60170A
/-- Key of PARTIALS_PENDING (R245). -/
def K.partialsPending : Nat := 0x60170B
/-- Key of ROWS_STAGED (R275). -/
def K.rowsStaged : Nat := 0x601801
/-- Key of ROWS_SUPERSEDED (R275). -/
def K.rowsSuperseded : Nat := 0x601802
/-- Key of VERSIONS_RETIRED (R275). -/
def K.versionsRetired : Nat := 0x601803
/-- Key of ROWS_FOLDED (R275). -/
def K.rowsFolded : Nat := 0x601804
/-- Key of ROWS_MIGRATED (R275). -/
def K.rowsMigrated : Nat := 0x601805
/-- Key of ROWS_DEMOTED (R275). -/
def K.rowsDemoted : Nat := 0x601806
/-- Key of REPLICA_PARTIALS (R275). -/
def K.replicaPartials : Nat := 0x601807
/-- Key of OVERLAY_WAIT_HC (R275). -/
def K.overlayWaitHc : Nat := 0x601808
/-- Key of UPDATES_CANCELLED (R275). -/
def K.updatesCancelled : Nat := 0x601809
/-- Key of HOT_ROW_BYTES_IN_USE (R275). -/
def K.hotRowBytesInUse : Nat := 0x60180A
/-- Key of ROUTE_SELECTS (R299). -/
def K.routeSelects : Nat := 0x601901
/-- Key of ROUTES_CANCELLED (R299). -/
def K.routesCancelled : Nat := 0x601902
/-- Key of ROUTE_NAN (R299). -/
def K.routeNan : Nat := 0x601903
/-- Key of TOKENS_CAPPED (R299). -/
def K.tokensCapped : Nat := 0x601904
/-- Key of EXPERTS_SKIPPED (R299). -/
def K.expertsSkipped : Nat := 0x601905
/-- Key of EXCHANGES_CANCELLED (R299). -/
def K.exchangesCancelled : Nat := 0x601906
/-- Key of EXCHANGE_RECORDS_SENT (R299). -/
def K.exchangeRecordsSent : Nat := 0x601907
/-- Key of EXCHANGE_RECORDS_STALE (R299). -/
def K.exchangeRecordsStale : Nat := 0x601908
/-- Key of EXCHANGE_TIMEOUTS (R299). -/
def K.exchangeTimeouts : Nat := 0x601909
/-- Key of EXCHANGE_HOLD_HC (R299). -/
def K.exchangeHoldHc : Nat := 0x60190A
/-- Key of BLOCKS_CORRECTED (R331). -/
def K.blocksCorrected : Nat := 0x601A01
/-- Key of BLOCKS_UNCORRECTABLE (R331). -/
def K.blocksUncorrectable : Nat := 0x601A02
/-- Key of BLOCKS_RECONSTRUCTED (R331). -/
def K.blocksReconstructed : Nat := 0x601A03
/-- Key of REQUESTS_UNAVAILABLE (R331). -/
def K.requestsUnavailable : Nat := 0x601A04
/-- Key of PPR_REQUESTS (R331). -/
def K.pprRequests : Nat := 0x601A05
/-- Key of PAGES_RETIRED (R331). -/
def K.pagesRetired : Nat := 0x601A06
/-- Key of SCRUB_PASSES (R331). -/
def K.scrubPasses : Nat := 0x601A07
/-- Key of MEM_LATE_DROPPED (R331). -/
def K.memLateDropped : Nat := 0x601A08
/-- Key of MEM_STALE_DROPPED (R331). -/
def K.memStaleDropped : Nat := 0x601A09
/-- Key of MEM_WRITE_ERRORS (R331). -/
def K.memWriteErrors : Nat := 0x601A0A
/-- Key of OFFLINE_REQUESTS_WAITING (R331). -/
def K.offlineRequestsWaiting : Nat := 0x601A0B
/-- Key of REBUILD_BLOCKS (R331). -/
def K.rebuildBlocks : Nat := 0x601A0C
/-- Key of FLITS_SENT (R362). -/
def K.flitsSent : Nat := 0x601B01
/-- Key of FEC_SYMBOLS_CORRECTED (R362). -/
def K.fecSymbolsCorrected : Nat := 0x601B02
/-- Key of FEC_CODEWORDS_FAILED (R362). -/
def K.fecCodewordsFailed : Nat := 0x601B03
/-- Key of FLITS_DISCARDED (R362). -/
def K.flitsDiscarded : Nat := 0x601B04
/-- Key of FLITS_REPLAYED (R362). -/
def K.flitsReplayed : Nat := 0x601B05
/-- Key of FLITS_DROPPED (R362). -/
def K.flitsDropped : Nat := 0x601B06
/-- Key of DUPLICATES_DROPPED (R362). -/
def K.duplicatesDropped : Nat := 0x601B07
/-- Key of LINK_TRAIN_FAILS (R362). -/
def K.linkTrainFails : Nat := 0x601B08
/-- Key of SOLDER_INJECTIONS (R362). -/
def K.solderInjections : Nat := 0x601B09
/-- Key of STREAM_STALE (R362). -/
def K.streamStale : Nat := 0x601B0A
/-- Key of START_MISSED (R362). -/
def K.startMissed : Nat := 0x601B0B
/-- Key of REPLAY_ENTRIES (R389). -/
def K.replayEntries : Nat := 0x601C01
/-- Key of REPLAY_LOG_WAIT_HC (R389). -/
def K.replayLogWaitHc : Nat := 0x601C02
/-- Key of REPLAY_HOLD_HC (R389). -/
def K.replayHoldHc : Nat := 0x601C03
/-- Key of RUN_DIGESTS_WRITTEN (R389). -/
def K.runDigestsWritten : Nat := 0x601C04
/-- Key of RUN_DIGESTS_INCOMPLETE (R389). -/
def K.runDigestsIncomplete : Nat := 0x601C05
/-- Key of TASK_WATCHDOG_EXPIRIES (R422). -/
def K.taskWatchdogExpiries : Nat := 0x601D01
/-- Key of COMPLETIONS_LATE_DROPPED (R422). -/
def K.completionsLateDropped : Nat := 0x601D02
/-- Key of TEARDOWNS (R422). -/
def K.teardowns : Nat := 0x601D03
/-- Key of REQUESTS_ENDED_BY_TEARDOWN (R422). -/
def K.requestsEndedByTeardown : Nat := 0x601D04
/-- Key of STALE_WRITES_DROPPED (R422). -/
def K.staleWritesDropped : Nat := 0x601D05
/-- Key of SUSPECT_REPLAYS (R422). -/
def K.suspectReplays : Nat := 0x601D06
/-- Key of RESETS (R422). -/
def K.resets : Nat := 0x601D07
/-- Key of NIGHT_FLITS_DROPPED (R422). -/
def K.nightFlitsDropped : Nat := 0x601D08
/-- Key of DUMPS_SKIPPED (R422). -/
def K.dumpsSkipped : Nat := 0x601D09
/-- Key of THROTTLE_HC (R445). -/
def K.throttleHc : Nat := 0x601E01
/-- Key of CLOCK_LEVEL_CHANGES (R445). -/
def K.clockLevelChanges : Nat := 0x601E02
/-- Key of SELFTESTS_RUN (R445). -/
def K.selftestsRun : Nat := 0x601E03
/-- Key of SELFTESTS_REFUSED (R445). -/
def K.selftestsRefused : Nat := 0x601E04
/-- Key of WIPE_ON_DEMAND_CHUNKS (R445). -/
def K.wipeOnDemandChunks : Nat := 0x601E05
/-- Key of DICT_REQUESTS (R471). -/
def K.dictRequests : Nat := 0x601F01
/-- Key of DICT_REFUSED (R471). -/
def K.dictRefused : Nat := 0x601F02
/-- Key of MCTP_PACKETS_DISCARDED (R471). -/
def K.mctpPacketsDiscarded : Nat := 0x601F03
/-- Key of DICT_WINDOW_COLLISIONS (R471). -/
def K.dictWindowCollisions : Nat := 0x601F04
/-- Key of AUTH_FAILURES_TOTAL (R471). -/
def K.authFailuresTotal : Nat := 0x601F05
/-- Key of BRASS_RECORDS (R485). -/
def K.brassRecords : Nat := 0x602001
/-- Key of BRASS_WORDS_DROPPED (R485). -/
def K.brassWordsDropped : Nat := 0x602002
/-- Key of EVENT_LOG_WORDS_DROPPED (R485). -/
def K.eventLogWordsDropped : Nat := 0x602003
/-- Key of ALARMS_RAISED (R485). -/
def K.alarmsRaised : Nat := 0x602004
/-- Key of ALARM_LATCH (R485). -/
def K.alarmLatch : Nat := 0x610000
/-- Key of SELFTEST_REQUEST (R445). -/
def K.selftestRequest : Nat := 0x700001
/-- Key of SELFTEST_STATE (R445). -/
def K.selftestState : Nat := 0x700002
/-- Key of SELFTEST_RESULT (R445). -/
def K.selftestResult : Nat := 0x700003

/-- Rows 0 to 39 of the directory. -/
def objRows0 : List ObjDesc :=
  [
    ⟨0x100000, 8, false, 0, 15, 3, 0, false, 1, 16, 888772474288272009543, 0, 340282366920938463463374607431768211455, 1, 0⟩,
    ⟨0x100100, 3, false, 0, 15, 3, 0, false, 1, 4, 131072, 0, 4294967295, 1, 0⟩,
    ⟨0x100200, 3, false, 0, 15, 3, 0, false, 1, 4, 1179210576, 0, 4294967295, 1, 0⟩,
    ⟨0x101001, 1, false, 0, 15, 3, 0, false, 1, 1, 64, 0, 255, 1, 0⟩,
    ⟨0x101002, 1, false, 0, 15, 3, 0, false, 1, 1, 24, 0, 255, 1, 0⟩,
    ⟨0x101003, 1, false, 0, 15, 3, 0, false, 1, 1, 16, 0, 255, 1, 0⟩,
    ⟨0x102000, 7, true, 0, 15, 3, 0, false, 364, 16, 0, 0, 340282366920938463463374607431768211455, 1, 0⟩,
    ⟨0x102100, 2, false, 0, 15, 3, 0, false, 1, 2, 0, 0, 65535, 1, 0⟩,
    ⟨0x110001, 1, false, 0, 15, 3, 0, false, 1, 1, 0, 0, 255, 1, 0⟩,
    ⟨0x110002, 3, false, 0, 15, 3, 0, false, 1, 4, 0, 0, 4294967295, 1, 0⟩,
    ⟨0x110003, 1, false, 0, 15, 3, 0, false, 1, 1, 0, 0, 255, 1, 0⟩,
    ⟨0x110004, 1, false, 0, 15, 3, 0, false, 1, 1, 0, 0, 255, 1, 0⟩,
    ⟨0x120001, 1, false, 0, 15, 3, 0, false, 1, 1, 0, 0, 255, 1, 0⟩,
    ⟨0x120002, 7, false, 0, 15, 3, 0, false, 1, 16, 0, 0, 340282366920938463463374607431768211455, 1, 0⟩,
    ⟨0x120003, 7, false, 0, 15, 3, 0, false, 1, 96, 0, 0, 2 ^ 768 - 1, 1, 0⟩,
    ⟨0x120004, 7, false, 2, 1, 0, 0, true, 1, 96, 0, 0, 2 ^ 768 - 1, 1, 0⟩,
    ⟨0x120101, 1, false, 1, 15, 0, 0, false, 1, 1, 0, 0, 2, 1, 0⟩,
    ⟨0x120102, 7, false, 0, 14, 3, 0, true, 1, 48, 0, 0, 2 ^ 384 - 1, 1, 0⟩,
    ⟨0x120103, 7, false, 2, 14, 0, 0, true, 1, 128, 0, 0, 2 ^ 1024 - 1, 1, 0⟩,
    ⟨0x120104, 1, false, 0, 15, 3, 0, false, 1, 1, 0, 0, 255, 1, 0⟩,
    ⟨0x120105, 1, false, 0, 15, 3, 0, false, 1, 1, 0, 0, 255, 1, 0⟩,
    ⟨0x120106, 2, false, 0, 15, 3, 0, false, 1, 2, 0, 0, 65535, 1, 0⟩,
    ⟨0x120201, 3, false, 1, 15, 0, 0, false, 1, 4, 0, 0, 523264, 1024, 0⟩,
    ⟨0x120202, 7, false, 2, 15, 0, 0, false, 1, 1024, 0, 0, 2 ^ 8192 - 1, 1, 0⟩,
    ⟨0x120203, 1, false, 2, 15, 0, 0, false, 1, 1, 0, 1, 1, 1, 0⟩,
    ⟨0x120204, 1, false, 0, 15, 3, 0, false, 1, 1, 0, 0, 255, 1, 0⟩,
    ⟨0x120205, 1, false, 0, 15, 3, 0, false, 1, 1, 0, 0, 255, 1, 0⟩,
    ⟨0x120206, 7, false, 0, 15, 3, 0, false, 1, 48, 0, 0, 2 ^ 384 - 1, 1, 0⟩,
    ⟨0x120301, 4, false, 1, 15, 0, 2, false, 1, 8, 0, 0, 18446744073709551615, 64, 0⟩,
    ⟨0x120302, 7, false, 1, 15, 0, 2, false, 1, 64, 0, 0, 2 ^ 512 - 1, 1, 0⟩,
    ⟨0x200001, 1, false, 3, 6, 2, 0, false, 1, 1, 0, 0, 2, 1, 0⟩,
    ⟨0x200002, 3, false, 1, 6, 1, 0, false, 1, 4, 250, 16, 16000, 1, 0⟩,
    ⟨0x200003, 4, false, 0, 15, 3, 0, false, 1, 8, 0, 0, 18446744073709551615, 1, 0⟩,
    ⟨0x200004, 2, false, 3, 6, 2, 0, false, 1, 2, 0, 0, 4095, 1, 0⟩,
    ⟨0x200005, 3, false, 1, 6, 1, 0, false, 1, 4, 1000, 10, 1000000, 1, 0⟩,
    ⟨0x200100, 3, true, 1, 6, 1, 0, false, 16, 4, 4294967295, 0, 4294967295, 1, 0⟩,
    ⟨0x200201, 1, false, 1, 6, 1, 0, false, 1, 1, 80, 10, 100, 1, 0⟩,
    ⟨0x200202, 2, false, 1, 6, 1, 0, false, 1, 2, 4096, 1, 6144, 1, 0⟩,
    ⟨0x200203, 2, false, 1, 6, 1, 0, false, 1, 2, 1024, 1, 1024, 1, 0⟩,
    ⟨0x210000, 2, true, 1, 6, 1, 0, false, 256, 2, 256, 1, 65535, 1, 0⟩]

/-- Rows 40 to 79 of the directory. -/
def objRows1 : List ObjDesc :=
  [
    ⟨0x210100, 4, true, 0, 15, 3, 0, false, 256, 8, 0, 0, 18446744073709551615, 1, 3⟩,
    ⟨0x210200, 4, true, 0, 15, 3, 0, false, 256, 8, 0, 0, 18446744073709551615, 1, 3⟩,
    ⟨0x210300, 7, true, 0, 15, 3, 0, false, 4096, 16, 0, 0, 340282366920938463463374607431768211455, 1, 3⟩,
    ⟨0x211000, 2, true, 3, 6, 2, 0, false, 64, 2, 256, 0, 65535, 1, 0⟩,
    ⟨0x211100, 1, true, 0, 15, 3, 0, false, 64, 1, 0, 0, 255, 1, 0⟩,
    ⟨0x212000, 1, true, 0, 15, 3, 0, false, 768, 1, 0, 0, 255, 1, 0⟩,
    ⟨0x212100, 1, true, 0, 15, 3, 0, false, 768, 1, 0, 0, 255, 1, 0⟩,
    ⟨0x212200, 1, true, 0, 15, 3, 0, false, 768, 1, 0, 0, 255, 1, 0⟩,
    ⟨0x212300, 1, true, 0, 15, 3, 0, false, 768, 1, 0, 0, 255, 1, 0⟩,
    ⟨0x212400, 1, true, 0, 15, 3, 0, false, 768, 1, 0, 0, 255, 1, 0⟩,
    ⟨0x212500, 1, true, 0, 15, 3, 0, false, 768, 1, 0, 0, 255, 1, 0⟩,
    ⟨0x212600, 1, true, 0, 15, 3, 0, false, 768, 1, 0, 0, 255, 1, 0⟩,
    ⟨0x212700, 1, true, 0, 15, 3, 0, false, 768, 1, 0, 0, 255, 1, 0⟩,
    ⟨0x212800, 1, true, 0, 15, 3, 0, false, 768, 1, 0, 0, 255, 1, 0⟩,
    ⟨0x212900, 1, true, 0, 15, 3, 0, false, 768, 1, 0, 0, 255, 1, 0⟩,
    ⟨0x212A00, 1, true, 0, 15, 3, 0, false, 768, 1, 0, 0, 255, 1, 0⟩,
    ⟨0x212B00, 1, true, 0, 15, 3, 0, false, 768, 1, 0, 0, 255, 1, 0⟩,
    ⟨0x212C00, 1, true, 0, 15, 3, 0, false, 768, 1, 0, 0, 255, 1, 0⟩,
    ⟨0x212D00, 1, true, 0, 15, 3, 0, false, 768, 1, 0, 0, 255, 1, 0⟩,
    ⟨0x212E00, 1, true, 0, 15, 3, 0, false, 768, 1, 0, 0, 255, 1, 0⟩,
    ⟨0x212F00, 1, true, 0, 15, 3, 0, false, 768, 1, 0, 0, 255, 1, 0⟩,
    ⟨0x213000, 2, false, 1, 6, 1, 0, false, 1, 2, 0, 0, 65535, 1, 0⟩,
    ⟨0x213100, 3, true, 3, 6, 2, 0, false, 12, 4, 20000, 100, 1000000, 1, 0⟩,
    ⟨0x213200, 1, false, 2, 6, 0, 0, false, 1, 1, 0, 0, 63, 1, 0⟩,
    ⟨0x218001, 4, false, 1, 6, 0, 0, false, 1, 8, 0, 0, 18446744073709551615, 64, 0⟩,
    ⟨0x218002, 1, false, 1, 6, 0, 0, false, 1, 1, 0, 0, 255, 1, 0⟩,
    ⟨0x218003, 1, false, 1, 6, 0, 0, false, 1, 1, 0, 0, 15, 1, 0⟩,
    ⟨0x218004, 1, false, 2, 6, 0, 0, false, 1, 1, 0, 1, 2, 1, 0⟩,
    ⟨0x218005, 3, false, 0, 6, 3, 0, false, 1, 4, 0, 0, 4294967295, 1, 0⟩,
    ⟨0x218100, 7, true, 0, 15, 3, 0, false, 256, 32, 0, 0, 2 ^ 256 - 1, 1, 0⟩,
    ⟨0x220001, 3, false, 0, 15, 3, 0, false, 1, 4, 0, 0, 4294967295, 1, 0⟩,
    ⟨0x220002, 3, false, 0, 15, 3, 0, false, 1, 4, 32768, 0, 4294967295, 1, 0⟩,
    ⟨0x220003, 2, false, 0, 15, 3, 0, false, 1, 2, 0, 0, 65535, 1, 0⟩,
    ⟨0x220101, 3, false, 1, 6, 0, 0, false, 1, 4, 0, 0, 1048575, 1, 0⟩,
    ⟨0x220102, 7, false, 0, 6, 3, 0, false, 1, 16, 0, 0, 340282366920938463463374607431768211455, 1, 0⟩,
    ⟨0x221000, 7, true, 3, 6, 2, 0, false, 16384, 16, 0, 0, 340282366920938463463374607431768211455, 1, 0⟩,
    ⟨0x221100, 3, false, 2, 6, 0, 0, false, 1, 4, 0, 0, 4294967295, 1, 0⟩,
    ⟨0x221200, 2, true, 1, 6, 0, 0, false, 2048, 2, 0, 0, 65535, 1, 0⟩,
    ⟨0x221300, 2, true, 1, 6, 0, 0, false, 4096, 2, 0, 0, 65535, 1, 0⟩,
    ⟨0x230001, 3, false, 1, 6, 0, 0, false, 1, 4, 0, 0, 4294967295, 1, 0⟩]

/-- Rows 80 to 119 of the directory. -/
def objRows2 : List ObjDesc :=
  [
    ⟨0x230002, 7, false, 2, 6, 0, 0, false, 1, 16, 0, 0, 340282366920938463463374607431768211455, 1, 0⟩,
    ⟨0x230003, 1, false, 2, 6, 0, 0, false, 1, 1, 0, 1, 1, 1, 0⟩,
    ⟨0x230004, 7, false, 0, 6, 3, 0, false, 1, 16, 0, 0, 340282366920938463463374607431768211455, 1, 0⟩,
    ⟨0x230005, 7, false, 0, 6, 3, 0, false, 1, 16, 0, 0, 340282366920938463463374607431768211455, 1, 0⟩,
    ⟨0x230006, 3, false, 0, 15, 3, 0, false, 1, 4, 0, 0, 4294967295, 1, 0⟩,
    ⟨0x230100, 3, true, 3, 6, 2, 0, false, 16384, 4, 0, 0, 4294967295, 1, 0⟩,
    ⟨0x240000, 3, true, 3, 6, 2, 0, false, 64, 4, 0, 0, 4294967295, 1, 0⟩,
    ⟨0x240100, 3, true, 1, 6, 1, 0, false, 16, 4, 4294967295, 0, 4294967295, 1, 0⟩,
    ⟨0x240200, 2, false, 1, 6, 1, 0, false, 1, 2, 65535, 0, 65535, 1, 0⟩,
    ⟨0x240300, 2, false, 1, 6, 1, 0, false, 1, 2, 800, 0, 65535, 1, 0⟩,
    ⟨0x240400, 3, true, 3, 6, 2, 0, false, 12, 4, 0, 0, 16777216, 256, 0⟩,
    ⟨0x240500, 7, true, 3, 6, 2, 0, false, 16, 16, 0, 0, 340282366920938463463374607431768211455, 1, 0⟩,
    ⟨0x300001, 4, false, 3, 6, 2, 0, false, 1, 8, 0, 0, 18446744073709551615, 64, 0⟩,
    ⟨0x300002, 1, false, 1, 6, 1, 0, false, 1, 1, 10, 0, 90, 1, 0⟩,
    ⟨0x300003, 3, false, 1, 6, 1, 0, false, 1, 4, 2000, 100, 1000000, 1, 0⟩,
    ⟨0x300101, 2, false, 1, 6, 0, 0, false, 1, 2, 0, 0, 4095, 1, 0⟩,
    ⟨0x300102, 1, false, 2, 6, 0, 0, false, 1, 1, 0, 1, 2, 1, 0⟩,
    ⟨0x300103, 3, false, 0, 6, 3, 0, false, 1, 4, 0, 0, 4294967295, 1, 0⟩,
    ⟨0x300200, 1, true, 0, 15, 3, 0, false, 4096, 1, 0, 0, 255, 1, 0⟩,
    ⟨0x301001, 2, false, 2, 6, 0, 0, false, 1, 2, 0, 0, 4095, 1, 0⟩,
    ⟨0x301100, 7, true, 3, 6, 2, 0, false, 16, 16, 0, 0, 340282366920938463463374607431768211455, 1, 0⟩,
    ⟨0x301201, 4, false, 3, 6, 2, 0, false, 1, 8, 0, 0, 18446744073709551615, 64, 0⟩,
    ⟨0x301202, 1, false, 3, 6, 2, 0, false, 1, 1, 20, 10, 28, 1, 0⟩,
    ⟨0x301203, 4, false, 3, 6, 2, 0, false, 1, 8, 0, 0, 18446744073709551615, 1024, 0⟩,
    ⟨0x301301, 0, false, 1, 6, 1, 0, false, 1, 1, 1, 0, 1, 1, 0⟩,
    ⟨0x301302, 1, false, 1, 6, 1, 0, false, 1, 1, 8, 1, 255, 1, 0⟩,
    ⟨0x301303, 2, false, 1, 6, 1, 0, false, 1, 2, 64, 1, 65535, 1, 0⟩,
    ⟨0x301304, 2, false, 1, 6, 1, 0, false, 1, 2, 64, 1, 65535, 1, 0⟩,
    ⟨0x301305, 1, false, 1, 6, 1, 0, false, 1, 1, 4, 0, 64, 1, 0⟩,
    ⟨0x301306, 0, false, 1, 6, 1, 0, false, 1, 1, 1, 0, 1, 1, 0⟩,
    ⟨0x301401, 7, false, 0, 6, 3, 0, false, 1, 32, 0, 0, 2 ^ 256 - 1, 1, 0⟩,
    ⟨0x301402, 7, false, 0, 15, 3, 0, false, 1, 64, 0, 0, 2 ^ 512 - 1, 1, 0⟩,
    ⟨0x340001, 3, false, 1, 6, 1, 0, false, 1, 4, 2000, 100, 1000000, 1, 0⟩,
    ⟨0x340002, 1, false, 0, 15, 3, 0, false, 1, 1, 0, 0, 255, 1, 0⟩,
    ⟨0x340100, 3, true, 0, 15, 3, 0, false, 256, 4, 0, 0, 4294967295, 1, 0⟩,
    ⟨0x400001, 1, false, 3, 6, 2, 0, false, 1, 1, 0, 0, 255, 1, 0⟩,
    ⟨0x400002, 3, false, 3, 6, 2, 0, false, 1, 4, 22058823, 2048, 31580641, 1, 0⟩,
    ⟨0x400003, 3, false, 1, 6, 1, 0, false, 1, 4, 200, 10, 100000, 1, 0⟩,
    ⟨0x400004, 1, false, 1, 6, 1, 0, false, 1, 1, 25, 1, 100, 1, 0⟩,
    ⟨0x400005, 2, false, 1, 6, 1, 0, false, 1, 2, 24, 0, 8760, 1, 0⟩]

/-- Rows 120 to 159 of the directory. -/
def objRows3 : List ObjDesc :=
  [
    ⟨0x400006, 0, false, 1, 6, 1, 0, false, 1, 1, 1, 0, 1, 1, 0⟩,
    ⟨0x401000, 1, true, 0, 15, 3, 0, false, 24, 1, 0, 0, 255, 1, 0⟩,
    ⟨0x401100, 2, false, 2, 6, 0, 0, false, 1, 2, 0, 0, 65535, 1, 0⟩,
    ⟨0x401200, 3, true, 0, 15, 3, 0, false, 4, 4, 0, 0, 4294967295, 1, 0⟩,
    ⟨0x402000, 4, true, 3, 6, 2, 0, false, 1024, 8, 0, 0, 18446744073709551615, 1, 0⟩,
    ⟨0x402100, 4, true, 3, 6, 2, 0, false, 1024, 8, 0, 0, 18446744073709551615, 1, 0⟩,
    ⟨0x402200, 4, true, 3, 6, 2, 0, false, 1024, 8, 0, 0, 18446744073709551615, 1, 0⟩,
    ⟨0x402300, 4, true, 3, 6, 2, 0, false, 1024, 8, 0, 0, 18446744073709551615, 1, 0⟩,
    ⟨0x402400, 4, true, 3, 6, 2, 0, false, 1024, 8, 0, 0, 18446744073709551615, 1, 0⟩,
    ⟨0x402500, 4, true, 3, 6, 2, 0, false, 1024, 8, 0, 0, 18446744073709551615, 1, 0⟩,
    ⟨0x402600, 4, true, 3, 6, 2, 0, false, 1024, 8, 0, 0, 18446744073709551615, 1, 0⟩,
    ⟨0x402700, 4, true, 3, 6, 2, 0, false, 1024, 8, 0, 0, 18446744073709551615, 1, 0⟩,
    ⟨0x402800, 4, true, 3, 6, 2, 0, false, 1024, 8, 0, 0, 18446744073709551615, 1, 0⟩,
    ⟨0x402900, 4, true, 3, 6, 2, 0, false, 1024, 8, 0, 0, 18446744073709551615, 1, 0⟩,
    ⟨0x402A00, 4, true, 3, 6, 2, 0, false, 1024, 8, 0, 0, 18446744073709551615, 1, 0⟩,
    ⟨0x402B00, 4, true, 3, 6, 2, 0, false, 1024, 8, 0, 0, 18446744073709551615, 1, 0⟩,
    ⟨0x402C00, 4, true, 3, 6, 2, 0, false, 1024, 8, 0, 0, 18446744073709551615, 1, 0⟩,
    ⟨0x402D00, 4, true, 3, 6, 2, 0, false, 1024, 8, 0, 0, 18446744073709551615, 1, 0⟩,
    ⟨0x402E00, 4, true, 3, 6, 2, 0, false, 1024, 8, 0, 0, 18446744073709551615, 1, 0⟩,
    ⟨0x402F00, 4, true, 3, 6, 2, 0, false, 1024, 8, 0, 0, 18446744073709551615, 1, 0⟩,
    ⟨0x403000, 4, true, 3, 6, 2, 0, false, 1024, 8, 0, 0, 18446744073709551615, 1, 0⟩,
    ⟨0x403100, 4, true, 3, 6, 2, 0, false, 1024, 8, 0, 0, 18446744073709551615, 1, 0⟩,
    ⟨0x403200, 4, true, 3, 6, 2, 0, false, 1024, 8, 0, 0, 18446744073709551615, 1, 0⟩,
    ⟨0x403300, 4, true, 3, 6, 2, 0, false, 1024, 8, 0, 0, 18446744073709551615, 1, 0⟩,
    ⟨0x403400, 4, true, 3, 6, 2, 0, false, 1024, 8, 0, 0, 18446744073709551615, 1, 0⟩,
    ⟨0x403500, 4, true, 3, 6, 2, 0, false, 1024, 8, 0, 0, 18446744073709551615, 1, 0⟩,
    ⟨0x403600, 4, true, 3, 6, 2, 0, false, 1024, 8, 0, 0, 18446744073709551615, 1, 0⟩,
    ⟨0x403700, 4, true, 3, 6, 2, 0, false, 1024, 8, 0, 0, 18446744073709551615, 1, 0⟩,
    ⟨0x440000, 2, false, 1, 6, 0, 0, false, 1, 2, 65535, 0, 65535, 1, 0⟩,
    ⟨0x440100, 1, true, 0, 15, 3, 0, false, 16, 1, 0, 0, 255, 1, 0⟩,
    ⟨0x440200, 7, true, 0, 15, 3, 0, false, 16, 64, 0, 0, 2 ^ 512 - 1, 1, 0⟩,
    ⟨0x440300, 3, true, 0, 15, 3, 0, false, 16, 4, 0, 0, 4294967295, 1, 0⟩,
    ⟨0x440400, 2, true, 1, 6, 0, 0, false, 16, 2, 65535, 1, 65535, 1, 0⟩,
    ⟨0x440500, 2, false, 3, 6, 2, 0, false, 1, 2, 0, 0, 65535, 1, 0⟩,
    ⟨0x440600, 2, false, 1, 6, 1, 0, false, 1, 2, 0, 0, 65535, 1, 0⟩,
    ⟨0x440701, 3, false, 1, 6, 1, 0, false, 1, 4, 4000, 500, 1000000, 1, 0⟩,
    ⟨0x440702, 1, false, 1, 6, 1, 0, false, 1, 1, 16, 2, 255, 1, 0⟩,
    ⟨0x440703, 3, false, 1, 6, 1, 0, false, 1, 4, 5000, 1000, 1000000, 1, 0⟩,
    ⟨0x440704, 2, false, 1, 6, 1, 0, false, 1, 2, 4095, 1, 4095, 1, 0⟩,
    ⟨0x440705, 1, false, 3, 6, 2, 0, false, 1, 1, 0, 0, 3, 1, 0⟩]

/-- Rows 160 to 199 of the directory. -/
def objRows4 : List ObjDesc :=
  [
    ⟨0x440800, 2, false, 3, 6, 2, 0, false, 1, 2, 0, 0, 4095, 1, 0⟩,
    ⟨0x441000, 2, true, 1, 6, 0, 0, false, 4096, 2, 0, 0, 65535, 1, 0⟩,
    ⟨0x442000, 7, false, 2, 6, 0, 0, false, 1, 16, 0, 0, 340282366920938463463374607431768211455, 1, 0⟩,
    ⟨0x443001, 7, false, 1, 15, 0, 0, false, 1, 16, 0, 0, 340282366920938463463374607431768211455, 1, 0⟩,
    ⟨0x443002, 4, false, 1, 15, 0, 0, false, 1, 8, 0, 0, 18446744073709551615, 1, 0⟩,
    ⟨0x443003, 1, false, 1, 15, 0, 0, false, 1, 1, 0, 0, 1, 1, 0⟩,
    ⟨0x500001, 1, false, 1, 6, 1, 0, false, 1, 1, 0, 0, 2, 1, 0⟩,
    ⟨0x500002, 4, false, 3, 6, 2, 0, false, 1, 8, 0, 0, 18446744073709551615, 4096, 0⟩,
    ⟨0x500003, 1, false, 3, 6, 2, 0, false, 1, 1, 20, 10, 30, 1, 0⟩,
    ⟨0x500004, 3, false, 1, 6, 0, 0, false, 1, 4, 0, 0, 4294967295, 1, 0⟩,
    ⟨0x500005, 3, false, 1, 6, 0, 0, false, 1, 4, 0, 0, 4294967295, 1, 0⟩,
    ⟨0x500006, 1, false, 0, 15, 3, 0, false, 1, 1, 0, 0, 255, 1, 0⟩,
    ⟨0x500007, 7, false, 0, 6, 3, 0, false, 1, 64, 0, 0, 2 ^ 512 - 1, 1, 0⟩,
    ⟨0x500008, 0, false, 1, 6, 1, 0, false, 1, 1, 0, 0, 1, 1, 0⟩,
    ⟨0x500100, 2, false, 1, 6, 1, 0, false, 1, 2, 1, 1, 4096, 1, 0⟩,
    ⟨0x500200, 7, false, 1, 6, 1, 0, false, 1, 512, 0, 0, 2 ^ 4096 - 1, 1, 0⟩,
    ⟨0x500301, 7, false, 2, 15, 0, 0, false, 1, 32, 0, 0, 2 ^ 256 - 1, 1, 0⟩,
    ⟨0x500302, 4, false, 0, 15, 3, 0, false, 1, 8, 0, 0, 18446744073709551615, 1, 0⟩,
    ⟨0x540001, 1, false, 1, 6, 1, 0, false, 1, 1, 20, 5, 20, 1, 0⟩,
    ⟨0x540002, 3, false, 1, 6, 1, 0, false, 1, 4, 500, 50, 100000, 1, 0⟩,
    ⟨0x540003, 1, false, 1, 6, 1, 0, false, 1, 1, 3, 1, 255, 1, 0⟩,
    ⟨0x540004, 1, false, 1, 6, 1, 0, false, 1, 1, 3, 1, 255, 1, 0⟩,
    ⟨0x540005, 3, false, 1, 6, 1, 0, false, 1, 4, 600, 1, 86400, 1, 0⟩,
    ⟨0x540006, 2, false, 1, 6, 1, 0, false, 1, 2, 100, 10, 10000, 1, 0⟩,
    ⟨0x540007, 1, false, 2, 15, 0, 0, false, 1, 1, 0, 0, 255, 1, 0⟩,
    ⟨0x540100, 3, false, 2, 6, 0, 0, false, 1, 4, 0, 0, 4294967295, 1, 0⟩,
    ⟨0x540200, 2, false, 0, 15, 3, 0, false, 1, 2, 28672, 0, 65535, 1, 0⟩,
    ⟨0x540300, 4, true, 0, 15, 3, 0, false, 16, 8, 0, 0, 18446744073709551615, 1, 0⟩,
    ⟨0x540400, 1, false, 2, 6, 0, 0, false, 1, 1, 0, 1, 1, 1, 0⟩,
    ⟨0x540500, 7, false, 0, 15, 3, 0, false, 1, 16, 0, 0, 340282366920938463463374607431768211455, 1, 0⟩,
    ⟨0x540601, 7, false, 2, 6, 0, 0, false, 1, 16, 0, 0, 340282366920938463463374607431768211455, 1, 0⟩,
    ⟨0x540602, 0, false, 0, 6, 3, 0, false, 1, 1, 1, 0, 1, 1, 0⟩,
    ⟨0x540701, 2, false, 2, 6, 0, 0, false, 1, 2, 0, 0, 65535, 1, 0⟩,
    ⟨0x540702, 7, false, 0, 15, 3, 0, false, 1, 16, 0, 0, 340282366920938463463374607431768211455, 1, 0⟩,
    ⟨0x541001, 0, false, 1, 15, 1, 0, false, 1, 1, 1, 0, 1, 1, 0⟩,
    ⟨0x541002, 1, false, 2, 15, 0, 0, false, 1, 1, 0, 1, 1, 1, 0⟩,
    ⟨0x541003, 1, false, 0, 15, 3, 0, false, 1, 1, 0, 0, 255, 1, 0⟩,
    ⟨0x541004, 3, false, 1, 15, 1, 0, false, 1, 4, 0, 0, 1048512, 64, 0⟩,
    ⟨0x541005, 7, false, 0, 15, 3, 0, true, 1, 64, 0, 0, 2 ^ 512 - 1, 1, 0⟩,
    ⟨0x541006, 1, false, 2, 15, 0, 0, false, 1, 1, 0, 1, 1, 1, 0⟩]

/-- Rows 200 to 239 of the directory. -/
def objRows5 : List ObjDesc :=
  [
    ⟨0x580001, 1, false, 2, 15, 0, 0, false, 1, 1, 0, 1, 1, 1, 0⟩,
    ⟨0x580002, 1, false, 0, 15, 3, 0, false, 1, 1, 0, 0, 255, 1, 0⟩,
    ⟨0x580101, 1, false, 1, 6, 1, 0, false, 1, 1, 8, 0, 8, 1, 0⟩,
    ⟨0x580102, 1, false, 0, 15, 3, 0, false, 1, 1, 0, 0, 255, 1, 0⟩,
    ⟨0x580103, 3, false, 0, 15, 3, 0, false, 1, 4, 0, 0, 4294967295, 1, 0⟩,
    ⟨0x580201, 1, false, 0, 15, 3, 0, false, 1, 1, 0, 0, 255, 1, 0⟩,
    ⟨0x580202, 1, false, 2, 6, 0, 0, false, 1, 1, 0, 0, 3, 1, 0⟩,
    ⟨0x580203, 1, false, 0, 15, 3, 0, false, 1, 1, 0, 0, 255, 1, 0⟩,
    ⟨0x580204, 1, false, 1, 6, 1, 0, false, 1, 1, 0, 0, 8, 1, 0⟩,
    ⟨0x580205, 1, false, 1, 6, 1, 0, false, 1, 1, 4, 1, 16, 1, 0⟩,
    ⟨0x580206, 2, false, 1, 6, 0, 0, false, 1, 2, 10, 1, 10000, 1, 0⟩,
    ⟨0x580301, 1, false, 1, 6, 1, 0, false, 1, 1, 95, 60, 110, 1, 0⟩,
    ⟨0x580302, 1, false, 1, 6, 1, 0, false, 1, 1, 25, 5, 25, 1, 0⟩,
    ⟨0x580303, 1, false, 1, 6, 1, 0, false, 1, 1, 115, 70, 125, 1, 0⟩,
    ⟨0x580304, 5, true, 0, 15, 3, 0, false, 32, 4, 0, 0, 4294967295, 1, 0⟩,
    ⟨0x580305, 5, true, 0, 15, 3, 0, false, 16, 4, 0, 0, 4294967295, 1, 0⟩,
    ⟨0x580400, 3, true, 0, 15, 3, 0, false, 4, 4, 0, 0, 4294967295, 1, 0⟩,
    ⟨0x600001, 0, false, 1, 15, 1, 1, false, 1, 1, 0, 0, 1, 1, 0⟩,
    ⟨0x600002, 2, false, 1, 15, 0, 0, false, 1, 2, 0, 0, 16383, 1, 0⟩,
    ⟨0x600003, 7, false, 1, 15, 0, 0, false, 1, 32, 115792089237316195417391962986455142349927262275436863409218532285429495889920, 0, 2 ^ 256 - 1, 1, 0⟩,
    ⟨0x600004, 2, false, 1, 15, 0, 0, false, 1, 2, 0, 0, 16383, 1, 0⟩,
    ⟨0x600005, 3, false, 2, 15, 0, 0, false, 1, 4, 0, 0, 4294967295, 1, 0⟩,
    ⟨0x600100, 7, false, 1, 15, 0, 0, false, 1, 16, 0, 0, 340282366920938463463374607431768211455, 1, 0⟩,
    ⟨0x600200, 1, false, 2, 15, 0, 0, false, 1, 1, 0, 0, 127, 1, 0⟩,
    ⟨0x600300, 7, false, 0, 15, 3, 0, false, 1, 16, 0, 0, 340282366920938463463374607431768211455, 1, 0⟩,
    ⟨0x601001, 4, false, 0, 15, 3, 0, false, 1, 8, 0, 0, 18446744073709551615, 1, 2⟩,
    ⟨0x601002, 4, false, 0, 15, 3, 0, false, 1, 8, 0, 0, 18446744073709551615, 1, 2⟩,
    ⟨0x601101, 4, false, 0, 15, 3, 0, false, 1, 8, 0, 0, 18446744073709551615, 1, 2⟩,
    ⟨0x601102, 4, false, 0, 15, 3, 0, false, 1, 8, 0, 0, 18446744073709551615, 1, 2⟩,
    ⟨0x601103, 4, false, 0, 15, 3, 0, false, 1, 8, 0, 0, 18446744073709551615, 1, 2⟩,
    ⟨0x601104, 4, false, 0, 15, 3, 0, false, 1, 8, 0, 0, 18446744073709551615, 1, 2⟩,
    ⟨0x601105, 4, false, 0, 15, 3, 0, false, 1, 8, 0, 0, 18446744073709551615, 1, 2⟩,
    ⟨0x601106, 4, false, 0, 15, 3, 0, false, 1, 8, 0, 0, 18446744073709551615, 1, 2⟩,
    ⟨0x601107, 4, false, 0, 15, 3, 0, false, 1, 8, 0, 0, 18446744073709551615, 1, 2⟩,
    ⟨0x601108, 3, false, 0, 15, 3, 0, false, 1, 4, 0, 0, 4294967295, 1, 0⟩,
    ⟨0x601200, 4, true, 0, 15, 3, 0, false, 4, 8, 0, 0, 18446744073709551615, 1, 2⟩,
    ⟨0x601301, 4, false, 0, 15, 3, 0, false, 1, 8, 0, 0, 18446744073709551615, 1, 2⟩,
    ⟨0x601302, 4, false, 0, 15, 3, 0, false, 1, 8, 0, 0, 18446744073709551615, 1, 2⟩,
    ⟨0x601303, 4, false, 0, 15, 3, 0, false, 1, 8, 0, 0, 18446744073709551615, 1, 2⟩,
    ⟨0x601304, 4, false, 0, 15, 3, 0, false, 1, 8, 0, 0, 18446744073709551615, 1, 2⟩]

/-- Rows 240 to 279 of the directory. -/
def objRows6 : List ObjDesc :=
  [
    ⟨0x601305, 4, false, 0, 15, 3, 0, false, 1, 8, 0, 0, 18446744073709551615, 1, 2⟩,
    ⟨0x601306, 4, false, 0, 15, 3, 0, false, 1, 8, 0, 0, 18446744073709551615, 1, 2⟩,
    ⟨0x601307, 4, false, 0, 15, 3, 0, false, 1, 8, 0, 0, 18446744073709551615, 1, 2⟩,
    ⟨0x601308, 4, false, 0, 15, 3, 0, false, 1, 8, 0, 0, 18446744073709551615, 1, 2⟩,
    ⟨0x601309, 4, false, 0, 15, 3, 0, false, 1, 8, 0, 0, 18446744073709551615, 1, 2⟩,
    ⟨0x60130A, 4, false, 0, 15, 3, 0, false, 1, 8, 0, 0, 18446744073709551615, 1, 2⟩,
    ⟨0x60130B, 3, false, 0, 15, 3, 0, false, 1, 4, 0, 0, 4294967295, 1, 0⟩,
    ⟨0x601401, 4, false, 0, 15, 3, 0, false, 1, 8, 0, 0, 18446744073709551615, 1, 2⟩,
    ⟨0x601402, 4, false, 0, 15, 3, 0, false, 1, 8, 0, 0, 18446744073709551615, 1, 2⟩,
    ⟨0x601403, 4, false, 0, 15, 3, 0, false, 1, 8, 0, 0, 18446744073709551615, 1, 2⟩,
    ⟨0x601404, 4, false, 0, 15, 3, 0, false, 1, 8, 0, 0, 18446744073709551615, 1, 2⟩,
    ⟨0x601405, 4, false, 0, 15, 3, 0, false, 1, 8, 0, 0, 18446744073709551615, 1, 2⟩,
    ⟨0x601406, 4, false, 0, 15, 3, 0, false, 1, 8, 0, 0, 18446744073709551615, 1, 2⟩,
    ⟨0x601407, 4, false, 0, 15, 3, 0, false, 1, 8, 0, 0, 18446744073709551615, 1, 2⟩,
    ⟨0x601408, 4, false, 0, 15, 3, 0, false, 1, 8, 0, 0, 18446744073709551615, 1, 2⟩,
    ⟨0x601409, 4, false, 0, 15, 3, 0, false, 1, 8, 0, 0, 18446744073709551615, 1, 2⟩,
    ⟨0x60140A, 4, false, 0, 15, 3, 0, false, 1, 8, 0, 0, 18446744073709551615, 1, 2⟩,
    ⟨0x60140B, 4, false, 0, 15, 3, 0, false, 1, 8, 0, 0, 18446744073709551615, 1, 2⟩,
    ⟨0x601501, 4, false, 0, 15, 3, 0, false, 1, 8, 0, 0, 18446744073709551615, 1, 2⟩,
    ⟨0x601502, 4, false, 0, 15, 3, 0, false, 1, 8, 0, 0, 18446744073709551615, 1, 2⟩,
    ⟨0x601503, 4, false, 0, 15, 3, 0, false, 1, 8, 0, 0, 18446744073709551615, 1, 2⟩,
    ⟨0x601504, 4, false, 0, 15, 3, 0, false, 1, 8, 0, 0, 18446744073709551615, 1, 2⟩,
    ⟨0x601505, 4, false, 0, 15, 3, 0, false, 1, 8, 0, 0, 18446744073709551615, 1, 2⟩,
    ⟨0x601506, 4, false, 0, 15, 3, 0, false, 1, 8, 0, 0, 18446744073709551615, 1, 2⟩,
    ⟨0x601507, 4, false, 0, 15, 3, 0, false, 1, 8, 0, 0, 18446744073709551615, 1, 2⟩,
    ⟨0x601508, 4, false, 0, 15, 3, 0, false, 1, 8, 0, 0, 18446744073709551615, 1, 2⟩,
    ⟨0x601509, 4, false, 0, 15, 3, 0, false, 1, 8, 0, 0, 18446744073709551615, 1, 2⟩,
    ⟨0x60150A, 4, false, 0, 15, 3, 0, false, 1, 8, 0, 0, 18446744073709551615, 1, 2⟩,
    ⟨0x60150B, 4, false, 0, 15, 3, 0, false, 1, 8, 0, 0, 18446744073709551615, 1, 2⟩,
    ⟨0x601601, 4, false, 0, 15, 3, 0, false, 1, 8, 0, 0, 18446744073709551615, 1, 2⟩,
    ⟨0x601602, 4, false, 0, 15, 3, 0, false, 1, 8, 0, 0, 18446744073709551615, 1, 2⟩,
    ⟨0x601603, 4, false, 0, 15, 3, 0, false, 1, 8, 0, 0, 18446744073709551615, 1, 2⟩,
    ⟨0x601604, 4, false, 0, 15, 3, 0, false, 1, 8, 0, 0, 18446744073709551615, 1, 2⟩,
    ⟨0x601605, 4, false, 0, 15, 3, 0, false, 1, 8, 0, 0, 18446744073709551615, 1, 2⟩,
    ⟨0x601606, 4, false, 0, 15, 3, 0, false, 1, 8, 0, 0, 18446744073709551615, 1, 2⟩,
    ⟨0x601607, 4, false, 0, 15, 3, 0, false, 1, 8, 0, 0, 18446744073709551615, 1, 2⟩,
    ⟨0x601608, 4, false, 0, 15, 3, 0, false, 1, 8, 0, 0, 18446744073709551615, 1, 2⟩,
    ⟨0x601609, 4, false, 0, 15, 3, 0, false, 1, 8, 0, 0, 18446744073709551615, 1, 2⟩,
    ⟨0x601701, 4, false, 0, 15, 3, 0, false, 1, 8, 0, 0, 18446744073709551615, 1, 2⟩,
    ⟨0x601702, 4, false, 0, 15, 3, 0, false, 1, 8, 0, 0, 18446744073709551615, 1, 2⟩]

/-- Rows 280 to 319 of the directory. -/
def objRows7 : List ObjDesc :=
  [
    ⟨0x601703, 4, false, 0, 15, 3, 0, false, 1, 8, 0, 0, 18446744073709551615, 1, 2⟩,
    ⟨0x601704, 4, false, 0, 15, 3, 0, false, 1, 8, 0, 0, 18446744073709551615, 1, 2⟩,
    ⟨0x601705, 4, false, 0, 15, 3, 0, false, 1, 8, 0, 0, 18446744073709551615, 1, 2⟩,
    ⟨0x601706, 4, false, 0, 15, 3, 0, false, 1, 8, 0, 0, 18446744073709551615, 1, 2⟩,
    ⟨0x601707, 4, false, 0, 15, 3, 0, false, 1, 8, 0, 0, 18446744073709551615, 1, 2⟩,
    ⟨0x601708, 4, false, 0, 15, 3, 0, false, 1, 8, 0, 0, 18446744073709551615, 1, 2⟩,
    ⟨0x601709, 4, false, 0, 15, 3, 0, false, 1, 8, 0, 0, 18446744073709551615, 1, 2⟩,
    ⟨0x60170A, 4, false, 0, 15, 3, 0, false, 1, 8, 0, 0, 18446744073709551615, 1, 2⟩,
    ⟨0x60170B, 3, false, 0, 15, 3, 0, false, 1, 4, 0, 0, 4294967295, 1, 0⟩,
    ⟨0x601801, 4, false, 0, 15, 3, 0, false, 1, 8, 0, 0, 18446744073709551615, 1, 2⟩,
    ⟨0x601802, 4, false, 0, 15, 3, 0, false, 1, 8, 0, 0, 18446744073709551615, 1, 2⟩,
    ⟨0x601803, 4, false, 0, 15, 3, 0, false, 1, 8, 0, 0, 18446744073709551615, 1, 2⟩,
    ⟨0x601804, 4, false, 0, 15, 3, 0, false, 1, 8, 0, 0, 18446744073709551615, 1, 2⟩,
    ⟨0x601805, 4, false, 0, 15, 3, 0, false, 1, 8, 0, 0, 18446744073709551615, 1, 2⟩,
    ⟨0x601806, 4, false, 0, 15, 3, 0, false, 1, 8, 0, 0, 18446744073709551615, 1, 2⟩,
    ⟨0x601807, 4, false, 0, 15, 3, 0, false, 1, 8, 0, 0, 18446744073709551615, 1, 2⟩,
    ⟨0x601808, 4, false, 0, 15, 3, 0, false, 1, 8, 0, 0, 18446744073709551615, 1, 2⟩,
    ⟨0x601809, 4, false, 0, 15, 3, 0, false, 1, 8, 0, 0, 18446744073709551615, 1, 2⟩,
    ⟨0x60180A, 3, false, 0, 15, 3, 0, false, 1, 4, 0, 0, 4294967295, 1, 0⟩,
    ⟨0x601901, 4, false, 0, 15, 3, 0, false, 1, 8, 0, 0, 18446744073709551615, 1, 2⟩,
    ⟨0x601902, 4, false, 0, 15, 3, 0, false, 1, 8, 0, 0, 18446744073709551615, 1, 2⟩,
    ⟨0x601903, 4, false, 0, 15, 3, 0, false, 1, 8, 0, 0, 18446744073709551615, 1, 2⟩,
    ⟨0x601904, 4, false, 0, 15, 3, 0, false, 1, 8, 0, 0, 18446744073709551615, 1, 2⟩,
    ⟨0x601905, 4, false, 0, 15, 3, 0, false, 1, 8, 0, 0, 18446744073709551615, 1, 2⟩,
    ⟨0x601906, 4, false, 0, 15, 3, 0, false, 1, 8, 0, 0, 18446744073709551615, 1, 2⟩,
    ⟨0x601907, 4, false, 0, 15, 3, 0, false, 1, 8, 0, 0, 18446744073709551615, 1, 2⟩,
    ⟨0x601908, 4, false, 0, 15, 3, 0, false, 1, 8, 0, 0, 18446744073709551615, 1, 2⟩,
    ⟨0x601909, 4, false, 0, 15, 3, 0, false, 1, 8, 0, 0, 18446744073709551615, 1, 2⟩,
    ⟨0x60190A, 4, false, 0, 15, 3, 0, false, 1, 8, 0, 0, 18446744073709551615, 1, 2⟩,
    ⟨0x601A01, 4, false, 0, 15, 3, 0, false, 1, 8, 0, 0, 18446744073709551615, 1, 2⟩,
    ⟨0x601A02, 4, false, 0, 15, 3, 0, false, 1, 8, 0, 0, 18446744073709551615, 1, 2⟩,
    ⟨0x601A03, 4, false, 0, 15, 3, 0, false, 1, 8, 0, 0, 18446744073709551615, 1, 2⟩,
    ⟨0x601A04, 4, false, 0, 15, 3, 0, false, 1, 8, 0, 0, 18446744073709551615, 1, 2⟩,
    ⟨0x601A05, 4, false, 0, 15, 3, 0, false, 1, 8, 0, 0, 18446744073709551615, 1, 2⟩,
    ⟨0x601A06, 4, false, 0, 15, 3, 0, false, 1, 8, 0, 0, 18446744073709551615, 1, 2⟩,
    ⟨0x601A07, 4, false, 0, 15, 3, 0, false, 1, 8, 0, 0, 18446744073709551615, 1, 2⟩,
    ⟨0x601A08, 4, false, 0, 15, 3, 0, false, 1, 8, 0, 0, 18446744073709551615, 1, 2⟩,
    ⟨0x601A09, 4, false, 0, 15, 3, 0, false, 1, 8, 0, 0, 18446744073709551615, 1, 2⟩,
    ⟨0x601A0A, 4, false, 0, 15, 3, 0, false, 1, 8, 0, 0, 18446744073709551615, 1, 2⟩,
    ⟨0x601A0B, 4, false, 0, 15, 3, 0, false, 1, 8, 0, 0, 18446744073709551615, 1, 2⟩]

/-- Rows 320 to 359 of the directory. -/
def objRows8 : List ObjDesc :=
  [
    ⟨0x601A0C, 4, false, 0, 15, 3, 0, false, 1, 8, 0, 0, 18446744073709551615, 1, 2⟩,
    ⟨0x601B01, 4, true, 0, 15, 3, 0, false, 16, 8, 0, 0, 18446744073709551615, 1, 2⟩,
    ⟨0x601B02, 4, true, 0, 15, 3, 0, false, 16, 8, 0, 0, 18446744073709551615, 1, 2⟩,
    ⟨0x601B03, 4, true, 0, 15, 3, 0, false, 16, 8, 0, 0, 18446744073709551615, 1, 2⟩,
    ⟨0x601B04, 4, true, 0, 15, 3, 0, false, 16, 8, 0, 0, 18446744073709551615, 1, 2⟩,
    ⟨0x601B05, 4, true, 0, 15, 3, 0, false, 16, 8, 0, 0, 18446744073709551615, 1, 2⟩,
    ⟨0x601B06, 4, true, 0, 15, 3, 0, false, 16, 8, 0, 0, 18446744073709551615, 1, 2⟩,
    ⟨0x601B07, 4, true, 0, 15, 3, 0, false, 16, 8, 0, 0, 18446744073709551615, 1, 2⟩,
    ⟨0x601B08, 4, true, 0, 15, 3, 0, false, 16, 8, 0, 0, 18446744073709551615, 1, 2⟩,
    ⟨0x601B09, 4, true, 0, 15, 3, 0, false, 16, 8, 0, 0, 18446744073709551615, 1, 2⟩,
    ⟨0x601B0A, 4, false, 0, 15, 3, 0, false, 1, 8, 0, 0, 18446744073709551615, 1, 2⟩,
    ⟨0x601B0B, 4, false, 0, 15, 3, 0, false, 1, 8, 0, 0, 18446744073709551615, 1, 2⟩,
    ⟨0x601C01, 4, false, 0, 15, 3, 0, false, 1, 8, 0, 0, 18446744073709551615, 1, 2⟩,
    ⟨0x601C02, 4, false, 0, 15, 3, 0, false, 1, 8, 0, 0, 18446744073709551615, 1, 2⟩,
    ⟨0x601C03, 4, false, 0, 15, 3, 0, false, 1, 8, 0, 0, 18446744073709551615, 1, 2⟩,
    ⟨0x601C04, 4, false, 0, 15, 3, 0, false, 1, 8, 0, 0, 18446744073709551615, 1, 2⟩,
    ⟨0x601C05, 4, false, 0, 15, 3, 0, false, 1, 8, 0, 0, 18446744073709551615, 1, 2⟩,
    ⟨0x601D01, 4, false, 0, 15, 3, 0, false, 1, 8, 0, 0, 18446744073709551615, 1, 2⟩,
    ⟨0x601D02, 4, false, 0, 15, 3, 0, false, 1, 8, 0, 0, 18446744073709551615, 1, 2⟩,
    ⟨0x601D03, 4, false, 0, 15, 3, 0, false, 1, 8, 0, 0, 18446744073709551615, 1, 2⟩,
    ⟨0x601D04, 4, false, 0, 15, 3, 0, false, 1, 8, 0, 0, 18446744073709551615, 1, 2⟩,
    ⟨0x601D05, 4, false, 0, 15, 3, 0, false, 1, 8, 0, 0, 18446744073709551615, 1, 2⟩,
    ⟨0x601D06, 4, false, 0, 15, 3, 0, false, 1, 8, 0, 0, 18446744073709551615, 1, 2⟩,
    ⟨0x601D07, 4, true, 0, 15, 3, 0, false, 6, 8, 0, 0, 18446744073709551615, 1, 2⟩,
    ⟨0x601D08, 4, false, 0, 15, 3, 0, false, 1, 8, 0, 0, 18446744073709551615, 1, 2⟩,
    ⟨0x601D09, 4, false, 0, 15, 3, 0, false, 1, 8, 0, 0, 18446744073709551615, 1, 2⟩,
    ⟨0x601E01, 4, false, 0, 15, 3, 0, false, 1, 8, 0, 0, 18446744073709551615, 1, 2⟩,
    ⟨0x601E02, 4, false, 0, 15, 3, 0, false, 1, 8, 0, 0, 18446744073709551615, 1, 2⟩,
    ⟨0x601E03, 4, false, 0, 15, 3, 0, false, 1, 8, 0, 0, 18446744073709551615, 1, 2⟩,
    ⟨0x601E04, 4, false, 0, 15, 3, 0, false, 1, 8, 0, 0, 18446744073709551615, 1, 2⟩,
    ⟨0x601E05, 4, false, 0, 15, 3, 0, false, 1, 8, 0, 0, 18446744073709551615, 1, 2⟩,
    ⟨0x601F01, 4, false, 0, 15, 3, 0, false, 1, 8, 0, 0, 18446744073709551615, 1, 2⟩,
    ⟨0x601F02, 4, false, 0, 15, 3, 0, false, 1, 8, 0, 0, 18446744073709551615, 1, 2⟩,
    ⟨0x601F03, 4, false, 0, 15, 3, 0, false, 1, 8, 0, 0, 18446744073709551615, 1, 2⟩,
    ⟨0x601F04, 4, false, 0, 15, 3, 0, false, 1, 8, 0, 0, 18446744073709551615, 1, 2⟩,
    ⟨0x601F05, 4, false, 0, 15, 3, 0, false, 1, 8, 0, 0, 18446744073709551615, 1, 2⟩,
    ⟨0x602001, 4, false, 0, 15, 3, 0, false, 1, 8, 0, 0, 18446744073709551615, 1, 2⟩,
    ⟨0x602002, 4, false, 0, 15, 3, 0, false, 1, 8, 0, 0, 18446744073709551615, 1, 2⟩,
    ⟨0x602003, 4, false, 0, 15, 3, 0, false, 1, 8, 0, 0, 18446744073709551615, 1, 2⟩,
    ⟨0x602004, 4, false, 0, 15, 3, 0, false, 1, 8, 0, 0, 18446744073709551615, 1, 2⟩]

/-- Rows 360 to 363 of the directory. -/
def objRows9 : List ObjDesc :=
  [
    ⟨0x610000, 7, true, 0, 15, 3, 0, false, 128, 32, 0, 0, 2 ^ 256 - 1, 1, 0⟩,
    ⟨0x700001, 3, false, 2, 6, 0, 0, false, 1, 4, 0, 0, 4294967295, 1, 0⟩,
    ⟨0x700002, 1, false, 0, 15, 3, 0, false, 1, 1, 0, 0, 255, 1, 0⟩,
    ⟨0x700003, 3, false, 0, 15, 3, 0, false, 1, 4, 0, 0, 4294967295, 1, 0⟩]

/-- The directory, in ascending order of INDEX and then SUB (R491). -/
def objRows : List ObjDesc :=
  objRows0 ++ objRows1 ++ objRows2 ++ objRows3 ++ objRows4 ++ objRows5 ++ objRows6 ++ objRows7 ++ objRows8 ++ objRows9

/-- The objects in the directory. -/
def objCount : Nat := 364

/-- The row of an object, if the object exists (R486). -/
def objDesc (key : Nat) : Option ObjDesc := objRows.find? fun r => r.key == key

/-- A directory entry in the layout of R491. -/
def objEntry (r : ObjDesc) : Nat :=
  at' (r.key / 256) 112 16 + at' r.key 104 8 + at' r.ty 100 4 + flag r.array 99 + at' r.access 97 2 + at' r.gate 93 4
  + at' r.effect 91 2 + at' r.debug 89 2 + flag r.mctpOnly 88 + at' r.elements 64 16 + at' r.bytes 48 16

end Sys2Proof.Machine
end

