-- ==== Sys2Proof/Machine/State.lean ====
section
/-! DEFINITION. The state of the hub, one structure per unit, as plain data; every field's default value is its value
at reset, so that State.reset is the state of defaults. Each field's docstring names the rule of spec/ it comes from;
INVENTORY.md lists them with their reset values. -/
namespace Sys2Proof.Machine
open Sys2Proof

/-- Slot states of R69. -/
inductive SlotState where
  | free | reserved | waiting | held | ready | issued | yielded | done
  deriving DecidableEq, Repr

/-- The status codes of R493 that a record of the block can carry. -/
inductive Status where
  | ok | fallback | late | skipped | cancelled | abandoned | timeout | dataUnavailable | dataUncorrectable
  | preempted | queueFull | busy | staleGen
  deriving DecidableEq, Repr

/-- Where an accepted record stands on its way to its result record (R149, R155). -/
inductive HoldPhase where
  | queued | carried | admitted | complete
  deriving DecidableEq, Repr

/-- Progress of an L0 of a context (R402). -/
inductive TearPhase where
  | none | draining | cleanup
  deriving DecidableEq, Repr

/-- Flow states of R148. -/
inductive FlowState where
  | free | joining | joined | suspended | leavePending | leaving
  deriving DecidableEq, Repr

/-- Kinds of carried candidate (R111). -/
inductive CandKind where
  | request | join | rejoin | chained
  deriving DecidableEq, Repr

/-- Producers of a DATA queue (R129, R141). -/
inductive ProducerKind where
  | host | task | link
  deriving DecidableEq, Repr

/-- Sources of a signal command (R164). -/
inductive SigSource where
  | engine (port : Nat) (ctx : Nat) (gen : BitVec 16)
  | hostDma
  | queue (q : Nat)
  | task (slot : Nat)
  | link (port : Nat)
  deriving DecidableEq, Repr

/-- LOC of a version record (R248). -/
inductive Loc where
  | memory | hot | home
  deriving DecidableEq, Repr

/-- What an outstanding memory tag is for (R300, R312, R324). -/
inductive MemOp where
  | read | write | repair | verify
  deriving DecidableEq, Repr

/-- Who asked for a block of device memory (R301, R305). -/
inductive MemSource where
  /-- a read of an engine port, by its number (R501) -/
  | engine (port id : Nat)
  /-- a write of the task in a slot, of an instance (R86, R316) -/
  | task (slot inst : Nat)
  /-- the host DMA port (R505) -/
  | hostDma (tag : Nat)
  /-- a block that the data task in a slot, of an instance, reads (R305) -/
  | data (slot inst : Nat)
  /-- a unit of the hub -/
  | unit
  /-- a remote record being served: its source chip and tag (R239) -/
  | serve (chip tag : Nat)
  /-- the Graph Loader (R61) -/
  | loader
  /-- a member's block read for a reconstruction, by its number (R315) -/
  | recon (id pos : Nat)
  /-- a member's block read for a whole stripe row, by the number of the work (R321, R325, R328) -/
  | row (id pos : Nat)
  deriving DecidableEq, Repr

/-- Progress of a page repair or retirement (R324, R325): the last one when every block of the page has been written. -/
inductive PagePhase where
  | repairWanted | repairSent | restoring | restored
  deriving DecidableEq, Repr

/-- What a whole stripe row is read for (R321, R325, R328). -/
inductive RowKind where
  /-- scrubbing -/
  | scrub
  /-- the rebuild of a port -/
  | rebuild (port : Nat)
  /-- the restore or retirement of a port's page -/
  | restore (port : Nat)
  deriving DecidableEq, Repr

/-- Who waits for a flit to enter the replay buffer of the port it leaves through (R340, R342): nobody, the task in a
slot for a WRITE record of its engine port (the flit being the first or the last of the record), a data task, or the
receive buffer of the input port that forwards it. -/
inductive FlitOwner where
  | nobody
  | enginePort (port slot id : Nat) (first last : Bool)
  | task (slot : Nat)
  | transit (port : Nat) (cls : Bool)
  deriving DecidableEq, Repr

/-- Memory port states of R317, and that of a port whose memory is still to be trained, for which R317 has no name
(log 13). -/
inductive MemPortState where
  | untrained | online | draining | offline | lost | rebuilding | absent
  deriving DecidableEq, Repr

/-- Link port states of R350. -/
inductive LinkState where
  | disabled | training | identify | up | down | refused | absent
  deriving DecidableEq, Repr

/-- What Gisar presents on an output port (R497 to R505): the model's record of it, cleared by the next command. -/
inductive Emit where
  /-- an ISSUE_VALID cycle: descriptor and ISSUE_TAG (R67, R85, R210) -/
  | issue (port : Nat) (desc : BitVec 512) (tag : Bool)
  /-- an item on the data-task path (R31) -/
  | dataTask (desc : BitVec 512)
  /-- an RDATA_VALID cycle (R501) -/
  | readData (port tag status : Nat) (data : BitVec 512)
  /-- an MREQ_VALID cycle with the write beat of a WRITE (R300, R503) -/
  | memRequest (port : Nat) (header : BitVec 96) (beat : Option (BitVec 512))
  /-- a CP_RSP_VALID cycle (R504) -/
  | controlResponse (data : BitVec 512)
  /-- an HD_RSP_VALID cycle (R505) -/
  | hostResponse (tag status : Nat) (data : BitVec 512)
  /-- a flit joining the flit stream of a link port (R333, R336); SYMBOLS of Solder inverted in its codeword -/
  | flit (port : Nat) (flit : BitVec 2048) (symbols : Nat)
  /-- a lane word on TX_LANE (R332) -/
  | laneWord (port lane : Nat) (word : BitVec 256)
  /-- an identity block leaving a link port in IDENTIFY (R351) -/
  | identity (port : Nat) (block : BitVec 512)
  /-- bytes the I3C target returns (R451) -/
  | i3cData (bytes : List (BitVec 8))
  /-- the I3C target acknowledges -/
  | i3cAck
  /-- the I3C target answers NACK -/
  | i3cNack
  deriving DecidableEq, Repr

/-- Faults: a command that names something the build does not have. -/
inductive Fault where
  /-- Raised by every command that names a port which the build does not have (R8: such a port does not exist).
  Safe: nothing is concluded about a machine that has no such port. -/
  | noSuchPort
  deriving DecidableEq, Repr

/-- Refusals. -/
inductive Refusal where
  /-- Raised by the dispatcher for a row that has no meaning yet. Safe. -/
  | notModelled (mnemonic : String)
  deriving DecidableEq, Repr

/-- The build parameters, fixed at build (R2, R8). -/
structure Build where
  /-- BUILD_ENGINE_PORTS (R2 00_scope) -/
  enginePorts : Nat := 64
  /-- BUILD_MEMORY_PORTS (R2 00_scope) -/
  memoryPorts : Nat := 24
  /-- BUILD_LINK_PORTS (R2 00_scope) -/
  linkPorts : Nat := 16
  deriving DecidableEq, Repr

/-- Hub time as the model keeps it (R14, R26, R410). -/
structure Clk where
  /-- hub cycles since power-on; the model's own clock, advanced by an idle step (log 2) (R68 03_matching (hub cycle count)) -/
  abs : Nat := 0
  /-- hub cycle within the current tick (R26 01_gisar_hub) -/
  hc : Nat := 0
  /-- real time since power-on in units of 1/(720720 * 100 MHz); the millisecond counter of R410 is units / 72,072,000,000 (R410 14_faults) -/
  units : Nat := 0
  /-- index of the next free value (the MODEL'S OWN field, not the spec's (log 3)) -/
  freeCount : Nat := 0
  deriving DecidableEq, Repr

/-- The tick unit (ch. 4, R100 to R104, R127, R355, R356). -/
structure TickUnit where
  /-- TICK_NUMBER (R104 04_frame_tick) -/
  number : BitVec 64 := 0
  /-- boundaries are being produced (R356 12_optical_links, R425 15_start) -/
  running : Bool := false
  /-- TICK_IN mode runs on the divider (R102 04_frame_tick) -/
  holdover : Bool := false
  /-- pin TICK_OUT (R103 04_frame_tick) -/
  tickOut : Bool := false
  /-- a follower whose marks are missing runs free (R127 04_frame_tick) -/
  freeRun : Bool := false
  /-- lengthening (+) or shortening (-) of the next frame, 1/16 hc (R127 04_frame_tick) -/
  correction : Int := 0
  /-- correction in force in the current frame, 1/16 hc (R127 04_frame_tick) -/
  frameLen : Int := 0
  /-- a START acted on: TICK and remaining TIME in 1/16 hc (R356 12_optical_links) -/
  startArmed : Option (BitVec 64 × Int) := none
  /-- admission stopped by a replay divergence (R387 13_repeatability) -/
  admitHold : Bool := false
  /-- at least one boundary has been produced since the tick unit started (R106 04_frame_tick) -/
  frameOpen : Bool := false
  /-- the exchange point of this frame has passed (R237 08_embedding) -/
  exchangePointDone : Bool := false
  deriving DecidableEq, Repr

/-- The object dictionary's store (R28, R446 to R449, R472 to R475). -/
structure Dict where
  /-- the value a READ returns for each RW or RWS object element (the object list below) (R28 01_gisar_hub) -/
  written : Sparse Nat := []
  /-- the value the owning unit works with (R28 01_gisar_hub) -/
  inForce : Sparse Nat := []
  /-- writes waiting for phase 1 of the next boundary, in order (key, value) (R28 01_gisar_hub, R106 04_frame_tick) -/
  deferred : List (Nat × Nat) := []
  /-- event counters; 2^48 - 1 stands for SAT (R472, R473 17_counters) -/
  counters : Sparse Nat := []
  /-- the source units' accumulators (R474 17_counters) -/
  acc : Sparse Nat := []
  /-- accounting counters SHARE_ENGINE_HC, SHARE_SWITCH_HC, JOBS_OPENED, REQUESTS_COMPLETED (R194 07_shares, R472 17_counters) -/
  accounting : Sparse Nat := []
  /-- RESULT of the request served last (R447) (R449 16_management) -/
  lastResult : Nat := 0
  /-- value bytes of the READ served last (R448 16_management) -/
  lastValue : List (BitVec 8) := []
  deriving DecidableEq, Repr

/-- One alarm latch (R482). -/
structure Latch where
  /-- FIRST_TICK (R482 17_counters) -/
  firstTick : BitVec 64 := 0
  /-- FIRST_HC (R482 17_counters) -/
  firstHc : BitVec 32 := 0
  /-- LAST_TICK (R482 17_counters) -/
  lastTick : BitVec 64 := 0
  /-- LAST_HC (R482 17_counters) -/
  lastHc : BitVec 32 := 0
  /-- COUNT, stops at 2^48 - 1 (R482 17_counters) -/
  count : Nat := 0
  /-- SAT (R482 17_counters) -/
  sat : Bool := false
  /-- HELD (R482 17_counters) -/
  held : Bool := false
  /-- PENDING (R482 17_counters) -/
  pending : Bool := false
  deriving DecidableEq, Repr

/-- The gap state of a TELEMETRY queue or of the Brass packer (R138, R480). -/
structure Gap where
  /-- GAP_OPEN (R131 05_flows) -/
  gapOpen : Bool := false
  /-- GAP_COUNT, stops at 0xFFFF_FFFF (R131 05_flows) -/
  count : Nat := 0
  /-- FIRST_DROP_TICK (R131 05_flows) -/
  firstTick : BitVec 64 := 0
  /-- FIRST_DROP_HC (R131 05_flows) -/
  firstHc : BitVec 32 := 0
  /-- LAST_DROP_TICK (R131 05_flows) -/
  lastTick : BitVec 64 := 0
  /-- LAST_DROP_HC (R131 05_flows) -/
  lastHc : BitVec 32 := 0
  deriving DecidableEq, Repr

/-- Alarm latches, the Brass packer (ch. 17). -/
structure Telemetry where
  /-- ALARM_LATCH by type code (R482 17_counters) -/
  latches : Sparse Latch := []
  /-- Brass recording runs (changes at boundaries) (R476 17_counters) -/
  brassOn : Bool := false
  /-- records of the open word (R479 17_counters) -/
  brassOpen : List (BitVec 128) := []
  /-- the packer's 4 places (R480 17_counters) -/
  brassClosed : List (BitVec 512) := []
  /-- the packer's gap (R480 17_counters) -/
  brassGap : Gap := {}
  /-- records discarded in this tick because the queue condition fails (R476 17_counters) -/
  brassDiscarded : Nat := 0
  /-- event-log words on the event path, oldest first (R31 01_gisar_hub, R484 17_counters) -/
  events : List (BitVec 512) := []
  /-- Brass words on the event path, oldest first (R31 01_gisar_hub, R484 17_counters) -/
  brassPath : List (BitVec 512) := []
  /-- the event path's gap (R31 01_gisar_hub, R484 17_counters) -/
  eventGap : Gap := {}
  /-- the hub cycle in which the event path last used the Queue Manager's lane (R40 01_gisar_hub, R484 17_counters) -/
  laneAt : Option Nat := none
  deriving DecidableEq, Repr

/-- A load or unload in progress (R60, R61). -/
structure LoadOp where
  /-- IMAGE_LOAD_ADDR taken (R61 02_graph) -/
  addr : Nat := 0
  /-- IMAGE_LOAD_SLOT taken (R61 02_graph) -/
  slot : Nat := 0
  /-- IMAGE_LOAD_PARTITION taken (R61 02_graph) -/
  part : Nat := 0
  deriving DecidableEq, Repr

/-- A resident image (R45 to R49, R60). -/
structure Image where
  /-- IMAGE_DIGEST, byte 0 lowest (R45 02_graph) -/
  digest : BitVec 256 := 0
  /-- load partition (R61 02_graph) -/
  part : Nat := 0
  /-- device address it was loaded from (R199) (R61 02_graph) -/
  addr : Nat := 0
  /-- IMAGE_BYTES (R199) (R45 02_graph) -/
  bytes : Nat := 0
  /-- CLASS_TABLE (R45 02_graph) -/
  classes : List (BitVec 32) := []
  /-- the step table (R47 02_graph) -/
  steps : List (BitVec 512) := []
  /-- the template section (R48 02_graph) -/
  templates : List (BitVec 256) := []
  /-- the edge section (R49 02_graph) -/
  edges : List (BitVec 32) := []
  deriving DecidableEq, Repr

/-- A live instance of a step (R63 to R66, R71, R124). -/
structure Instance where
  /-- INSTANCE, 0 to 8,191 (R68 03_matching) -/
  id : Nat := 0
  /-- the request (hold entry) it runs for (R149 05_flows) -/
  hold : Nat := 0
  /-- CONTEXT (R62 02_graph) -/
  ctx : Nat := 0
  /-- GENERATION at admission (R62 02_graph) -/
  gen : BitVec 16 := 0
  /-- PARTITION (R62 02_graph) -/
  part : Nat := 0
  /-- IMAGE_SLOT (R62 02_graph) -/
  image : Nat := 0
  /-- STEP_INDEX of this frame step (R62 02_graph) -/
  step : Nat := 0
  /-- the graph chosen at admission (R59 02_graph) -/
  fallback : Bool := false
  /-- WINDOW_LOG2 of the chosen graph (R47 02_graph) -/
  wlog : Nat := 6
  /-- FIRST of the chosen graph (R47 02_graph) -/
  first : Nat := 0
  /-- COUNT of the chosen graph (R47 02_graph) -/
  count : Nat := 0
  /-- base slot; none while the window waits (R64 02_graph) -/
  base : Option Nat := none
  /-- templates instantiated so far (R65 02_graph) -/
  inst : Nat := 0
  /-- templates that have reached DONE (R124 04_frame_tick) -/
  done : Nat := 0
  /-- templates retired (R71 03_matching) -/
  retired : Nat := 0
  /-- the previous step's count is credited (R55 02_graph) -/
  prevDone : Bool := false
  /-- admission tick, the snapshot of its lookups (R109 04_frame_tick) -/
  admitTick : BitVec 64 := 0
  /-- the step has overrun (R124 04_frame_tick) -/
  late : Bool := false
  /-- index of this frame step within its request (R58 02_graph) -/
  frame : Nat := 0
  /-- tables touched by its lookups (R375 13_repeatability) -/
  tables : List Nat := []
  deriving DecidableEq, Repr

/-- The Graph Loader (ch. 2). -/
structure Loader where
  /-- operation in progress (R61 02_graph) -/
  op : Option LoadOp := none
  /-- IMAGE_LOAD_RESULT (R61 02_graph) -/
  result : BitVec 32 := 0
  /-- image slots (R60 02_graph) -/
  images : Sparse Image := []
  /-- live instances in admission order, those still waiting for a window included (R66 02_graph) -/
  instances : List Instance := []
  deriving DecidableEq, Repr

/-- A Matching Store slot (R68). -/
structure Slot where
  /-- OPERAND0 (R68 03_matching) -/
  op0 : BitVec 64 := 0
  /-- OPERAND1 (R68 03_matching) -/
  op1 : BitVec 64 := 0
  /-- OPERAND2 (R68 03_matching) -/
  op2 : BitVec 64 := 0
  /-- OPERAND3 (R68 03_matching) -/
  op3 : BitVec 64 := 0
  /-- PRESENT (R68 03_matching) -/
  present : BitVec 4 := 0
  /-- EMPTY (R68 03_matching) -/
  empty : BitVec 4 := 0
  /-- COUNTER (R68 03_matching) -/
  counter : Nat := 0
  /-- STATE (R68, R69 03_matching) -/
  state : SlotState := .free
  /-- CONTEXT (R68 03_matching) -/
  ctx : Nat := 0
  /-- GENERATION (R68 03_matching) -/
  gen : BitVec 16 := 0
  /-- INSTANCE (R68 03_matching) -/
  inst : Nat := 0
  /-- TEMPLATE (R68 03_matching) -/
  tmpl : Nat := 0
  /-- ENGINE_CLASS (R68 03_matching) -/
  cls : Nat := 0
  /-- HOME_LOGICAL (R68 03_matching) -/
  home : Nat := 0
  /-- PORT (R68 03_matching) -/
  port : Nat := 0
  /-- TIN (R68 03_matching) -/
  tin : Bool := false
  /-- FALLBACK (R68 03_matching) -/
  fallback : Bool := false
  /-- RESULT (R68 03_matching) -/
  result : Bool := false
  /-- SERIAL (R68 03_matching) -/
  serial : Bool := false
  /-- STATUS (R68 03_matching) -/
  status : Status := .ok
  /-- ISSUE_TIME (R68 03_matching) -/
  issueTime : BitVec 32 := 0
  /-- SPILL_REF (R68 03_matching) -/
  spillRef : Nat := 0
  /-- SHARE_GROUP (R68 03_matching) -/
  share : Nat := 0
  /-- partition of the request (the port stamps it) (R86 03_matching) -/
  part : Nat := 0
  /-- ISSUED without a port (R88 03_matching) -/
  noPort : Bool := false
  /-- HELD on an object, barrier or exchange, not by R70 (R172 06_signals, R276 10_expert) -/
  parked : Bool := false
  /-- READY by a resolution: it resolves in place of being issued, with the STATUS held (R173 06_signals) -/
  resolved : Bool := false
  /-- its next descriptor carries RESUME (R92 03_matching) -/
  resume : Bool := false
  /-- worst data status recorded against the task (R86 03_matching) -/
  dataStatus : Status := .ok
  /-- records of the data task that a link port has still to accept (R288 10_expert, R340 12_optical) -/
  unaccepted : Nat := 0
  /-- OUTPUT0 kept for a resolution (EXP_RECV, EXP_COLLECT) (R173 06_signals) -/
  out0 : BitVec 64 := 0
  /-- request block of a Q_ENQUEUE under way, whose progress out0 keeps; zero before it has been read (R145 05_flows) -/
  request : BitVec 512 := 0
  /-- hub cycles from its latest issue or hand-over to the expiry of its watchdog (R57 02_graph, R391, R393 14_faults) -/
  limit : Nat := 0
  deriving DecidableEq, Repr

/-- An accepted completion awaiting token formation (R76 to R78). -/
structure PendingCompletion where
  /-- the completed slot (R77 03_matching) -/
  slot : Nat := 0
  /-- OUTPUT0 to OUTPUT3 (R87 03_matching) -/
  outs : List (BitVec 64) := []
  /-- operand edges carry EMPTY (R75 03_matching) -/
  empty : Bool := false
  /-- the engine port whose four entries it takes (R77 03_matching) -/
  port : Option Nat := none
  /-- a data task's completion (R77 03_matching) -/
  data : Bool := false
  /-- the fence was open at the acceptance and has not been seen clear (R78 03_matching) -/
  fenced : Bool := false
  deriving DecidableEq, Repr

/-- An entry of the Ready Lists (R82). -/
structure ReadyEntry where
  /-- slot listed (R82 03_matching) -/
  slot : Nat := 0
  /-- hub cycle of entry to READY (R82 03_matching) -/
  at_ : Nat := 0
  /-- listed in a data list (R82 03_matching) -/
  data : Bool := false
  /-- a claimant refused a pre-emption since a buffer of its partition last freed (R204 07_shares) -/
  refused : Bool := false
  deriving DecidableEq, Repr

/-- The Matching Store (ch. 3). -/
structure Matching where
  /-- slots (R68 03_matching) -/
  slots : Sparse Slot := []
  /-- operand tokens formed and not yet matched, in arrival order (R53 02_graph, R72 03_matching) -/
  tokens : List (BitVec 128) := []
  /-- the pending-completion queue, in first-accepted order (R77 03_matching) -/
  pend : List PendingCompletion := []
  /-- slots of the items on the data-task path, oldest first (R31 01_gisar_hub) -/
  path : List Nat := []
  /-- completion credits free (R32 01_gisar_hub) -/
  credits : Nat := 8192
  /-- data items aborted whose completion, and so whose credit, is still to return (R403 14_faults) -/
  aborts : List Nat := []
  /-- Ready Lists as one list in order of entry to READY (R82 03_matching) -/
  ready : List ReadyEntry := []
  /-- data tasks whose work is done and whose held writes are not: slot, status, outputs (R78, R242, R316 11_memory_stripes) -/
  late : List (Nat × Status × List (BitVec 64)) := []
  deriving DecidableEq, Repr

/-- A parked task of a scratch map (R206). -/
structure Parked where
  /-- park index (R206 07_shares) -/
  idx : Nat := 0
  /-- the task (R206 07_shares) -/
  slot : Nat := 0
  /-- resident bytes (R206 07_shares) -/
  resident : Nat := 0
  /-- hub cycle of its latest yield (R207 07_shares) -/
  since : Nat := 0
  deriving DecidableEq, Repr

/-- A system descriptor still to be written (R210, R212). -/
structure SysDesc where
  /-- OPCODE 1 SPILL, 2 RESTORE, 3 DISCARD (R210 07_shares) -/
  op : Nat := 0
  /-- the task named (R210 07_shares) -/
  slot : Nat := 0
  /-- PARK (R210 07_shares) -/
  park : Nat := 7
  /-- OFFSET, 64-byte units (R210 07_shares) -/
  off : Nat := 0
  /-- LENGTH, 64-byte units (R210 07_shares) -/
  len : Nat := 0
  /-- CONTEXT (R210 07_shares) -/
  ctx : Nat := 0
  /-- GENERATION (R210 07_shares) -/
  gen : BitVec 16 := 0
  /-- BUFFER_ADDR (R210 07_shares) -/
  addr : Nat := 0
  /-- TASK_ID (R210 07_shares) -/
  task : BitVec 32 := 0
  /-- LOGICAL_ENGINE (R210 07_shares) -/
  home : Nat := 0
  deriving DecidableEq, Repr

/-- A spill record (R209). -/
structure SpillRec where
  /-- BUFFER_ADDR (R209 07_shares) -/
  addr : Nat := 0
  /-- LIVE_BYTES (R209 07_shares) -/
  live : Nat := 0
  /-- RESIDENT_BYTES (R209 07_shares) -/
  resident : Nat := 0
  /-- SEG0 to SEG3 (OFFSET, LENGTH) (R209 07_shares) -/
  segs : List (Nat × Nat) := []
  /-- PORT (R209 07_shares) -/
  port : Nat := 0
  /-- PARK (R209 07_shares) -/
  park : Nat := 0
  /-- PINNED (R209 07_shares) -/
  pinned : Bool := false
  /-- SLOT (R209 07_shares) -/
  slot : Nat := 0
  /-- partition whose spill area holds the buffer (R204 07_shares) -/
  part : Nat := 0
  /-- buffer number in the spill area (R204 07_shares) -/
  buf : Nat := 0
  deriving DecidableEq, Repr

/-- A switch in progress on a port (R214). -/
structure Switch where
  /-- hub cycle of event zero (R214 07_shares) -/
  start : Nat := 0
  /-- SPILL and DISCARD descriptors still to be written (R212 07_shares) -/
  spills : List SysDesc := []
  /-- a SPILL is outstanding (R211 07_shares) -/
  spilling : Bool := false
  /-- RESTORE descriptors still to be written (R212 07_shares) -/
  restores : List SysDesc := []
  /-- the task switched in (R214 07_shares) -/
  incoming : Option Nat := none
  /-- S, bytes spilled (R214 07_shares) -/
  bytes : Nat := 0
  /-- D (R214 07_shares) -/
  nRestores : Nat := 0
  /-- X (R214 07_shares) -/
  excess : Nat := 0
  /-- the task whose yield the switch follows; none for a switch at an issue (R214 07_shares) -/
  victim : Option Nat := none
  /-- spill records as the plan leaves them, put in force when the last SPILL has ended (record, its value) (R214 07_shares) -/
  planned : List (Nat × SpillRec) := []
  /-- the last SPILL has ended and the excess is counted (R214 07_shares) -/
  ended : Bool := false
  /-- hub cycle in which the incoming task entered READY (R82 03_matching) -/
  inAt : Nat := 0
  deriving DecidableEq, Repr

/-- An open run of remote write beats (R501). -/
structure RemoteRun where
  /-- destination chip (R501 19_ports) -/
  chip : Nat := 0
  /-- device address of the first beat (R501 19_ports) -/
  addr : Nat := 0
  /-- the beats (R501 19_ports) -/
  beats : List (BitVec 512) := []
  /-- the task that sends it (R78 03_matching) -/
  slot : Nat := 0
  /-- partition stamped by the port (R86 03_matching) -/
  part : Nat := 0
  /-- the number under which the run is one write not yet accepted (R165 06_signals) -/
  id : Nat := 0
  deriving DecidableEq, Repr

/-- An outstanding read of an engine (R86, R501). -/
structure ReadTag where
  /-- read tag (R501 19_ports) -/
  tag : Nat := 0
  /-- device address (R501 19_ports) -/
  addr : Nat := 0
  /-- the task that was stamped on it; none once that task has completed or is gone (R86 03_matching) -/
  slot : Option Nat := none
  /-- the model's number for it (R501 19_ports) -/
  id : Nat := 0
  deriving DecidableEq, Repr

/-- An engine port (ch. 3, 7, 14, 19). -/
structure EnginePort where
  /-- declared failed (R97 03_matching) -/
  failed : Bool := false
  /-- pin EP_RESET_N (R497 19_ports) -/
  resetN : Bool := false
  /-- pin EP_READY as last seen (R502 19_ports) -/
  epReady : Bool := false
  /-- an L1 is in progress (R396 14_faults) -/
  inL1 : Bool := false
  /-- the L1 in progress is followed by suspect replay (R407 14_faults) -/
  l1Suspects : Bool := false
  /-- the port's task watchdog has expired, and its L1 has not completed since (R391 14_faults) -/
  expired : Bool := false
  /-- returning to service, EP_READY awaited (R98 03_matching) -/
  restoring : Bool := false
  /-- start times in ms of the L1s of the port (R396 14_faults) -/
  l1Times : List Nat := []
  /-- ISSUE_TAG of the latest descriptor (R85 03_matching) -/
  issueTag : Bool := true
  /-- pins ISSUE_DATA, latest descriptor (R497 19_ports) -/
  issueData : BitVec 512 := 0
  /-- slot of the task the port holds (R85 03_matching) -/
  held : Option Nat := none
  /-- pin PREEMPT_REQ (R90 03_matching) -/
  preempt : Bool := false
  /-- pin PREEMPT_TAG (R90 03_matching) -/
  preemptTag : Bool := false
  /-- the outstanding pre-emption is a suspension (R202 07_shares) -/
  preemptSusp : Bool := false
  /-- YIELDS_LATE counted for this request (R92 03_matching) -/
  lateCounted : Bool := false
  /-- the claimant bound to the port (R202 07_shares) -/
  bound : Option Nat := none
  /-- slot of the task that the latest PREEMPT_REQ named (R205 07_shares) -/
  victim : Nat := 0
  /-- the scratch map (R206 07_shares) -/
  parkedTasks : List Parked := []
  /-- the switch in progress (R214 07_shares) -/
  sw : Option Switch := none
  /-- DISCARDs of removed parked tasks, sent when the port is next free (R216 07_shares) -/
  discards : List SysDesc := []
  /-- suspects still to replay (R407 14_faults) -/
  suspects : List Nat := []
  /-- suspect replay in progress (R408 14_faults) -/
  replaying : Bool := false
  /-- contexts found guilty in this replay (R409 14_faults) -/
  guilty : List Nat := []
  /-- reads outstanding (R501 19_ports) -/
  reads : List ReadTag := []
  /-- number of the next read (R501 19_ports) -/
  nextRead : Nat := 0
  /-- writes sent and not yet accepted, an open run being one: number, slot of the task (R78 03_matching, R165 06_signals) -/
  sent : List (Nat × Nat) := []
  /-- number of the next such write (R165 06_signals) -/
  nextWrite : Nat := 0
  /-- open remote run (R501 19_ports) -/
  run : Option RemoteRun := none
  deriving DecidableEq, Repr

/-- Ready List bookkeeping and engine ports (ch. 3, 7). -/
structure Dispatch where
  /-- engine ports (R84 03_matching) -/
  ports : Sparse EnginePort := []
  /-- per Dispatcher and band, the source after the one that issued last (0 to 15 the ports, 16 the data list) (R83 03_matching) -/
  last : Sparse Nat := []
  /-- VTIME by Dispatcher, band and share group (R189 07_shares) -/
  vtime : Sparse Nat := []
  /-- largest VTIME charged by Dispatcher and band (R190 07_shares) -/
  vmax : Sparse Nat := []
  /-- LOGICAL_MAP elements (bit 7 MAPPED): at reset as R79 builds them from ENGINE_PORT_CONFIG's default (R79, R99 03_matching) -/
  maps : Sparse Nat := (List.range 64).map fun p => (p, 128 + p)
  /-- the port that R79 numbered as each logical engine when the maps were last built, plus 1 (R79, R97 03_matching) -/
  numbers : Sparse Nat := (List.range 64).map fun p => (p, p + 1)
  /-- (failed port, stand-in) remaps in force (R97 03_matching) -/
  standIns : List (Nat × Nat) := []
  /-- spill records (R209 07_shares) -/
  spill : Sparse SpillRec := []
  /-- the context a spill buffer was last given to, plus 1 (R405 14_faults) -/
  bufOwner : Sparse Nat := []
  /-- unit codes with a stop requested and not yet in effect (R30 01_gisar_hub) -/
  unitStopReq : List Nat := []
  /-- UNIT_STOPPED (R30 01_gisar_hub) -/
  unitStopped : List Nat := []
  /-- unit codes whose start takes effect at the next boundary (R30 01_gisar_hub) -/
  unitStart : List Nat := []
  /-- units with a stop written since the latest L4 or power-on and no later start (R30 01_gisar_hub) -/
  unitKeep : List Nat := []
  deriving DecidableEq, Repr

/-- A context and its job (R62, R150, R152, R401 to R405). -/
structure Ctx where
  /-- current generation (R62 02_graph, R401 14_faults) -/
  gen : BitVec 16 := 0
  /-- the context has an open job (R63 02_graph) -/
  job : Bool := false
  /-- image slot of the job (R63 02_graph) -/
  image : Nat := 0
  /-- partition of the job (R150 05_flows) -/
  part : Nat := 0
  /-- RESULT queue of unflowed requests (R152 05_flows) -/
  resultQueue : Nat := 0
  /-- a JOB_OPEN is accepted and not yet admitted (R63 02_graph) -/
  openPending : Bool := false
  /-- a JOB_CLOSE is admitted and waits for the earlier requests (R63 02_graph) -/
  closePending : Bool := false
  /-- hold entry of that JOB_CLOSE (R63 02_graph) -/
  closeHold : Option Nat := none
  /-- acceptance order of the step request accepted last (R55 02_graph) -/
  lastStep : Option Nat := none
  /-- admission count of the context's requests modulo 2^20 (R121 04_frame_tick) -/
  reqCount : Nat := 0
  /-- none, draining, or cleanup walks running (R401, R402 14_faults) -/
  tearing : TearPhase := .none
  /-- tick of the latest increment of the generation (R404 14_faults) -/
  genTick : Option (BitVec 64) := none
  deriving DecidableEq, Repr

/-- A hold entry: an accepted record that will produce a result record (R149, R153 to R157). -/
structure Hold where
  /-- the record accepted (a request record, or a LEAVE) (R62 02_graph) -/
  record : BitVec 512 := 0
  /-- acceptance order (R111 04_frame_tick) -/
  at_ : Nat := 0
  /-- queued, carried, admitted or complete (R149 05_flows) -/
  phase : HoldPhase := .queued
  /-- acceptance order of the step request of the context that arrived immediately before (R55 02_graph) -/
  prevAt : Option Nat := none
  /-- REQUEST_NO (R121 04_frame_tick) -/
  reqNo : Nat := 0
  /-- tick that admitted the first frame step (R153 05_flows) -/
  admitTick : BitVec 64 := 0
  /-- tick in which the request completed (R153 05_flows) -/
  completeTick : BitVec 64 := 0
  /-- frame steps admitted so far (R58 02_graph) -/
  frame : Nat := 0
  /-- step of the next or current frame step (R58 02_graph) -/
  step : Nat := 0
  /-- (frame step, template, OUTPUT0, final code) of RESULT tasks (R153 05_flows) -/
  results : List (Nat × Nat × BitVec 64 × Status) := []
  /-- worst data status of any task (R154 05_flows) -/
  dataStatus : Status := .ok
  /-- LATE applies (R123, R124 04_frame_tick) -/
  late : Bool := false
  /-- FALLBACK applies (R119 04_frame_tick) -/
  fallback : Bool := false
  /-- CANCELLED applies (R118 04_frame_tick, R156 05_flows) -/
  cancelled : Bool := false
  /-- a delayed-release entry has not expired (R157 05_flows) -/
  delayed : Bool := false
  /-- DECISIONS of the frame steps admitted: true for FALLBACK (R375 13_repeatability) -/
  decisions : List Bool := []
  /-- (table, epoch, digest, VALID) pairs touched by the steps completed (R375 13_repeatability) -/
  pairs : List (Nat × Nat × Nat × Bool) := []
  /-- CHIP_COUNT at admission (R375 13_repeatability) -/
  chipCount : Nat := 0
  /-- IMAGE_DIGEST of the image at admission (R375 13_repeatability) -/
  imageDigest : BitVec 256 := 0
  /-- a run digest is computed for the request (R377 13_repeatability) -/
  digestOn : Bool := false
  /-- the request has been deferred with the join of its flow, and counted for it (R116 04_frame_tick) -/
  deferred : Bool := false
  deriving DecidableEq, Repr

/-- A Flow Table entry (R148). -/
structure Flow where
  /-- STATE (R148 05_flows) -/
  state : FlowState := .free
  /-- CONTEXT (R148 05_flows) -/
  ctx : Nat := 0
  /-- GENERATION (R148 05_flows) -/
  gen : BitVec 16 := 0
  /-- TIN (R148 05_flows) -/
  tin : Bool := false
  /-- RELEASE_SEQ (R148 05_flows) -/
  rel : BitVec 24 := 0
  /-- ACCEPT_SEQ (R148 05_flows) -/
  acc : BitVec 24 := 0
  /-- DONE_MASK (R148 05_flows) -/
  done : BitVec 16 := 0
  /-- RESULT_QUEUE (R148 05_flows) -/
  resultQueue : Nat := 0
  /-- RES_INDEX (R148 05_flows) -/
  resIndex : Nat := 0
  /-- RES_VALID (R148 05_flows) -/
  resValid : Bool := false
  /-- PARTITION (R148 05_flows) -/
  part : Nat := 0
  /-- RELEASE_DELAY (R148 05_flows) -/
  delay : Nat := 0
  /-- RESERVATION of the JOIN (R147 05_flows) -/
  resv : Nat := 0
  /-- the state before the LEAVE (R156 05_flows) -/
  prev : FlowState := .free
  /-- FIRST_SEQ of the JOIN (R147, R151 05_flows) -/
  first : BitVec 24 := 0
  /-- acceptance order of the JOIN (R111 04_frame_tick) -/
  at_ : Nat := 0
  /-- order of the joins admitted (R117 04_frame_tick) -/
  joinAt : Nat := 0
  /-- order in which leaves were requested (R120 04_frame_tick) -/
  leaveAt : Nat := 0
  /-- hold entry of the LEAVE (R149 05_flows) -/
  leaveHold : Option Nat := none
  /-- the join has been deferred, and counted for it (R116 04_frame_tick) -/
  deferred : Bool := false
  deriving DecidableEq, Repr

/-- A Delay List entry (R121). -/
structure DelayEntry where
  /-- EXPIRY (R121 04_frame_tick) -/
  expiry : BitVec 32 := 0
  /-- FLOW_SEQ (R121 04_frame_tick) -/
  seq : BitVec 24 := 0
  /-- FLOW_ID (R121 04_frame_tick) -/
  flow : Nat := 0
  /-- REQUEST_NO (R121 04_frame_tick) -/
  reqNo : Nat := 0
  /-- GENERATION (R121 04_frame_tick) -/
  gen : BitVec 16 := 0
  /-- CONTEXT (R121 04_frame_tick) -/
  ctx : Nat := 0
  /-- KIND: a listed entry is a delayed release or a deadline; a free one is not listed (R121 04_frame_tick) -/
  release : Bool := false
  /-- the deadline's request had completed before hc 0 of the boundary of the expiry tick (R123 04_frame_tick) -/
  doneAtTick : Bool := false
  /-- the boundary of the expiry tick has sampled the entry: it may expire (R123 04_frame_tick, R438 15_start) -/
  tested : Bool := false
  deriving DecidableEq, Repr

/-- A carried candidate (R111, R113). -/
structure Cand where
  /-- a request, a JOIN, a Tin rejoin or a chained frame step (R111 04_frame_tick) -/
  kind : CandKind := .request
  /-- hold entry (request, chained) or flow (JOIN, rejoin) (R111 04_frame_tick) -/
  id : Nat := 0
  /-- original arrival (R111 04_frame_tick) -/
  at_ : Nat := 0
  /-- class (R111 04_frame_tick) -/
  tin : Bool := false
  deriving DecidableEq, Repr

/-- A recorded admission decision (R119). -/
structure Decision where
  /-- tick of the decision (R119 04_frame_tick) -/
  tick : BitVec 64 := 0
  /-- context (R119 04_frame_tick) -/
  ctx : Nat := 0
  /-- generation (R119 04_frame_tick) -/
  gen : BitVec 16 := 0
  /-- hold entry, or flow for a suspension (R119 04_frame_tick) -/
  id : Nat := 0
  /-- 0 FULL, 1 FALLBACK, 2 deferred, 3 suspended, 4 CANCELLED (R119 04_frame_tick) -/
  code : Nat := 0
  deriving DecidableEq, Repr

/-- Contexts, hold pool, Flow Table, Delay Lists and the carried list (ch. 4 and 5). -/
structure Admission where
  /-- contexts (R62 02_graph) -/
  ctxs : Sparse Ctx := []
  /-- the hold pool (R149 05_flows) -/
  holds : Sparse Hold := []
  /-- the Flow Table (R148 05_flows) -/
  flows : Sparse Flow := []
  /-- the Delay Lists, sorted by EXPIRY, then by insertion (R121 04_frame_tick) -/
  delay : List DelayEntry := []
  /-- the carried list (R112 04_frame_tick) -/
  carried : List Cand := []
  /-- serial number of the next accepted record, join or leave (R111 04_frame_tick) -/
  order : Nat := 0
  /-- decisions of the latest boundary (R119 04_frame_tick) -/
  decisions : List Decision := []
  /-- (hold entry, RESULT queue) of unflowed and LEAVE records waiting for room, in completion order (R137, R152, R155 05_flows) -/
  unposted : List (Nat × Nat) := []
  /-- reservation-table entries returned in phase 2 of the next boundary (R158 05_flows) -/
  released : List Nat := []
  deriving DecidableEq, Repr

/-- Who enqueues into a DATA queue (R141, R514). -/
structure Producer where
  /-- the host doorbell, a data task or a link port (R129 05_flows) -/
  kind : ProducerKind := .host
  /-- the task's slot, or the stream of a link (source chip * 4 + VC, R338); the host: 0 (R514 05_flows) -/
  id : Nat := 0
  deriving DecidableEq, Repr

/-- A hardware queue (R131). -/
structure Queue where
  /-- BASE (R131 05_flows) -/
  base : Nat := 0
  /-- HEAD (R131 05_flows) -/
  head : BitVec 32 := 0
  /-- TAIL (R131 05_flows) -/
  tail : BitVec 32 := 0
  /-- VISIBLE (R131 05_flows) -/
  visible : BitVec 32 := 0
  /-- GAP_COUNT, drop stamps and GAP_OPEN (R131 05_flows) -/
  gap : Gap := {}
  /-- SIZE_LOG2 (R131 05_flows) -/
  sizeLog2 : Nat := 0
  /-- KIND (R131 05_flows) -/
  kind : Nat := 0
  /-- PARTITION (R131 05_flows) -/
  part : Nat := 0
  /-- CONTEXT (R131 05_flows) -/
  ctx : Nat := 0
  /-- CUT_THRESHOLD (R131 05_flows) -/
  cut : Nat := 0
  /-- ENABLE (R131 05_flows) -/
  enable : Bool := false
  /-- FLUSH_PENDING (R131 05_flows) -/
  flushPending : Bool := false
  /-- PACKET_OPEN (R131 05_flows) -/
  packetOpen : Bool := false
  /-- PACKET_LEFT (R131 05_flows) -/
  packetLeft : Nat := 0
  /-- words of the open packet that have arrived (R142 05_flows) -/
  packetGot : Nat := 0
  /-- the producer of the open packet (R141 05_flows) -/
  opener : Producer := {}
  /-- the consumer is part-way through a packet (R143 05_flows) -/
  readOpen : Bool := false
  /-- where packets cut short by R513 end: the word count just past their last word (R513 05_flows) -/
  cuts : List (BitVec 32) := []
  /-- an enable (true) or disable (false) waiting for its boundary (R159 05_flows) -/
  control : Option Bool := none
  /-- a flush of a REQUEST or FLOW queue waiting for phase 1 (R143 05_flows) -/
  flushTick : Bool := false
  /-- per waiting record: acceptance order, and the hold entry (or the flow of a JOIN) (R150 05_flows) -/
  accepted : List (Nat × Nat) := []
  /-- producers waiting for room or for another producer's packet, with their next word, in the order in which they began to wait (R514 05_flows) -/
  waiting : List (Producer × BitVec 512) := []
  deriving DecidableEq, Repr

/-- A doorbell aperture's status (R134). -/
structure Doorbell where
  /-- ACCEPTED (R134 05_flows) -/
  accepted : BitVec 32 := 0
  /-- LAST_CODE (R134 05_flows) -/
  last : Status := .ok
  deriving DecidableEq, Repr

/-- The Queue Manager (ch. 5). -/
structure Queues where
  /-- queue descriptors (R131 05_flows) -/
  queues : Sparse Queue := []
  /-- doorbell status (R134 05_flows) -/
  doorbells : Sparse Doorbell := []
  deriving DecidableEq, Repr

/-- A signal object (R160). -/
structure SigObj where
  /-- COUNT (R160 06_signals) -/
  count : BitVec 32 := 0
  /-- parked waits from WAIT_HEAD to WAIT_TAIL: (slot, declared count); WAITING is set while it is not empty (R160, R172 06_signals) -/
  waiters : List (Nat × Nat) := []
  /-- CONTEXT (R160 06_signals) -/
  ctx : Nat := 0
  /-- GENERATION (R160 06_signals) -/
  gen : BitVec 16 := 0
  /-- OVERRUN (R160 06_signals) -/
  overrun : Nat := 0
  /-- ALIGN_INDEX (R160 06_signals) -/
  alignIndex : Nat := 0
  /-- ALIGNED (R160 06_signals) -/
  aligned : Bool := false
  /-- BINARY (R160 06_signals) -/
  binary : Bool := false
  /-- SAT (R160 06_signals) -/
  sat : Bool := false
  /-- OPEN (R160 06_signals) -/
  open_ : Bool := false
  deriving DecidableEq, Repr

/-- A hardware barrier (R177). -/
structure Barrier where
  /-- PARTIES (R177 06_signals) -/
  parties : Nat := 0
  /-- ARRIVED (R177 06_signals) -/
  arrived : Nat := 0
  /-- PHASE (R177 06_signals) -/
  phase : BitVec 16 := 0
  /-- parked arrivals from WAIT_HEAD to WAIT_TAIL (R177 06_signals) -/
  waiters : List Nat := []
  /-- CONTEXT (R177 06_signals) -/
  ctx : Nat := 0
  /-- GENERATION (R177 06_signals) -/
  gen : BitVec 16 := 0
  /-- OPEN (R177 06_signals) -/
  open_ : Bool := false
  deriving DecidableEq, Repr

/-- An aligned-table entry (R179). -/
structure AlignEntry where
  /-- ALIGN_COUNT (R179 06_signals) -/
  alignCount : BitVec 32 := 0
  /-- LAST_DRIFT (R179 06_signals) -/
  lastDrift : BitVec 32 := 0
  /-- LAST_DRIFT_TICK (R179 06_signals) -/
  lastDriftTick : BitVec 32 := 0
  /-- ALIGN_PERIOD; 0 in a free entry (R179 06_signals) -/
  period : Nat := 0
  /-- OBJECT (R179 06_signals) -/
  object : Nat := 0
  deriving DecidableEq, Repr

/-- A signal command on its way (R163 to R168, R181). -/
structure SigCmd where
  /-- the command, TICK stamped (R163 06_signals) -/
  cmd : BitVec 64 := 0
  /-- where it came from (R164 06_signals) -/
  src : SigSource := .hostDma
  /-- numbers of the writes sent before it by its source and not accepted when it was handed over (R165 06_signals) -/
  behind : List Nat := []
  deriving DecidableEq, Repr

/-- The Signal Unit (ch. 6). -/
structure Signals where
  /-- signal objects (R160 06_signals) -/
  objs : Sparse SigObj := []
  /-- barriers (R177 06_signals) -/
  barriers : Sparse Barrier := []
  /-- the aligned table (R179 06_signals) -/
  align : Sparse AlignEntry := []
  /-- commands of local sources handed over and not yet taken by the Signal Unit (R165 06_signals) -/
  inbound : List SigCmd := []
  /-- the held-signal buffer (R181 06_signals) -/
  held : List SigCmd := []
  /-- commands whose source waits because the held-signal buffer is full (R181 06_signals) -/
  waiting : List SigCmd := []
  deriving DecidableEq, Repr

/-- A digest record of a table epoch (R271). -/
structure DigestRec where
  /-- EPOCH (R271 09_live_table) -/
  epoch : BitVec 32 := 0
  /-- TICK (R271 09_live_table) -/
  tick : BitVec 32 := 0
  /-- DIGEST as a little-endian integer (R271 09_live_table) -/
  digest : Nat := 0
  /-- VALID (R271 09_live_table) -/
  valid : Bool := false
  /-- the boundary that superseded the epoch (R271 09_live_table) -/
  ended : Option (BitVec 32) := none
  /-- the record may be overwritten (R271 09_live_table) -/
  retired : Bool := false
  deriving DecidableEq, Repr

/-- A Voxpor swap in progress (R268). -/
structure Swap where
  /-- the tick at which the scan of the inactive base began (R256, R268 09_live_table) -/
  start : BitVec 64 := 0
  /-- the scan of the inactive base has completed (R268 09_live_table) -/
  scanned : Bool := false
  /-- D of the new base (R270 09_live_table) -/
  digest : Nat := 0
  deriving DecidableEq, Repr

/-- A table as the Embedding Engine keeps it (R219, R224, R273). -/
structure Table where
  /-- TABLE_STATE: 0 closed, 1 opening, 2 open, 3 closing (R245 08_embedding) -/
  state : Nat := 0
  /-- bits [511:256] cached at the open; UPDATE_STATE as written before it (R219 08_embedding) -/
  desc : BitVec 512 := 0
  /-- chip IDs of the shard map (R223 08_embedding) -/
  shards : List Nat := []
  /-- OPEN_TICK (R273 09_live_table) -/
  openTick : BitVec 64 := 0
  /-- the boundary at which the close took effect (R225 08_embedding) -/
  closeTick : Option (BitVec 64) := none
  /-- EPOCH (R273 09_live_table) -/
  epoch : BitVec 32 := 0
  /-- FLOOR_TICK (R273 09_live_table) -/
  floorTick : BitVec 32 := 0
  /-- DIGEST_VALID (R273 09_live_table) -/
  digestValid : Bool := false
  /-- OLD_BASE_BUSY (R273 09_live_table) -/
  oldBaseBusy : Bool := false
  /-- ACTIVE_ALT (R273 09_live_table) -/
  activeAlt : Bool := false
  /-- the boundary of the latest swap: earlier snapshots read the other base (R268 09_live_table) -/
  swapTick : Option (BitVec 64) := none
  /-- the swap in progress (R268 09_live_table) -/
  swap : Option Swap := none
  /-- snapshot of the opening digest scan in progress (R272 09_live_table) -/
  scan : Option (BitVec 64) := none
  /-- D, or while the opening scan runs the differences gathered (R269 09_live_table) -/
  sum : Nat := 0
  /-- a swap has replaced D by that of a whole scan before the opening scan was over (R270, R272 09_live_table) -/
  whole : Bool := false
  /-- digest records, newest first (R271 09_live_table) -/
  records : List DigestRec := []
  /-- (stamp, difference to D) of published changes not yet committed (R270 09_live_table) -/
  pendingDelta : List (BitVec 64 × Nat) := []
  deriving DecidableEq, Repr

/-- A version record (R246, R248). -/
structure Version where
  /-- STAMP (R248 09_live_table) -/
  stamp : BitVec 32 := 0
  /-- LOC (R248 09_live_table) -/
  loc : Loc := .home
  /-- byte address (MEMORY) or byte offset in the Hot Row Store (HOT) (R248 09_live_table) -/
  addr : Nat := 0
  /-- stamp at which a newer version supersedes it (R257 09_live_table) -/
  superseded : Option (BitVec 32) := none
  deriving DecidableEq, Repr

/-- An overlay entry (R248). -/
structure Overlay where
  /-- TABLE (R248 09_live_table) -/
  table : Nat := 0
  /-- OPEN_TICK of the opening of the table that it belongs to (R225 08_embedding, R274 09_live_table) -/
  opening : BitVec 64 := 0
  /-- ROW (R248 09_live_table) -/
  row : Nat := 0
  /-- IN_USE (R248 09_live_table) -/
  inUse : Bool := false
  /-- REPLICA (R248 09_live_table) -/
  replica : Bool := false
  /-- REPLICATED (R248 09_live_table) -/
  replicated : Bool := false
  /-- FOLDING (R248 09_live_table) -/
  folding : Bool := false
  /-- DROPPED (R248 09_live_table) -/
  dropped : Bool := false
  /-- IDLE (R248 09_live_table) -/
  idle : Nat := 0
  /-- DROP_LIMIT (R248 09_live_table) -/
  dropLimit : BitVec 32 := 0
  /-- version records reserved for staged updates (R253 09_live_table) -/
  reserved : Nat := 0
  /-- VERSION0 to VERSION3 that are VALID, oldest stamp first (R248 09_live_table) -/
  versions : List Version := []
  /-- due for demotion (R263 09_live_table) -/
  demote : Bool := false
  /-- owner chip of a replica (R265 09_live_table) -/
  owner : Nat := 0
  deriving DecidableEq, Repr

/-- A row of an update being staged (R253). -/
structure StagedRow where
  /-- global row (R253 09_live_table) -/
  row : Nat := 0
  /-- where its fresh slot lies (R253 09_live_table) -/
  loc : Loc := .memory
  /-- its fresh slot (R253 09_live_table) -/
  addr : Nat := 0
  deriving DecidableEq, Repr

/-- An EMB_UPDATE being staged (R253, R255). -/
structure Update where
  /-- the data task (R253 09_live_table) -/
  slot : Nat := 0
  /-- TABLE (R251 09_live_table) -/
  table : Nat := 0
  /-- OPEN_TICK of the table when it began (R225 08_embedding) -/
  opening : BitVec 64 := 0
  /-- rows staged, a row listed twice once, from its later entry (R253 09_live_table) -/
  rows : List StagedRow := []
  /-- ROWS of the request (R251 09_live_table) -/
  count : Nat := 0
  /-- digest of the source bytes (R255 09_live_table) -/
  srcDigest : BitVec 256 := 0
  /-- stages done: 0 waits for slots, 1 for reservations, 2 may publish (R253 09_live_table) -/
  stage : Nat := 0
  deriving DecidableEq, Repr

/-- A migration into the Hot Row Store (R261, R262). -/
structure Migration where
  /-- table (R261 09_live_table) -/
  table : Nat := 0
  /-- local row (R261 09_live_table) -/
  row : Nat := 0
  /-- Hot Row Store offset (R261 09_live_table) -/
  off : Nat := 0
  /-- the LOC HOT version is published and not yet visible (R261 09_live_table) -/
  published : Bool := false
  deriving DecidableEq, Repr

/-- A fold copy in progress (R258). -/
structure Fold where
  /-- index of the overlay entry (R258 09_live_table) -/
  index : Nat := 0
  /-- stamp v of the version folded (R258 09_live_table) -/
  stamp : BitVec 32 := 0
  deriving DecidableEq, Repr

/-- A partial request in the pending table (R236, R241). -/
structure Partial where
  /-- TAG (R236 08_embedding) -/
  tag : BitVec 24 := 0
  /-- the lookup's data task (R236 08_embedding) -/
  slot : Nat := 0
  /-- the bag (0 for a score request) (R236 08_embedding) -/
  bag : Nat := 0
  /-- owner chip (R236 08_embedding) -/
  chip : Nat := 0
  /-- TABLE (R238 08_embedding) -/
  table : Nat := 0
  /-- TICK (R238 08_embedding) -/
  tick : BitVec 32 := 0
  /-- ITEMS of the request (R238 08_embedding) -/
  items : Nat := 0
  /-- a score request (R238 08_embedding) -/
  score : Bool := false
  /-- it has left at an exchange point (R237 08_embedding) -/
  sent : Bool := false
  /-- real time of that exchange point (R241 08_embedding) -/
  sentAt : Nat := 0
  /-- the record to send (R238 08_embedding) -/
  header : BitVec 128 := 0
  /-- its payload (R238 08_embedding) -/
  payload : List (BitVec 128) := []
  deriving DecidableEq, Repr

/-- A partial of a bag at the requester (R240). -/
structure PartVal where
  /-- the bag (R240 08_embedding) -/
  bag : Nat := 0
  /-- the chip that made it (R240 08_embedding) -/
  chip : Nat := 0
  /-- rows pooled (R240 08_embedding) -/
  n : Nat := 0
  /-- its elements (R240 08_embedding) -/
  vals : List (BitVec 32) := []
  deriving DecidableEq, Repr

/-- A top-k entry (R235). -/
structure TopK where
  /-- SCORE (R235 08_embedding) -/
  score : BitVec 32 := 0
  /-- TABLE (R235 08_embedding) -/
  table : Nat := 0
  /-- ROW_ID (R235 08_embedding) -/
  row : Nat := 0
  deriving DecidableEq, Repr

/-- A lookup in progress that waits for remote partials (R236 to R242). -/
structure Lookup where
  /-- the data task (R236 08_embedding) -/
  slot : Nat := 0
  /-- OPCODE (R226 08_embedding) -/
  op : Nat := 0
  /-- the request block (R227, R232 08_embedding) -/
  req : BitVec 512 := 0
  /-- TABLE (R227 08_embedding) -/
  table : Nat := 0
  /-- partials present (R240 08_embedding) -/
  parts : List PartVal := []
  /-- bags touched by a failure (R242 08_embedding) -/
  failedBags : List Nat := []
  /-- (query, candidates merged so far) (R240 08_embedding) -/
  lists : List (Nat × List TopK) := []
  /-- worst status so far (R242 08_embedding) -/
  status : Status := .ok
  /-- OUTPUT0 (R226 08_embedding) -/
  count0 : Nat := 0
  /-- OUTPUT1 (R226 08_embedding) -/
  count1 : Nat := 0
  deriving DecidableEq, Repr

/-- A received remote record (R238, R239, R287). -/
structure RemoteRec where
  /-- source chip (R239 08_embedding) -/
  src : Nat := 0
  /-- header (R238 08_embedding) -/
  header : BitVec 128 := 0
  /-- payload (R238 08_embedding) -/
  payload : List (BitVec 128) := []
  deriving DecidableEq, Repr

/-- The Embedding Engine (ch. 8 and 9). -/
structure Embedding where
  /-- tables (R219 08_embedding) -/
  tables : Sparse Table := []
  /-- closed openings, by table number, that lookups still read after the table has been opened again (R225 08_embedding, R274) -/
  retired : List (Nat × Table) := []
  /-- TABLE_RESULT (R245 08_embedding) -/
  tableResult : BitVec 32 := 0
  /-- lookups waiting for partials (R236 08_embedding) -/
  lookups : List Lookup := []
  /-- the pending table (R236 08_embedding) -/
  partials : List Partial := []
  /-- partial requests that wait for an entry of the full pending table (R236 08_embedding) -/
  unformed : List Partial := []
  /-- next partial tag (R236 08_embedding) -/
  nextTag : BitVec 24 := 0
  /-- records whose TICK is later than this chip's (R239 08_embedding) -/
  heldRecords : List RemoteRec := []
  /-- the overlay map, by index (R248 09_live_table) -/
  overlay : Sparse Overlay := []
  /-- EMB_UPDATE tasks being staged, in order of arrival (R253 09_live_table) -/
  updates : List Update := []
  /-- (address, bytes) of slots taken from the update pools (R253 09_live_table) -/
  poolAllocs : List (Nat × Nat) := []
  /-- the Hot Row Store's bytes (R255 09_live_table, R260) -/
  hot : List Host.Cell := []
  /-- (offset, bytes) in use in the Hot Row Store (R259 09_live_table, R275) -/
  hotAllocs : List (Nat × Nat) := []
  /-- the count-min sketch (R260 09_live_table) -/
  sketch : Sparse Nat := []
  /-- hot candidates (table, global row) in list order (R260 09_live_table) -/
  candidates : List (Nat × Nat) := []
  /-- candidates entered in this tick (R260 09_live_table) -/
  listed : List (Nat × Nat) := []
  /-- migrations pending (R261 09_live_table) -/
  migrations : List Migration := []
  /-- fold copies in progress (R258 09_live_table) -/
  folds : List Fold := []
  /-- latest LIMIT per owner chip, plus 1 (0: no lease) (R265 09_live_table) -/
  leases : Sparse Nat := []
  /-- chips this chip has sent replicas to (R265 09_live_table) -/
  holders : List Nat := []
  /-- LIMIT of the last lease sent (R267 09_live_table) -/
  lastLease : Option (BitVec 32) := none
  deriving DecidableEq, Repr

/-- An expert of an open exchange, at its home (R286, R290, R291). -/
structure ExpertRecv where
  /-- EXPERT (R286 10_expert) -/
  expert : Nat := 0
  /-- IN_ADDR (R286 10_expert) -/
  inAddr : Nat := 0
  /-- OUT_ADDR (R286 10_expert) -/
  outAddr : Nat := 0
  /-- MAX_ROWS (R286 10_expert) -/
  maxRows : Nat := 0
  /-- rows arrived (R291 10_expert) -/
  arrived : Nat := 0
  /-- its EXP_RECV resolved OK (R293 10_expert) -/
  ok : Bool := false
  /-- the pad rows are written (R291 10_expert) -/
  padded : Bool := false
  deriving DecidableEq, Repr

/-- An open exchange (R284 to R297). -/
structure Exchange where
  /-- TAG (R284 10_expert) -/
  tag : BitVec 32 := 0
  /-- context (R297 10_expert) -/
  ctx : Nat := 0
  /-- generation (R297 10_expert) -/
  gen : BitVec 16 := 0
  /-- partition (R200 07_shares) -/
  part : Nat := 0
  /-- TILE_MULTIPLE of EXPERT_CLASS (R291 10_expert) -/
  tm : Nat := 1
  /-- request block of EXP_SEND (R285 10_expert) -/
  req : BitVec 512 := 0
  /-- chips of the group, ascending (R277 10_expert) -/
  group : List Nat := []
  /-- local experts (R286 10_expert) -/
  experts : List ExpertRecv := []
  /-- (source chip, expert, count) of the SEND_COUNTs processed (R290 10_expert) -/
  counts : List (Nat × Nat × Nat) := []
  /-- chips whose SEND_COUNT has been processed (R290 10_expert) -/
  countFrom : List Nat := []
  /-- chips whose RETURN_COUNT has been processed (R294 10_expert) -/
  retFrom : List Nat := []
  /-- a RETURN_COUNT entry differs (R294 10_expert) -/
  retBad : Bool := false
  /-- returned rows written (R294 10_expert) -/
  retRows : Nat := 0
  /-- rows the RETURN_COUNTs announce (R294 10_expert) -/
  retExpected : Nat := 0
  /-- worst data status of sends and returns (R295 10_expert) -/
  status : Status := .ok
  /-- real time of the opening (R291 10_expert) -/
  openAt : Nat := 0
  /-- EXP_COLLECT has resolved (R284 10_expert) -/
  collected : Bool := false
  /-- EXP_RETURN has completed (R284 10_expert) -/
  returned : Bool := false
  /-- the EXP_RETURN in progress (R293 10_expert) -/
  returnTask : Option Nat := none
  /-- EXCHANGE_TIMEOUT_US has passed (R291 10_expert) -/
  timedOut : Bool := false
  /-- parked EXP_RECVs: (slot, expert) (R291 10_expert) -/
  recvParked : List (Nat × Nat) := []
  /-- the parked EXP_COLLECT (R294 10_expert) -/
  collectParked : Option Nat := none
  /-- SEND_ROWs waiting for placement (R289 10_expert) -/
  rowsHeld : List RemoteRec := []
  deriving DecidableEq, Repr

/-- The Routing Engine (ch. 10). -/
structure Routing where
  /-- open exchanges (R284 10_expert) -/
  exchanges : List Exchange := []
  /-- EXCHANGE_STREAM_SEQ (R284 10_expert) -/
  streamSeq : Sparse Nat := []
  /-- the early buffer (R289 10_expert) -/
  early : List RemoteRec := []
  /-- EXP_SEND tasks waiting because 8 exchanges are open (R284 10_expert) -/
  sendWaits : List Nat := []
  deriving DecidableEq, Repr

/-- A set of chunks of 256 stripe rows, as a range with exceptions (R320, R428). -/
structure ChunkSet where
  /-- every chunk not listed is in the set (R320 11_memory_stripes) -/
  all : Bool := false
  /-- chunks for which the contrary holds (R320 11_memory_stripes) -/
  except : List Nat := []
  deriving DecidableEq, Repr

/-- An outstanding tag of a memory port (R300 to R305). -/
structure MemTag where
  /-- TAG (R300 11_memory_stripes) -/
  tag : Nat := 0
  /-- OP, with what the request serves (R300 11_memory_stripes) -/
  op : MemOp := .read
  /-- ADDR sent (R300 11_memory_stripes) -/
  port : Nat := 0
  /-- device address of the block, or the number of a parity block; of a check block, that of the first block of its code
  group; of a REPAIR, the port page (R306, R309 11_memory_stripes) -/
  addr : Nat := 0
  /-- the block is the check block of the code group (R309 11_memory_stripes) -/
  chk : Bool := false
  /-- of a data or parity block being read: its check block, once answered (R311, R313 11_memory_stripes) -/
  check : Option (BitVec 512) := none
  /-- its check block was answered ERROR (R302 11_memory_stripes) -/
  bad : Bool := false
  /-- requester (R305 11_memory_stripes) -/
  src : MemSource := .unit
  /-- CONTEXT (R305 11_memory_stripes) -/
  ctx : Nat := 0
  /-- GENERATION (R305 11_memory_stripes) -/
  gen : BitVec 16 := 0
  /-- HINT of the request (R302 11_memory_stripes) -/
  hint : Nat := 0
  /-- WAYS of the request (R201 07_shares) -/
  ways : Nat := 0
  deriving DecidableEq, Repr

/-- A block that has been read and waits for its check block (R311, R313). -/
structure Arrived where
  /-- the tag that it answered (R301 11_memory_stripes) -/
  t : MemTag := {}
  /-- the beat (R301 11_memory_stripes) -/
  data : BitVec 512 := 0
  /-- STATUS was ERROR (R301 11_memory_stripes) -/
  error : Bool := false
  deriving DecidableEq, Repr

/-- A page being repaired, restored or retired (R324, R325). -/
structure PageOp where
  /-- port page (R325 11_memory_stripes) -/
  page : Nat := 0
  /-- repair to send, repair sent, or reconstructing (R325 11_memory_stripes) -/
  phase : PagePhase := .repairWanted
  /-- the spare taken, for a retirement (R325 11_memory_stripes) -/
  spare : Option Nat := none
  /-- the retire table entry that it will write (R324 11_memory_stripes) -/
  place : Nat := 0
  deriving DecidableEq, Repr

/-- A memory port (R317 to R327). -/
structure MemPort where
  /-- MEM_PORT_STATE of a port the build has (R317 11_memory_stripes) -/
  state : MemPortState := .untrained
  /-- pin PORT_OFFLINE (R318 11_memory_stripes, R503 19_ports) -/
  offline : Bool := false
  /-- pin PORT_OFFLINE_GRANT (R318 11_memory_stripes, R497 19_ports) -/
  grant : Bool := false
  /-- the offline period is an OFFLINE_REPLACE (R319 11_memory_stripes) -/
  replace : Bool := false
  /-- the offline period was asked for by MEM_PORT_CONTROL (R319 11_memory_stripes) -/
  bySoftware : Bool := false
  /-- every chunk is marked on entry to REBUILDING (R320 11_memory_stripes) -/
  everyChunk : Bool := false
  /-- chunks marked since it left ONLINE, kept for it where the bitmap is cleared for another port (R320 11_memory_stripes) -/
  missed : ChunkSet := {}
  /-- order of entry to REBUILDING (R323 11_memory_stripes) -/
  rebuildAt : Nat := 0
  /-- outstanding tags (R302 11_memory_stripes) -/
  tags : List MemTag := []
  /-- next tag tried (R302 11_memory_stripes) -/
  nextTag : Nat := 0
  /-- requests still to be presented, oldest first (R300, R313 11_memory_stripes) -/
  queue : List MemTag := []
  /-- blocks read that wait for their check block (R313 11_memory_stripes) -/
  arrived : List Arrived := []
  /-- rows of the chunk being rebuilt that are done (R321 11_memory_stripes) -/
  rebuildRow : Nat := 0
  /-- retire table (R326 11_memory_stripes) -/
  retire : Sparse Nat := []
  /-- pages being repaired, restored or retired, oldest first (R325 11_memory_stripes) -/
  ops : List PageOp := []
  /-- training has finished since START_GO or the L4 (R427 15_start) -/
  trained : Bool := false
  /-- wipe-pending chunks (R428 15_start) -/
  wipe : ChunkSet := {}
  /-- pin MP_RESET_N (R497 19_ports) -/
  resetN : Bool := false
  /-- pin MP_SELF_REFRESH (R497 19_ports) -/
  selfRefresh : Bool := false
  /-- pin MP_SELF_REFRESH_ACK (R503 19_ports) -/
  ackRefresh : Bool := false
  deriving DecidableEq, Repr

/-- A read held for an unusable member (R315). -/
structure HeldRead where
  /-- the model's number for it (R315 11_memory_stripes) -/
  id : Nat := 0
  /-- device address (R315 11_memory_stripes) -/
  addr : Nat := 0
  /-- requester (R315 11_memory_stripes) -/
  src : MemSource := .unit
  /-- its own port was usable and its block uncorrectable (R315 11_memory_stripes) -/
  uncorr : Bool := false
  /-- CONTEXT (R305 11_memory_stripes) -/
  ctx : Nat := 0
  /-- GENERATION (R305 11_memory_stripes) -/
  gen : BitVec 16 := 0
  /-- HINT of the request (R302 11_memory_stripes) -/
  hint : Nat := 0
  /-- WAYS of the request (R201 07_shares) -/
  ways : Nat := 0
  /-- the members that are usable have been read and decode: it waits for the others (R315 11_memory_stripes) -/
  probed : Bool := false
  deriving DecidableEq, Repr

/-- A write held because its row has two unusable members (R316). -/
structure HeldWrite where
  /-- the model's number for it (R316 11_memory_stripes) -/
  id : Nat := 0
  /-- device address of the first byte (R316 11_memory_stripes) -/
  addr : Nat := 0
  /-- the bytes, all of one block (R316 11_memory_stripes) -/
  bytes : List (BitVec 8) := []
  /-- requester (R316 11_memory_stripes) -/
  src : MemSource := .unit
  /-- HINT of the request (R302 11_memory_stripes) -/
  hint : Nat := 0
  /-- WAYS of the request (R201 07_shares) -/
  ways : Nat := 0
  deriving DecidableEq, Repr

/-- A block being reconstructed from the other members of its row (R315). -/
structure Recon where
  /-- the model's number for it (R315 11_memory_stripes) -/
  id : Nat := 0
  /-- device address of the block, or the number of a parity block (R315 11_memory_stripes) -/
  addr : Nat := 0
  /-- requester (R315 11_memory_stripes) -/
  src : MemSource := .unit
  /-- its own port was usable and its block uncorrectable (R315 11_memory_stripes) -/
  own : Bool := false
  /-- CONTEXT (R305 11_memory_stripes) -/
  ctx : Nat := 0
  /-- GENERATION (R305 11_memory_stripes) -/
  gen : BitVec 16 := 0
  /-- HINT of the request (R302 11_memory_stripes) -/
  hint : Nat := 0
  /-- WAYS of the request (R201 07_shares) -/
  ways : Nat := 0
  /-- positions whose blocks are still to come (R315 11_memory_stripes) -/
  left : List Nat := []
  /-- XOR of the blocks that have come (R315 11_memory_stripes) -/
  acc : BitVec 512 := 0
  /-- the column has been written meanwhile: the accepted bytes are returned (R303, R329 11_memory_stripes) -/
  stale : Bool := false
  /-- a member was not usable when it began: the members read tell only whether the read fails or waits (R315 11_memory_stripes) -/
  part : Bool := false
  deriving DecidableEq, Repr

/-- A stripe row being read block by block (R321, R325, R328). -/
structure RowWork where
  /-- the model's number for it (R328 11_memory_stripes) -/
  id : Nat := 0
  /-- group (R328 11_memory_stripes) -/
  group : Nat := 0
  /-- row (R328 11_memory_stripes) -/
  row : Nat := 0
  /-- what for (R321, R325, R328 11_memory_stripes) -/
  kind : RowKind := .scrub
  /-- blocks still to come (R328 11_memory_stripes) -/
  left : Nat := 0
  /-- XOR of the blocks that have come, by block (R314 11_memory_stripes) -/
  acc : Sparse Nat := []
  /-- the parity blocks that have come, by block (R314, R328 11_memory_stripes) -/
  par : Sparse Nat := []
  /-- (block, position) of blocks that did not decode (R312 11_memory_stripes) -/
  bad : List (Nat × Nat) := []
  deriving DecidableEq, Repr

/-- The Memory Stripe Unit (ch. 11). -/
structure Stripe where
  /-- device memory: the bytes last accepted (R303) (R306 11_memory_stripes) -/
  mem : List Host.Cell := []
  /-- blocks whose own copy does not decode and which parity still covers (R302, R312 11_memory_stripes) -/
  weak : List Nat := []
  /-- blocks written as lost (a parity block by the number parityKey gives it) (R322 11_memory_stripes) -/
  lost : List Nat := []
  /-- memory ports (R317 11_memory_stripes) -/
  ports : Sparse MemPort := []
  /-- rebuild bitmaps by group (R320 11_memory_stripes) -/
  bitmap : Sparse ChunkSet := []
  /-- reads held (R315 11_memory_stripes) -/
  heldReads : List HeldRead := []
  /-- writes held (R316 11_memory_stripes) -/
  heldWrites : List HeldWrite := []
  /-- next number of a held read or write, a reconstruction or a row's work (R315 11_memory_stripes) -/
  nextHeld : Nat := 0
  /-- blocks whose WRITE was answered ERROR: their next read counts as uncorrectable; a check block by the first address of
  its code group plus 1 (R302 11_memory_stripes) -/
  badWrites : List Nat := []
  /-- blocks being reconstructed (R315 11_memory_stripes) -/
  recons : List Recon := []
  /-- rows being rebuilt, restored or scrubbed (R321, R325, R328 11_memory_stripes) -/
  rows : List RowWork := []
  /-- who is reading and will wait for a member that is not usable (R315 11_memory_stripes) -/
  asker : Option MemSource := none
  /-- the block that a reading must wait for (R315 11_memory_stripes) -/
  stuck : Option Nat := none
  /-- readers whose wait has timed out: their reading fails (R315 11_memory_stripes) -/
  expired : List MemSource := []
  /-- what a parity block holds beside the XOR of the bytes last accepted: the data a scrub has read was not those (R328 11_memory_stripes) -/
  parity : Sparse Nat := []
  /-- next row of the scrubber by group (R328 11_memory_stripes) -/
  scrubRow : Sparse Nat := []
  /-- groups whose every row the scrubber has visited in this period (R328 11_memory_stripes) -/
  scrubDone : List Nat := []
  /-- order counter of entries to REBUILDING (R323 11_memory_stripes) -/
  order : Nat := 0
  deriving DecidableEq, Repr

/-- Bits in the order of the wire, the first one at bit 0 (R332, R333). -/
structure BitBuf where
  /-- bits held (R333 12_optical) -/
  len : Nat := 0
  /-- the bits (R333 12_optical) -/
  val : Nat := 0
  deriving DecidableEq, Repr

/-- The transmit side of a virtual channel of a link port (R341 to R343). -/
structure TxVc where
  /-- next SEQ (R336, R342 12_optical) -/
  nextSeq : BitVec 13 := 0
  /-- flits placed and not yet sent, in arrival order, each with the records or pieces of records packed into it: the
  requester that waits for its acceptance, and its slots (R337, R340, R348 12_optical) -/
  queue : List (BitVec 2048 × List (FlitOwner × Nat)) := []
  /-- flits sent and not acknowledged, oldest first (R343 12_optical) -/
  replay : List (BitVec 2048) := []
  /-- how many of them need no sending now; a replay puts it back to 0 (R343 12_optical) -/
  sentTo : Nat := 0
  /-- replays of the oldest flit without progress (R343 12_optical) -/
  retries : Nat := 0
  /-- the partner's STOP (R341 12_optical) -/
  stop : Bool := false
  deriving DecidableEq, Repr

/-- The receive side of a virtual channel of a link port (R341, R342). -/
structure RxVc where
  /-- next SEQ expected (R342 12_optical) -/
  expect : BitVec 13 := 0
  /-- NAK (R342 12_optical) -/
  nak : Bool := false
  /-- STOP (R342 12_optical) -/
  stop : Bool := false
  /-- receive buffer of the VC, both classes, in arrival order (R342 12_optical) -/
  buf : List (BitVec 2048) := []
  deriving DecidableEq, Repr

/-- An announced lane set (R335). -/
structure LaneChange where
  /-- LANES_NEXT (R335 12_optical) -/
  lanes : BitVec 16 := 0
  /-- LANE_CHANGE_ID (R335 12_optical) -/
  id : BitVec 8 := 0
  /-- the partner has echoed it (R335 12_optical) -/
  acked : Bool := false
  deriving DecidableEq, Repr

/-- A link port (ch. 12). -/
structure LinkPort where
  /-- LINK_STATE of a port the build has (R350 12_optical) -/
  state : LinkState := .disabled
  /-- transmit side by VC (R343 12_optical) -/
  tx : Sparse TxVc := []
  /-- receive side by VC (R342 12_optical) -/
  rx : Sparse RxVc := []
  /-- VC that round-robin serves next (R343 12_optical) -/
  rr : Nat := 0
  /-- VC whose acknowledgement the next flit carries (R336 12_optical) -/
  ackVc : Nat := 0
  /-- a control flit is owed (R341 12_optical) -/
  owed : Bool := false
  /-- active transmit lanes (R335 12_optical) -/
  lanes : BitVec 16 := 0
  /-- the announcement outstanding (R335 12_optical) -/
  change : Option LaneChange := none
  /-- LANE_CHANGE_ID of the latest announcement (R341 12_optical) -/
  changeId : BitVec 8 := 0
  /-- LANES_NEXT, the set announced last; 0 before any announcement (R341 12_optical) -/
  announced : BitVec 16 := 0
  /-- the partner's announcement echoed (R341 12_optical) -/
  echo : Option (BitVec 8) := none
  /-- a control flit has carried that echo (R335, R341 12_optical) -/
  echoSent : Bool := false
  /-- active receive lanes (R335 12_optical) -/
  rxLanes : BitVec 16 := 0
  /-- the set that the partner's announcement names for its transmit direction (R335 12_optical) -/
  rxNext : Option (BitVec 16) := none
  /-- flit bits that do not fill a message yet (R333 12_optical) -/
  txMsg : BitBuf := {}
  /-- symbols of the coming codeword that Solder inverts (R358 12_optical) -/
  txSymbols : Nat := 0
  /-- place, among the active transmit lanes in ascending order, of the lane of the next codeword (R333 12_optical) -/
  txTurn : Nat := 0
  /-- codewords sent on the lowest active transmit lane (R335 12_optical) -/
  txIndex : Nat := 0
  /-- by lane, coded bits that do not fill a lane word yet (R332 12_optical) -/
  txLine : Sparse BitBuf := []
  /-- by lane, bits received that do not fill a codeword yet (R332, R333 12_optical) -/
  rxLine : Sparse BitBuf := []
  /-- place, among the active receive lanes in ascending order, of the lane of the next codeword (R333 12_optical) -/
  rxTurn : Nat := 0
  /-- codewords received on the lowest active receive lane (R335 12_optical) -/
  rxIndex : Nat := 0
  /-- flit bits decoded and not yet taken as flits (R333 12_optical) -/
  rxMsg : BitBuf := {}
  /-- the bits among them that come from failed codewords (R334 12_optical) -/
  rxBad : BitBuf := {}
  /-- pins LANE_SIGNAL_OK as last seen (R332 12_optical) -/
  signalOk : BitVec 16 := 0xFFFF
  /-- lanes removed for loss of signal or calibration (R335 12_optical) -/
  removed : BitVec 16 := 0
  /-- LINK_NEIGHBOR (R352 12_optical) -/
  neighbor : BitVec 512 := 0
  /-- LINK_DELAY (R353 12_optical) -/
  delay : Nat := 0
  /-- pin LP_RESET_N (R497 19_ports) -/
  resetN : Bool := false
  /-- pins LANE_TX_ON (R332 12_optical, R497) -/
  txOn : BitVec 16 := 0
  /-- LINK_LOOPBACK runs (R440 15_start) -/
  loopback : Bool := false
  /-- the port has locked in Morning and stays in TRAINING until Noon (R425, R426 15_start) -/
  locked : Bool := false
  /-- a flit REORDER holds back (R358 12_optical) -/
  solderHeld : Option (BitVec 2048) := none
  deriving DecidableEq, Repr

/-- A destination's state for one (source chip, VC) (R346). -/
structure StreamIn where
  /-- state is kept (R346 12_optical) -/
  known : Bool := false
  /-- incarnation (R346 12_optical) -/
  incarnation : BitVec 2 := 0
  /-- next STREAM_SEQ (R346 12_optical) -/
  expected : BitVec 18 := 0
  /-- family of the open record (R337 12_optical) -/
  family : Nat := 0
  /-- slots of the open record received so far (R337 12_optical) -/
  open_ : List (BitVec 128) := []
  deriving DecidableEq, Repr

/-- A data flit delivered whose slots hold a receive buffer entry until their records are taken (R340, R342). -/
structure RxFlit where
  /-- arrival port (R342 12_optical) -/
  port : Nat := 0
  /-- SRC (R336 12_optical) -/
  src : Nat := 0
  /-- VC (R336 12_optical) -/
  vc : Nat := 0
  /-- CLASS (R336 12_optical) -/
  cls : Bool := false
  /-- slots not yet taken (R340 12_optical) -/
  slots : Nat := 0
  deriving DecidableEq, Repr

/-- A complete record delivered and not yet taken by its consumer (R337, R340). -/
structure Delivered where
  /-- arrival port; none for a record to this chip itself (R337 12_optical) -/
  port : Option Nat := none
  /-- SRC (R337 12_optical) -/
  src : Nat := 0
  /-- VC (R337 12_optical) -/
  vc : Nat := 0
  /-- FAMILY (R337 12_optical) -/
  family : Nat := 0
  /-- CLASS of its flits (R342 12_optical) -/
  cls : Bool := false
  /-- header and payload slots (R337 12_optical) -/
  slots : List (BitVec 128) := []
  /-- its consumer could not take it: its VC stalls on its arrival port (R340 12_optical) -/
  held : Bool := false
  /-- words of a QUEUE record that the queue has taken (R340 12_optical, R514 05_flows) -/
  got : Nat := 0
  deriving DecidableEq, Repr

/-- The Link Layer (ch. 12). -/
structure Links where
  /-- link ports (R350 12_optical) -/
  ports : Sparse LinkPort := []
  /-- LINK_INCARNATION (R345 12_optical) -/
  incarnation : BitVec 2 := 0
  /-- next STREAM_SEQ by (DST, VC) (R345 12_optical) -/
  streamOut : Sparse Nat := []
  /-- by (source chip, VC) (R346 12_optical) -/
  streamIn : Sparse StreamIn := []
  /-- records delivered, in order, those held first (R339, R340 12_optical) -/
  inbox : List Delivered := []
  /-- flits delivered of which slots are still in the receive buffers, in order (R342 12_optical) -/
  rxFlits : List RxFlit := []
  /-- SOLDER_ARM (R360 12_optical) -/
  solderArmed : Bool := false
  /-- matching flits counted (R359 12_optical) -/
  solderMatched : Nat := 0
  /-- injections since arming (R358 12_optical) -/
  solderInjected : Nat := 0
  /-- boundaries since the latest tick mark (R127 04_frame_tick) -/
  noMarkTicks : Nat := 0
  deriving DecidableEq, Repr

/-- An input due in a replay, read from the log (R380, R386). -/
structure LogEntry where
  /-- header (R380 13_repeatability) -/
  header : BitVec 512 := 0
  /-- body words (R380 13_repeatability) -/
  body : List (BitVec 512) := []
  deriving DecidableEq, Repr

/-- The replay log unit and the counter generator's probe (ch. 13). -/
structure Replay where
  /-- REPLAY_CONTROL in force: 0 OFF, 1 RECORD, 2 REPLAY (R379 13_repeatability) -/
  mode : Nat := 0
  /-- a change that takes effect at the next boundary (R379 13_repeatability) -/
  wanted : Option Nat := none
  /-- LOG_PRODUCED (R379 13_repeatability) -/
  produced : BitVec 32 := 0
  /-- LOG_CONSUMED (R379 13_repeatability) -/
  consumed : BitVec 32 := 0
  /-- REPLAY_STATUS (R389 13_repeatability) -/
  status : Nat := 0
  /-- REPLAY_DIVERGE (R387 13_repeatability) -/
  diverge : BitVec 512 := 0
  /-- next ORDER by TICK, of the current tick and the ticks to come (R380 13_repeatability) -/
  orders : Sparse Nat := []
  /-- acceptance position of the next record of this frame (R381 13_repeatability) -/
  acceptPos : Nat := 0
  /-- sum of result hashes of the frame (R384 13_repeatability) -/
  sum : Nat := 0
  /-- results released in the frame (R381 13_repeatability) -/
  releasedInFrame : Nat := 0
  /-- the START entry is logged (RECORD) or compared (REPLAY) (R385 13_repeatability) -/
  started : Bool := false
  /-- entries of the current tick taken from the log and not yet reproduced (R386 13_repeatability) -/
  due : List LogEntry := []
  /-- contexts a FAULT entry named (R388 13_repeatability) -/
  skipCtx : List Nat := []
  /-- the frame holds an L3 or higher FAULT (R388 13_repeatability) -/
  skipFrame : Bool := false
  /-- a replay hold is in force (R386 13_repeatability) -/
  held : Bool := false
  /-- an input is held for want of room in the log (R382 13_repeatability) -/
  waiting : Bool := false
  /-- words of entries that wait for room in the ring, oldest first (R382 13_repeatability) -/
  backlog : List (BitVec 512) := []
  /-- the phases of a boundary run: an input logged now belongs to this boundary (R380 13_repeatability) -/
  inPhases : Bool := false
  /-- sum of the hashes of the frame's results that comparison skips (R388 13_repeatability) -/
  skipSum : Nat := 0
  /-- the number of them (R388 13_repeatability) -/
  skipCount : Nat := 0
  /-- RESULT entries of the frame taken from the log (R387 13_repeatability) -/
  loggedCount : Nat := 0
  /-- sum of their hashes that comparison skips (R388 13_repeatability) -/
  loggedSkip : Nat := 0
  /-- RNG_PROBE_OUT (R372 13_repeatability) -/
  probeOut : BitVec 64 := 0
  deriving DecidableEq, Repr

/-- An L0 in progress (R402). -/
structure L0 where
  /-- context (R402 14_faults) -/
  ctx : Nat := 0
  /-- cause (R401 14_faults) -/
  cause : Nat := 0
  /-- hub cycle of event zero (R402 14_faults) -/
  start : Nat := 0
  /-- step 5 is done and the cleanup walks run (R402 14_faults) -/
  complete : Bool := false
  /-- the generation that ended (R402 14_faults) -/
  oldGen : BitVec 16 := 0
  /-- the partition whose L2 started it (R397 14_faults) -/
  byReset : Option Nat := none
  /-- its step 4 waits for the next boundary (R404 14_faults) -/
  waitTick : Bool := false
  deriving DecidableEq, Repr

/-- A reset at L2 to L5 in progress (R395, R397). -/
structure LevelReset where
  /-- level (R395 14_faults) -/
  level : Nat := 0
  /-- target (R422 14_faults) -/
  target : Nat := 0
  /-- cause (R419 14_faults) -/
  cause : Nat := 0
  /-- it counts toward escalation when it completes (R410 14_faults) -/
  counts : Bool := false
  /-- it wipes the items of R429 too (R429, R464) -/
  wiping : Bool := false
  /-- engine ports whose L1 is still to complete (R397 14_faults) -/
  ports : List Nat := []
  deriving DecidableEq, Repr

/-- The shadow snapshot each unit leaves on the scan path at a tick boundary (R25, R418). -/
structure Shadow where
  /-- a boundary has been produced (R418 14_faults) -/
  taken : Bool := false
  /-- the tick unit at the latest boundary (R418 14_faults) -/
  tick : TickUnit := {}
  /-- the Graph Loader (R418 14_faults) -/
  loader : Loader := {}
  /-- the Matching Store (R418 14_faults) -/
  mat : Matching := {}
  /-- Dispatchers and engine ports (R418 14_faults) -/
  disp : Dispatch := {}
  /-- contexts, flows, Delay Lists (R418 14_faults) -/
  adm : Admission := {}
  /-- the Queue Manager (R418 14_faults) -/
  qs : Queues := {}
  /-- the Signal Unit (R418 14_faults) -/
  sig : Signals := {}
  /-- the Embedding Engine (R418 14_faults) -/
  emb : Embedding := {}
  /-- the Routing Engine (R418 14_faults) -/
  route : Routing := {}
  /-- the Memory Stripe Unit (R418 14_faults) -/
  stripe : Stripe := {}
  /-- the Link Layer (R418 14_faults) -/
  links : Links := {}
  /-- the alarm latches of every unit (R33 01_gisar_hub, R418 14_faults) -/
  latches : Sparse Latch := []
  /-- the Reset Sequencer's ESCALATION_HISTORY (R418, R422 14_faults) -/
  history : List Nat := []
  /-- its TEARDOWN_REPORT (R418, R422 14_faults) -/
  report : BitVec 128 := 0
  deriving DecidableEq, Repr

/-- The Dump Path and dump SRAM (R417 to R420). -/
structure Dump where
  /-- DUMP_STATE: 0 empty, 1 in progress, 2 held (R422 14_faults) -/
  state : Nat := 0
  /-- the dump (R419 14_faults) -/
  bytes : List (BitVec 8) := []
  /-- TRIGGER of the dump in progress (R419 14_faults) -/
  trigger : Nat := 0
  /-- CAUSE (R419 14_faults) -/
  cause : Nat := 0
  /-- the units' states at the trigger (R418 14_faults) -/
  live : Shadow := {}
  /-- the shadow snapshots at the trigger (R418 14_faults) -/
  prev : Shadow := {}
  /-- TICK at the trigger (R419 14_faults) -/
  tick : BitVec 64 := 0
  /-- HC at the trigger (R419 14_faults) -/
  hc : BitVec 32 := 0
  /-- units read before DEBUG_LEVEL was lowered from OPEN during the dump: the data contents of the rest are zero (R470 16_management) -/
  read : Option Nat := none
  deriving DecidableEq, Repr

/-- An SRAM array's sparing state (R415, R441). -/
structure Sram where
  /-- the bank replaced by the spare (R415 14_faults) -/
  spared : Option Nat := none
  /-- the spare is lent to SRAM_BIST (R441 15_start) -/
  testing : Bool := false
  deriving DecidableEq, Repr

/-- The Reset Sequencer and Health Monitor (ch. 14). -/
structure Resets where
  /-- L0s in progress (R402 14_faults) -/
  l0s : List L0 := []
  /-- the resets at L2 to L5 in progress: one, or L2s of several partitions (R395, R398 14_faults) -/
  levels : List LevelReset := []
  /-- the hub is in Night (R411 14_faults) -/
  night : Bool := false
  /-- ESCALATION_HISTORY, newest first (R410 14_faults) -/
  history : List Nat := []
  /-- TEARDOWN_REPORT (R402 14_faults) -/
  report : BitVec 128 := 0
  /-- the dump (R417 14_faults) -/
  dump : Dump := {}
  /-- SRAM arrays (R415 14_faults) -/
  sram : Sparse Sram := []
  /-- Hot Row Store slots (offset, bytes) with an uncorrectable word (R416 14_faults) -/
  hotBad : List (Nat × Nat) := []
  /-- address and bytes of the MEM_ZERO_FILL in progress (R405 14_faults) -/
  zeroFill : Option (Nat × Nat) := none
  /-- ms of the latest controller watchdog expiry (R394 14_faults) -/
  mcExpired : Option Nat := none
  /-- real time of the latest MC_HEARTBEAT (R394 14_faults) -/
  mcBeat : Nat := 0
  deriving DecidableEq, Repr

/-- The Self-Test Scheduler (R440 to R443). -/
structure SelfTest where
  /-- SELFTEST_STATE: 0 idle, 1 draining, 2 running (R445 15_start) -/
  state : Nat := 0
  /-- kind of the test in progress (R440 15_start) -/
  kind : Nat := 0
  /-- its target (R440 15_start) -/
  target : Nat := 0
  /-- SELFTEST_RESULT (R445 15_start) -/
  result : BitVec 32 := 0
  /-- a forced test waits for its boundary (R443 15_start) -/
  waitTick : Bool := false
  /-- LANE_CAL has removed the lane, which it returns at its end (R442 15_start) -/
  tookLane : Bool := false
  deriving DecidableEq, Repr

/-- Start, clocks, regions and power states (ch. 15). -/
structure Power where
  /-- START_STAGE: 0 Dawn, 1 Morning, 2 Noon (R423 15_start) -/
  stage : Nat := 0
  /-- START_GO has been written since the start (R424 15_start) -/
  started : Bool := false
  /-- the Noon limit has passed; Noon begins at the next boundary (R426 15_start) -/
  noonLate : Bool := false
  /-- the start is a P3 exit and waits for CORE_PWR_GOOD (R439 15_start) -/
  p3Exit : Bool := false
  /-- the previous level, kept for conversions until 50 µs after a lowering (R431 15_start) -/
  settle : Option Nat := none
  /-- the time of the latest change of CLK_REQ, where it was a raise (R431 15_start) -/
  raisedAt : Option Nat := none
  /-- the throttle level (R433 15_start) -/
  throttle : Nat := 8
  /-- the latest readings ask for a fall (R433 15_start) -/
  hot : Bool := false
  /-- the latest readings allow a rise (R433 15_start) -/
  cool : Bool := true
  /-- THERMAL_SENSORS, 0.01 °C (R433 15_start) -/
  sensors : List Int := []
  /-- REGION_VOLTAGE_DIFF, two's complement (R435 15_start) -/
  voltages : Sparse Nat := []
  /-- HCLK_MEASURED_KHZ (R445 15_start) -/
  hclkKhz : Nat := 0
  /-- POWER_STATE (R436 15_start) -/
  state : Nat := 0
  /-- POWER_RESULT (R437 15_start) -/
  result : Nat := 0
  /-- the power request in progress (R437 15_start) -/
  target : Option Nat := none
  /-- the drain of R438 runs (R438 15_start) -/
  draining : Bool := false
  /-- the drain is complete; entry proceeds at the next boundary (R438 15_start) -/
  drained : Bool := false
  /-- the P3 in force was entered by a thermal trip (R434 15_start, R470 16_management) -/
  tripped : Bool := false
  /-- the self-test in progress (R440 15_start) -/
  selfTest : SelfTest := {}
  deriving DecidableEq, Repr

/-- An MCTP message assembled or being assembled (R452). -/
structure Msg where
  /-- endpoint ID of the sender (R452 16_management) -/
  eid : Nat := 0
  /-- message tag (R452 16_management) -/
  tag : Nat := 0
  /-- packet sequence number expected next (R452 16_management) -/
  seq : Nat := 0
  /-- message bytes (R452 16_management) -/
  bytes : List (BitVec 8) := []
  deriving DecidableEq, Repr

/-- A debug-level change waiting for its L4 (R464). -/
structure PendingDebug where
  /-- the level that takes effect when the L4 completes (R464 16_management) -/
  level : Nat := 0
  deriving DecidableEq, Repr

/-- Management, life-cycle, debug, firmware, MCTP and I3C (ch. 16). -/
structure Mgmt where
  /-- LC_COUNT (R456 16_management) -/
  lcCount : Nat := 0
  /-- OWNER_KEY, first byte highest (R456 16_management) -/
  ownerKey : BitVec 768 := 0
  /-- FW_SVN as a number (R456 16_management) -/
  fwSvn : Nat := 0
  /-- DEBUG_LEVEL (R459 16_management) -/
  debugLevel : Nat := 2
  /-- a change that waits for its L4 (R464 16_management) -/
  pendingDebug : Option PendingDebug := none
  /-- the L4 of a life-cycle change runs (R458 16_management) -/
  lcChange : Bool := false
  /-- the valid nonce (R462 16_management) -/
  nonce : Option (BitVec 384) := none
  /-- AUTH_RESULT (R464 16_management) -/
  authResult : Nat := 0
  /-- AUTH_FAILURES (R471 16_management) -/
  authFailures : Nat := 0
  /-- SOLDER_GRANT (R464 16_management) -/
  solderGrant : BitVec 16 := 0
  /-- FW_STATE (R466 16_management) -/
  fwState : Nat := 0
  /-- instruction SRAM: image bytes by address (R466 16_management) -/
  fwImage : Sparse Nat := []
  /-- FW_DIGEST, first byte highest (R471 16_management) -/
  fwDigest : BitVec 384 := 0
  /-- MCTP_EID (R471 16_management) -/
  eid : Nat := 0
  /-- I3C_DYNAMIC_ADDR (R471 16_management) -/
  dynAddr : Nat := 0
  /-- maximum write length (R451 16_management) -/
  mwl : Nat := 0
  /-- maximum read length (R451 16_management) -/
  mrl : Nat := 0
  /-- message being assembled (R452 16_management) -/
  assembling : Option Msg := none
  /-- requests waiting (R452 16_management) -/
  waiting : List Msg := []
  /-- MCTP packets pending for private reads (R451 16_management) -/
  packets : List (List (BitVec 8)) := []
  deriving DecidableEq, Repr

/-- The dictionary window (R454, R455). -/
structure Window where
  /-- REQUEST (R454 16_management) -/
  request : BitVec 128 := 0
  /-- RESPONSE (R454 16_management) -/
  response : BitVec 128 := 0
  /-- REQUEST_VALUE by byte (R454 16_management) -/
  reqValue : Sparse Nat := []
  /-- RESPONSE_VALUE; bytes past its end read zero (R454 16_management) -/
  rspValue : List (BitVec 8) := []
  /-- DONE_SEQ (R454 16_management) -/
  doneSeq : Nat := 0
  /-- COLLISION (R454 16_management) -/
  collision : Bool := false
  /-- DONE (R454 16_management) -/
  done : Bool := false
  /-- IN_PROGRESS (R454 16_management) -/
  inProgress : Bool := false
  /-- MCTP requests that reached the dictionary before the request in progress (R446 16_management) -/
  ahead : Nat := 0
  /-- time of the GO of the request in progress, in units of the model's clock (R446 16_management) -/
  goAt : Nat := 0
  deriving DecidableEq, Repr

/-- Hub-wide pins (R497). -/
structure Pins where
  /-- RESET_N (R497 19_ports) -/
  resetN : Bool := true
  /-- CORE_PWR_GOOD (R507 19_ports) -/
  corePwrGood : Bool := true
  /-- CLK_REQ, the requested level (CLOCK_LEVEL) (R430 15_start) -/
  clkReq : Nat := 0
  /-- ALARM_N (R483 17_counters) -/
  alarmN : Bool := true
  /-- TRAY_PWR_REQ_N (R397 14_faults) -/
  trayPwrReqN : Bool := true
  /-- CORE_PWR_REQ (R439 15_start) -/
  corePwrReq : Bool := true
  deriving DecidableEq, Repr

/-- The machine. -/
structure State where
  /-- build parameters (R2, R8 00_scope) -/
  build : Build := {}
  /-- hub time and the free-value counter (R14 00_scope, R26 01_gisar_hub) -/
  clk : Clk := {}
  /-- the tick unit (R100 04_frame_tick) -/
  tick : TickUnit := {}
  /-- the object dictionary's store and the counters (R28 01_gisar_hub) -/
  dict : Dict := {}
  /-- alarm latches and the Brass packer (R482 17_counters) -/
  tele : Telemetry := {}
  /-- Graph Loader, image slots, live instances (R45 02_graph) -/
  loader : Loader := {}
  /-- Matching Store and Ready Lists (R68 03_matching) -/
  mat : Matching := {}
  /-- Dispatchers, engine ports, pre-emption (R82 03_matching) -/
  disp : Dispatch := {}
  /-- contexts, hold pool, Flow Table, Delay Lists, carried list (R111 04_frame_tick) -/
  adm : Admission := {}
  /-- Queue Manager (R129 05_flows) -/
  qs : Queues := {}
  /-- Signal Unit (R160 06_signals) -/
  sig : Signals := {}
  /-- Embedding Engine (R219 08_embedding) -/
  emb : Embedding := {}
  /-- Routing Engine (R276 10_expert) -/
  route : Routing := {}
  /-- Memory Stripe Unit and device memory (R300 11_memory_stripes) -/
  stripe : Stripe := {}
  /-- Link Layer (R332 12_optical) -/
  links : Links := {}
  /-- replay log (R379 13_repeatability) -/
  replay : Replay := {}
  /-- Reset Sequencer, Health Monitor, dump, SRAM (R390 14_faults) -/
  resets : Resets := {}
  /-- start stages, clocks, power states, self-test (R423 15_start) -/
  power : Power := {}
  /-- life-cycle, debug, firmware, MCTP, I3C (R446 16_management) -/
  mgmt : Mgmt := {}
  /-- the dictionary window (R454 16_management) -/
  win : Window := {}
  /-- the shadow snapshots of the latest boundary (R418 14_faults) -/
  shadow : Shadow := {}
  /-- hub-wide pins (R497 19_ports) -/
  pins : Pins := {}
  /-- what the latest command presented on the output ports (the MODEL'S OWN field, not the spec's (log 21)) -/
  out : List Emit := []
  /-- commands waiting, first in first out (the MODEL'S OWN queue of waiting commands) -/
  pending : List Instr := []
  deriving DecidableEq, Repr

/-- The machine right after reset: every field at its default (R400, R507; the log names what the spec leaves open). -/
def State.reset : State := {}

end Sys2Proof.Machine
end

