-- ==== Sys2Proof/Machine/Ops.lean ====
section
/-! DEFINITION. The named operations every family uses: dictionary values in force, counters, alarms, time, output, and
reading and changing one entry of each of the hub's tables. -/
namespace Sys2Proof.Machine

/-- Place of an object's element in the dictionary's stores. -/
def dictKey (key elem : Nat) : Nat := key * 2 ^ 20 + elem

/-- The default of an object (R486, R487); STRIPE_GROUP_SIZE defaults to the build's memory ports (R307). -/
def State.objDefault (s : State) (key : Nat) : Nat :=
  if key = K.stripeGroupSize then s.build.memoryPorts else ((objDesc key).map (·.dflt)).getD 0

/-- The value of an object's element in force in the unit that uses it (R28). -/
def State.par (s : State) (key : Nat) (elem : Nat := 0) : Nat :=
  (Sparse.find s.dict.inForce (dictKey key elem)).getD (s.objDefault key)

/-- The value last written to an object's element, which a READ returns (R28). -/
def State.stored (s : State) (key : Nat) (elem : Nat := 0) : Nat :=
  (Sparse.find s.dict.written (dictKey key elem)).getD (s.objDefault key)

/-- Lists a value in a dictionary store unless it is the object's default. -/
def State.putValue (s : State) (m : Sparse Nat) (key elem v : Nat) : Sparse Nat :=
  if v = s.objDefault key then Sparse.erase m (dictKey key elem) else Sparse.insert m (dictKey key elem) v

/-- The value a READ returns is written. -/
def State.storeValue (s : State) (key elem v : Nat) : State :=
  { s with dict := { s.dict with written := s.putValue s.dict.written key elem v } }

/-- The value in force in the owning unit is changed. -/
def State.forceValue (s : State) (key elem v : Nat) : State :=
  { s with dict := { s.dict with inForce := s.putValue s.dict.inForce key elem v } }

/-- A value written and in force at once. -/
def State.setValue (s : State) (key elem v : Nat) : State := (s.storeValue key elem v).forceValue key elem v

/-- The top of an event counter: SAT is set there (R472, R473). -/
def counterTop : Nat := 2 ^ 48 - 1

/-- The accumulated sum of a counter element is forwarded to the counter (R474). -/
def State.forwardSum (s : State) (k : Nat) : State :=
  let a := Sparse.get s.dict.acc 0 k
  let c := Nat.min counterTop (Sparse.get s.dict.counters 0 k + a)
  { s with dict := { s.dict with acc := Sparse.erase s.dict.acc k, counters := Sparse.set s.dict.counters 0 k c } }

/-- Counts n events in the accumulator of an event counter element, which forwards itself at 2^23 (R474). -/
def State.bump (s : State) (key : Nat) (n : Nat := 1) (elem : Nat := 0) : State :=
  let k := dictKey key elem
  let a := Sparse.get s.dict.acc 0 k + n
  let s := { s with dict := { s.dict with acc := Sparse.set s.dict.acc 0 k a } }
  if a ≥ 2 ^ 23 then s.forwardSum k else s

/-- The value of an event counter as forwarded so far, without what its accumulator still holds. -/
def State.counterAt (s : State) (key : Nat) (elem : Nat := 0) : Nat := Sparse.get s.dict.counters 0 (dictKey key elem)

/-- All events counted for an event counter element: forwarded and accumulated. -/
def State.counted (s : State) (key : Nat) (elem : Nat := 0) : Nat :=
  Sparse.get s.dict.counters 0 (dictKey key elem) + Sparse.get s.dict.acc 0 (dictKey key elem)

/-- Changes the latch of an alarm type. -/
def State.modLatch (s : State) (code : Nat) (f : Latch → Latch) : State :=
  let ls := Sparse.set s.tele.latches {} code (f (Sparse.get s.tele.latches {} code))
  { s with tele := { s.tele with latches := ls } }

/-- The latch of an alarm type. -/
def State.latch (s : State) (code : Nat) : Latch := Sparse.get s.tele.latches {} code

/-- What an occurrence does to a latch (R482). -/
def Latch.occur (l : Latch) (tick : BitVec 64) (hc : BitVec 32) : Latch :=
  let first := l.count == 0
  { l with firstTick := if first then tick else l.firstTick
           firstHc := if first then hc else l.firstHc
           lastTick := tick
           lastHc := hc
           count := Nat.min counterTop (l.count + 1)
           sat := l.sat || decide (l.count + 1 ≥ counterTop)
           pending := true }

/-- Raises an alarm: its latch takes the occurrence and ALARMS_RAISED counts it (R33, R482). -/
def State.raise (s : State) (code : Nat) : State :=
  (s.modLatch code fun l => l.occur s.tick.number (BitVec.ofNat 32 s.clk.hc)).bump K.alarmsRaised

/-- The alarm type codes (R495). -/
def A.clockRange : Nat := 0x01
def A.tickLost : Nat := 0x02
def A.tickSkew : Nat := 0x03
def A.matchProtocol : Nat := 0x08
def A.engineSpared : Nat := 0x09
def A.accountSaturated : Nat := 0x0A
def A.partitionViolation : Nat := 0x0B
def A.queueProtocol : Nat := 0x10
def A.signalSaturated : Nat := 0x11
def A.signalProtocol : Nat := 0x12
def A.syncDrift : Nat := 0x13
def A.exchangeProtocol : Nat := 0x14
def A.portLost : Nat := 0x20
def A.stripeDoubleFault : Nat := 0x21
def A.dataLost : Nat := 0x22
def A.pageRetired : Nat := 0x23
def A.retireFull : Nat := 0x24
def A.parityMismatch : Nat := 0x25
def A.memProtocol : Nat := 0x26
def A.linkDown : Nat := 0x28
def A.linkPartnerRefused : Nat := 0x29
def A.linkTickMismatch : Nat := 0x2A
def A.linkUnroutable : Nat := 0x2B
def A.linkLoop : Nat := 0x2C
def A.linkProtocol : Nat := 0x2D
def A.taskWatchdog : Nat := 0x30
def A.dispatchStall : Nat := 0x31
def A.mcRestart : Nat := 0x32
def A.night : Nat := 0x33
def A.sramBankSpared : Nat := 0x34
def A.sramNoSpare : Nat := 0x35
def A.sramUncorrectable : Nat := 0x36
def A.dataUnitStall : Nat := 0x37
def A.startDegraded : Nat := 0x38
def A.throttle : Nat := 0x39
def A.thermalTrip : Nat := 0x3A
def A.voltageRange : Nat := 0x3B
def A.selftestFail : Nat := 0x3C
def A.authLocked : Nat := 0x40
def A.fwRejected : Nat := 0x41
def A.replayDiverged : Nat := 0x48

/-- Adds to an accounting counter, which stops at all ones and then raises ACCOUNT_SATURATED (R194, R472). -/
def State.account (s : State) (key elem n : Nat) : State :=
  let k := dictKey key elem
  let old := Sparse.get s.dict.accounting 0 k
  let new := Nat.min (2 ^ 64 - 1) (old + n)
  let s := { s with dict := { s.dict with accounting := Sparse.set s.dict.accounting 0 k new } }
  if new = 2 ^ 64 - 1 ∧ old ≠ 2 ^ 64 - 1 then s.raise A.accountSaturated else s

/-- Presents an item on an output port. -/
def State.emit (s : State) (e : Emit) : State := { s with out := s.out ++ [e] }

/-- Takes the index of the next free value (log 3). -/
def State.fresh (s : State) : Nat × State :=
  (s.clk.freeCount, { s with clk := { s.clk with freeCount := s.clk.freeCount + 1 } })

/-- The model's units of real time in a microsecond: 72,072,000 (log 2). -/
def unitsPerUs : Nat := 72072000

/-- The model's units of real time in a millisecond. -/
def unitsPerMs : Nat := 72072000000

/-- The model's units of real time in a hub cycle at a clock level: level l runs at (8 + l) × 100 MHz (R430). -/
def unitsPerHc (level : Nat) : Nat := 720720 / (8 + level)

/-- The millisecond counter of R410. -/
def State.ms (s : State) : Nat := s.clk.units / unitsPerMs

/-- The clock level at which durations are converted: the previous one until a lowering has settled (R431). -/
def State.convLevel (s : State) : Nat := s.power.settle.getD s.pins.clkReq

/-- A duration of real time in hub cycles at the current HCLK (R15). -/
def State.hcOfUs (s : State) (us : Nat) : Nat := us * (8 + s.convLevel) * 100

/-- A duration in nanoseconds in hub cycles at the current HCLK (R15), rounded up. -/
def State.hcOfNs (s : State) (ns : Nat) : Nat := ceilDiv (ns * (8 + s.convLevel)) 10

/-- The low 32 bits of TICK_NUMBER. -/
def State.tick32 (s : State) : BitVec 32 := s.tick.number.truncate 32

/-- The chip's own ID (R489). -/
def State.chipId (s : State) : Nat := s.par K.chipId

/-- A context (R62). -/
def State.ctx (s : State) (c : Nat) : Ctx := Sparse.get s.adm.ctxs {} c
/-- Changes a context. -/
def State.modCtx (s : State) (c : Nat) (f : Ctx → Ctx) : State :=
  { s with adm := { s.adm with ctxs := Sparse.set s.adm.ctxs {} c (f (s.ctx c)) } }

/-- A Matching Store slot (R68). -/
def State.slot (s : State) (n : Nat) : Slot := Sparse.get s.mat.slots {} n
/-- Changes a slot. -/
def State.modSlot (s : State) (n : Nat) (f : Slot → Slot) : State :=
  { s with mat := { s.mat with slots := Sparse.set s.mat.slots {} n (f (s.slot n)) } }

/-- A hold entry in use (R149). -/
def State.hold (s : State) (h : Nat) : Option Hold := Sparse.find s.adm.holds h
/-- Writes a hold entry. -/
def State.putHold (s : State) (h : Nat) (v : Hold) : State :=
  { s with adm := { s.adm with holds := Sparse.insert s.adm.holds h v } }
/-- Changes a hold entry in use. -/
def State.modHold (s : State) (h : Nat) (f : Hold → Hold) : State :=
  match s.hold h with
  | some v => s.putHold h (f v)
  | none => s
/-- Frees a hold entry. -/
def State.freeHold (s : State) (h : Nat) : State :=
  { s with adm := { s.adm with holds := Sparse.erase s.adm.holds h } }

/-- A Flow Table entry (R148). -/
def State.flow (s : State) (f : Nat) : Flow := Sparse.get s.adm.flows {} f
/-- Changes a Flow Table entry. -/
def State.modFlow (s : State) (n : Nat) (f : Flow → Flow) : State :=
  { s with adm := { s.adm with flows := Sparse.set s.adm.flows {} n (f (s.flow n)) } }

/-- A hardware queue (R131). -/
def State.queue (s : State) (q : Nat) : Queue := Sparse.get s.qs.queues {} q
/-- Changes a hardware queue. -/
def State.modQueue (s : State) (q : Nat) (f : Queue → Queue) : State :=
  { s with qs := { s.qs with queues := Sparse.set s.qs.queues {} q (f (s.queue q)) } }

/-- A signal object (R160). -/
def State.obj (s : State) (o : Nat) : SigObj := Sparse.get s.sig.objs {} o
/-- Changes a signal object. -/
def State.modObj (s : State) (o : Nat) (f : SigObj → SigObj) : State :=
  { s with sig := { s.sig with objs := Sparse.set s.sig.objs {} o (f (s.obj o)) } }

/-- A barrier (R177). -/
def State.barrier (s : State) (b : Nat) : Barrier := Sparse.get s.sig.barriers {} b
/-- Changes a barrier. -/
def State.modBarrier (s : State) (b : Nat) (f : Barrier → Barrier) : State :=
  { s with sig := { s.sig with barriers := Sparse.set s.sig.barriers {} b (f (s.barrier b)) } }

/-- An aligned-table entry (R179). -/
def State.alignEntry (s : State) (i : Nat) : AlignEntry := Sparse.get s.sig.align {} i
/-- Changes an aligned-table entry. -/
def State.modAlign (s : State) (i : Nat) (f : AlignEntry → AlignEntry) : State :=
  { s with sig := { s.sig with align := Sparse.set s.sig.align {} i (f (s.alignEntry i)) } }

/-- An engine port (R84). -/
def State.port (s : State) (p : Nat) : EnginePort := Sparse.get s.disp.ports {} p
/-- Changes an engine port. -/
def State.modPort (s : State) (p : Nat) (f : EnginePort → EnginePort) : State :=
  { s with disp := { s.disp with ports := Sparse.set s.disp.ports {} p (f (s.port p)) } }

/-- A spill record (R209). -/
def State.spillRec (s : State) (i : Nat) : SpillRec := Sparse.get s.disp.spill {} i
/-- Changes a spill record. -/
def State.modSpill (s : State) (i : Nat) (f : SpillRec → SpillRec) : State :=
  { s with disp := { s.disp with spill := Sparse.set s.disp.spill {} i (f (s.spillRec i)) } }

/-- A table (R219). -/
def State.table (s : State) (t : Nat) : Table := Sparse.get s.emb.tables {} t
/-- Whether a table is open to a reader with a snapshot tick: according to its state after phase 1 of that boundary
(R225); a record earlier than OPEN_TICK finds it not open (R274). -/
def Table.openAt (t : Table) (snap : Nat) : Bool :=
  match t.state with
  | 0 => (match t.closeTick with
    | some c => decide (t.openTick.toNat ≤ snap ∧ snap < c.toNat)
    | none => false)
  | 1 => false
  | _ => decide (t.openTick.toNat ≤ snap)
/-- The 64-bit tick not later than the present one that a 32-bit tick stands for (R16). -/
def State.tick64 (s : State) (t : Nat) : Nat :=
  s.tick.number.toNat - (s.tick.number.toNat + 2 ^ 32 - t % 2 ^ 32) % 2 ^ 32

/-- The opening of a table that a reader with a snapshot tick sees: one that has been closed since, where the table
has been opened again (R225, R274). -/
def State.tableAt (s : State) (t snap : Nat) : Table :=
  if (s.table t).openAt snap then s.table t
  else ((s.emb.retired.find? fun e => e.1 == t && e.2.openAt snap).map (·.2)).getD (s.table t)
/-- Changes a table. -/
def State.modTable (s : State) (t : Nat) (f : Table → Table) : State :=
  { s with emb := { s.emb with tables := Sparse.set s.emb.tables {} t (f (s.table t)) } }

/-- An overlay entry (R248). -/
def State.ovl (s : State) (i : Nat) : Overlay := Sparse.get s.emb.overlay {} i
/-- Changes an overlay entry. -/
def State.modOvl (s : State) (i : Nat) (f : Overlay → Overlay) : State :=
  { s with emb := { s.emb with overlay := Sparse.set s.emb.overlay {} i (f (s.ovl i)) } }

/-- A memory port (R317). -/
def State.mport (s : State) (p : Nat) : MemPort := Sparse.get s.stripe.ports {} p
/-- Changes a memory port. -/
def State.modMport (s : State) (p : Nat) (f : MemPort → MemPort) : State :=
  { s with stripe := { s.stripe with ports := Sparse.set s.stripe.ports {} p (f (s.mport p)) } }

/-- A link port (R350). -/
def State.lport (s : State) (p : Nat) : LinkPort := Sparse.get s.links.ports {} p
/-- Changes a link port. -/
def State.modLport (s : State) (p : Nat) (f : LinkPort → LinkPort) : State :=
  { s with links := { s.links with ports := Sparse.set s.links.ports {} p (f (s.lport p)) } }

/-- An image slot. -/
def State.image (s : State) (i : Nat) : Option Image := Sparse.find s.loader.images i

/-- Encodings of the status codes (R493). -/
def Status.code : Status → Nat
  | .ok => 0x00
  | .fallback => 0x01
  | .late => 0x02
  | .skipped => 0x03
  | .cancelled => 0x04
  | .abandoned => 0x05
  | .timeout => 0x06
  | .dataUnavailable => 0x07
  | .dataUncorrectable => 0x08
  | .preempted => 0x10
  | .queueFull => 0x20
  | .busy => 0x21
  | .staleGen => 0x22

/-- The final-result code with an encoding, if there is one (R493). -/
def Status.ofFinal : Nat → Option Status
  | 0x00 => some .ok
  | 0x01 => some .fallback
  | 0x02 => some .late
  | 0x03 => some .skipped
  | 0x04 => some .cancelled
  | 0x05 => some .abandoned
  | 0x06 => some .timeout
  | 0x07 => some .dataUnavailable
  | 0x08 => some .dataUncorrectable
  | _ => none

/-- The code that a result carries where two apply: among final results, the one with the larger encoding
(R21, R494). -/
def Status.worse (a b : Status) : Status := if b.code > a.code then b else a

/-- Whether a status is a data status (R154). -/
def Status.isData (a : Status) : Bool := a == .dataUnavailable || a == .dataUncorrectable

/-- Whether the hub's core is under reset or without power, so that it takes nothing from its ports (R439, R497). -/
def State.off (s : State) : Bool := !s.pins.resetN || s.power.state == 3

/-- Folds a state change over a list. -/
def State.each {α : Type} (s : State) (l : List α) (f : State → α → State) : State := l.foldl f s

end Sys2Proof.Machine
end

