-- ==== Sys2Proof/Machine/Memory.lean ====
section
/-! DEFINITION. Device memory: the stripe map (R306 to R310), usable members (R314), the bytes last accepted (R303), and
the reads and writes of the data plane's own units (R315, R316). -/
namespace Sys2Proof.Machine

/-- Ports in each stripe group (R307). -/
def State.groupSize (s : State) : Nat := s.par K.stripeGroupSize

/-- Stripe groups of the build (R307). -/
def State.groups (s : State) : Nat := s.build.memoryPorts / s.groupSize

/-- Stripe rows of each group: port pages less the spare pages (R310). -/
def State.stripeRows (s : State) : Nat := s.par K.memPortPages - 1024

/-- Data pages of a group (R310). -/
def State.groupPages (s : State) : Nat := s.stripeRows * (s.groupSize - 1)

/-- Where a block of device memory lies (R308). -/
structure Place where
  group : Nat
  row : Nat
  /-- position of the data port in its group -/
  d : Nat
  /-- position of the parity port -/
  q : Nat
  port : Nat
  parity : Nat
  blk : Nat
  deriving DecidableEq, Repr

/-- The stripe map of R308. -/
def State.place (s : State) (addr : Nat) : Place :=
  let n := s.groupSize
  let g := fld addr 41 2
  let page := fld addr 12 29
  let row := page / (n - 1)
  let k := page % (n - 1)
  let q := row % n
  let d := if k < q then k else k + 1
  { group := g, row, d, q, port := g * n + d, parity := g * n + q, blk := fld addr 6 6 }

/-- Whether an address lies within its group's capacity (R306, R310). -/
def State.inCapacity (s : State) (addr : Nat) : Bool :=
  decide (addr < 2 ^ 43 ∧ fld addr 41 2 < s.groups ∧ fld addr 12 29 < s.groupPages)

/-- PARTITION_WINDOW of a partition in a stripe group (R199, R490). -/
def State.window (s : State) (part group : Nat) : Nat := s.par K.partitionWindow (part * 4 + group)

/-- Whether bytes of device memory lie within a partition's window (R199, R200); what lies beyond its group's capacity
lies outside every window (R306). -/
def State.inWindow (s : State) (part addr n : Nat) : Bool :=
  let w := s.window part (fld addr 41 2)
  let lo := fld addr 0 41
  decide (addr < 2 ^ 43) && bit w 31 && decide (fld w 13 13 * 2 ^ 30 ≤ lo) && decide (lo + n ≤ fld w 0 13 * 2 ^ 30)
    && decide (fld addr 41 2 < s.groups) && decide (lo + n ≤ s.groupPages * 4096)

/-- The cache-way mask of internal traffic: that of the partition whose window holds the address, or all ones (R201). -/
def State.waysAt (s : State) (addr : Nat) : Nat :=
  match (List.range 16).find? fun p => s.inWindow p addr 64 with
  | some p => s.par K.partitionCacheWays p
  | none => 0xFFFFFFFF

/-- Whether a chunk is in a set of chunks. -/
def ChunkSet.has (c : ChunkSet) (k : Nat) : Bool := c.all != c.except.contains k

/-- Puts a chunk into a set. -/
def ChunkSet.add (c : ChunkSet) (k : Nat) : ChunkSet :=
  if c.has k then c
  else if c.all then { c with except := c.except.filter (· ≠ k) }
  else { c with except := insertBy (· < ·) k c.except }

/-- Takes a chunk out of a set. -/
def ChunkSet.del (c : ChunkSet) (k : Nat) : ChunkSet :=
  if !c.has k then c
  else if c.all then { c with except := insertBy (· < ·) k c.except }
  else { c with except := c.except.filter (· ≠ k) }

/-- Chunks of a set among the first n chunks. -/
def ChunkSet.size (c : ChunkSet) (n : Nat) : Nat := if c.all then n - c.except.length else c.except.length

/-- The first chunk of a set among the first n chunks. -/
def ChunkSet.first (c : ChunkSet) (n : Nat) : Option Nat :=
  if c.all then
    -- the exceptions are sorted, so the first gap is the first chunk of the set
    let k := c.except.foldl (fun k e => if e = k then k + 1 else k) 0
    if k < n then some k else none
  else c.except.head?

/-- Chunks of 256 stripe rows in a group (R320). -/
def State.chunks (s : State) : Nat := ceilDiv s.stripeRows 256

/-- The rebuild bitmap of a group (R320). -/
def State.bitmapOf (s : State) (g : Nat) : ChunkSet := Sparse.get s.stripe.bitmap {} g

/-- Whether a page of a port is being repaired, restored or retired (R314, R325). -/
def MemPort.busyPage (p : MemPort) (page : Nat) : Bool :=
  p.ops.any fun o => o.page == page && o.phase != .repairWanted

/-- The ports of a group (R307). -/
def State.groupPorts (s : State) (g : Nat) : List Nat := (List.range s.groupSize).map fun i => g * s.groupSize + i

/-- Marks the chunk of a row for rebuild (R320): in the group's bitmap, and for each port of it that is away. -/
def State.markRow (s : State) (g row : Nat) : State :=
  let s := { s with stripe := { s.stripe with
    bitmap := Sparse.set s.stripe.bitmap {} g ((s.bitmapOf g).add (row / 256)) } }
  s.each ((s.groupPorts g).filter fun p => (s.mport p).state != .online) fun s p =>
    s.modMport p fun x => { x with missed := x.missed.add (row / 256) }

/-- Ports of one group rebuild one at a time, in the order in which they entered REBUILDING (R323). -/
def State.rebuildTurn (s : State) (p : Nat) : Bool :=
  (s.groupPorts (p / s.groupSize)).all fun q =>
    decide ((s.mport q).state ≠ .rebuilding) || decide ((s.mport p).rebuildAt ≤ (s.mport q).rebuildAt)

/-- Whether the member at a position of a group is usable for a row (R314). -/
def State.usable (s : State) (g pos row : Nat) : Bool :=
  let p := s.mport (g * s.groupSize + pos)
  (match p.state with
    | .online => true
    | .rebuilding => s.rebuildTurn (g * s.groupSize + pos) && !(s.bitmapOf g).has (row / 256)
    | _ => false) && !p.busyPage row

/-- Members of a row that are not usable (R314). -/
def State.unusable (s : State) (g row : Nat) : List Nat :=
  (List.range s.groupSize).filter fun pos => !s.usable g pos row

/-- The device address of the same block on another data member of the row (R308). -/
def State.siblingAddr (s : State) (m : Place) (pos : Nat) : Nat :=
  let k := if pos < m.q then pos else pos - 1
  m.group * 2 ^ 41 + (m.row * (s.groupSize - 1) + k) * 4096 + m.blk * 64

/-- The address of the block that holds an address. -/
def blockOf (addr : Nat) : Nat := addr / 64 * 64

/-- Whether a block's own copy decodes (R312, R322). -/
def State.decodes (s : State) (addr : Nat) : Bool :=
  !s.stripe.weak.contains (blockOf addr) && !s.stripe.lost.contains (blockOf addr)

/-- The number that stands for a parity block among the blocks of a group: past every device address. -/
def parityKey (g row blk : Nat) : Nat := 2 ^ 44 + (g * 2 ^ 30 + row) * 4096 + blk * 64

/-- Where a block lies that its device address, or the number of a parity block, names (R308). -/
def State.locate (s : State) (a : Nat) : Place :=
  if a < 2 ^ 44 then s.place a
  else
    let n := s.groupSize
    let g := (a - 2 ^ 44) / 2 ^ 42
    let row := (a - 2 ^ 44) / 4096 % 2 ^ 30
    { group := g, row, d := row % n, q := row % n, port := g * n + row % n, parity := g * n + row % n, blk := fld a 6 6 }

/-- The address of the same block on a member of the row, or its number on the parity port (R308). -/
def State.cellAddr (s : State) (m : Place) (pos : Nat) : Nat :=
  if pos = m.q then parityKey m.group m.row m.blk else s.siblingAddr m pos

/-- Positions of the row other than a block's own (R315). -/
def State.others (s : State) (m : Place) : List Nat := (List.range s.groupSize).filter fun pos => pos ≠ m.d

/-- Whether a member's block of the row of a block decodes, as far as the unit knows (R312, R322). -/
def State.memberDecodes (s : State) (m : Place) (pos : Nat) : Bool := s.decodes (s.cellAddr m pos)

/-- A usable member other than the block's own port is known not to decode (R315, case 2). -/
def State.otherFails (s : State) (m : Place) : Bool :=
  (s.others m).any fun pos => s.usable m.group pos m.row && !s.memberDecodes m pos

/-- Every member other than the block's own port is usable (R315, case 1). -/
def State.othersUsable (s : State) (m : Place) : Bool := (s.others m).all fun pos => s.usable m.group pos m.row

/-- How a block that is not usable or does not decode is reconstructed (R315), with the wait of case 3 taken as past:
OK, or the status with which the read fails. -/
def State.reconStatus (s : State) (addr : Nat) : Status :=
  let m := s.locate addr
  if s.stripe.lost.contains (blockOf addr) ∨ s.otherFails m then .dataUncorrectable
  else if s.othersUsable m then .ok
  else if s.usable m.group m.d m.row then .dataUncorrectable
  else .dataUnavailable

/-- A read that must be reconstructed is held: case 3 of R315. -/
def State.reconHolds (s : State) (addr : Nat) : Bool :=
  let m := s.locate addr
  !s.stripe.lost.contains (blockOf addr) && !s.otherFails m && !s.othersUsable m

/-- Whether a chunk of a group is wipe-pending on some port (R428). -/
def State.chunkPending (s : State) (g k : Nat) : Bool := (s.groupPorts g).any fun p => (s.mport p).wipe.has k

/-- Whether a block lies in a wipe-pending chunk: its reads return zero at once (R428). -/
def State.wipePending (s : State) (addr : Nat) : Bool :=
  let m := s.place addr
  s.chunkPending m.group (m.row / 256)

/-- In Morning a request to a group whose ports are not all ONLINE is held (R425). -/
def State.groupWaits (s : State) (g : Nat) : Bool :=
  s.power.stage == 1 && (s.groupPorts g).any fun p => (s.mport p).state != .online

/-- A chunk of a port is wiped, as far as its reads go; with none left the set is empty. -/
def State.wipeChunk (s : State) (p k : Nat) : State :=
  let w := (s.mport p).wipe.del k
  let w : ChunkSet := if w.all && decide (w.except.length ≥ s.chunks) then {} else w
  s.modMport p fun x => { x with wipe := w }


/-- Whether the block is served from its own port: usable there, and its copy decodes (R314, R315). -/
def State.direct (s : State) (addr : Nat) : Bool :=
  let m := s.place addr
  s.usable m.group m.d m.row && s.decodes addr

/-- The status of a read of a block by a unit of the data plane (R312, R315). -/
def State.blockStatus (s : State) (addr : Nat) : Status :=
  if s.groupWaits (s.place addr).group then .dataUnavailable
  else if s.wipePending addr || s.direct addr then .ok else s.reconStatus addr

/-- A read of a block by a unit waits: for a member that is not usable (R315, case 3), or for its group in Morning
(R425). -/
def State.readWaits (s : State) (addr : Nat) : Bool :=
  s.groupWaits (s.place addr).group || (!s.wipePending addr && !s.direct addr && s.reconHolds addr)

/-- Memory in canonical form: addresses strictly rising, no listed byte zero, which is what an unlisted byte reads as.
-/
abbrev Memory.wf (m : List Host.Cell) : Bool := Sparse.wf 0 m

/-- Bytes of memory; wiped memory reads as zero (R428). -/
def memBytes (m : List Host.Cell) : Nat → Nat → List Byte
  | _, 0 => []
  | a, n + 1 => Sparse.get m 0 a :: memBytes m (a + 1) n

/-- Memory with bytes written from an address on (R303). -/
def memPut (m : List Host.Cell) : Nat → List Byte → List Host.Cell
  | _, [] => m
  | a, b :: t => memPut (Sparse.set m 0 a b) (a + 1) t

/-- A byte as the accepted writes that are held will leave it, the latest last (R303, R316). -/
def overlay (ws : List HeldWrite) (a : Nat) (b : Byte) : Byte :=
  ws.foldl (fun b w => if a < w.addr then b else w.bytes.getD (a - w.addr) b) b

/-- The bytes last accepted at an address (R303). -/
def State.peek (s : State) (addr n : Nat) : List Byte :=
  (memBytes s.stripe.mem addr n).zipIdx.map fun e => overlay s.stripe.heldWrites (addr + e.2) e.1

/-- A little-endian number in memory (R12). -/
def State.peekNat (s : State) (addr n : Nat) : Nat := ofLe (s.peek addr n)

/-- A 64-byte word as last accepted. -/
def State.peekWord (s : State) (addr : Nat) : Block := BitVec.ofNat 512 (s.peekNat addr 64)

/-- The blocks that n bytes at an address lie in. -/
def blocksOf (addr n : Nat) : List Nat :=
  if n = 0 then [] else (List.range ((addr + n - 1) / 64 - addr / 64 + 1)).map fun i => blockOf addr + i * 64

/-- A port takes requests: it is ONLINE or REBUILDING (R317). -/
def MemPort.serves (x : MemPort) : Bool := x.state == .online || x.state == .rebuilding

/-- The first block of the code group of a block: it stands for the group's check block (R309). -/
def groupHead (a : Nat) : Nat := a / 1024 * 1024

/-- A request waits to be presented on the port of its block, once with any like it that waits there already (R300,
R313). -/
def State.enqueue (s : State) (t : MemTag) : State :=
  let p := (s.locate t.addr).port
  let x := s.mport p
  if x.serves && !x.queue.contains t then s.modMport p fun x => { x with queue := x.queue ++ [t] } else s

/-- A request for a block by a unit (R201, R302). -/
def State.blockReq (s : State) (op : MemOp) (a hint : Nat) (src : MemSource := .unit) : MemTag :=
  { op := op, addr := a, src := src, hint := hint, ways := s.waysAt a }

/-- Who reads: the data task that a unit works for, with its CONTEXT and GENERATION, or the unit itself (R305). -/
def State.readerOf (s : State) : MemSource × Nat × BitVec 16 :=
  match s.stripe.asker with
  | some (.task n i) => (.data n i, (s.slot n).ctx, (s.slot n).gen)
  | _ => (.unit, 0, 0)

/-- The READ of a block for whoever reads (R305). -/
def State.readReq (s : State) (a hint : Nat) : MemTag :=
  let (src, c, g) := s.readerOf
  { s.blockReq .read a hint src with ctx := c, gen := g }

/-- A request for the check block of a block's code group (R302, R313). -/
def State.checkReq (s : State) (op : MemOp) (a : Nat) : MemTag :=
  { op := op, addr := groupHead a, chk := true, hint := 2, ways := s.waysAt a }

/-- Marks what a new write of a block leaves of the reconstructions of its column: they return the accepted bytes (R303,
R329). -/
def State.staleRecons (s : State) (m : Place) : State :=
  let same (r : Recon) : Bool := let x := s.locate r.addr; x.group == m.group && x.row == m.row && x.blk == m.blk
  { s with stripe := { s.stripe with recons := modWhere same (fun r => { r with stale := true }) s.stripe.recons } }

/-- A reconstruction begins: the same block of every other member that is usable is read; with one of them not usable
this tells whether the read fails or waits (R302, R315). -/
def State.openRecon (s : State) (r : Recon) : State :=
  let m := s.locate r.addr
  let id := s.stripe.nextHeld
  let from_ := (s.others m).filter fun pos => s.usable m.group pos m.row
  let s := { s with stripe := { s.stripe with
    nextHeld := id + 1, recons := s.stripe.recons ++ [{ r with id := id, left := from_, part := !s.othersUsable m }] } }
  s.each from_ fun s pos => s.enqueue (s.blockReq .read (s.cellAddr m pos) 1 (.recon id pos))

/-- What a unit's read of a block asks of the ports (R300, R312, R315): the block itself, or those of its row; a read
that fails at once is counted (R21). -/
def State.unitRead (s : State) (addr hint : Nat) : State :=
  let a := blockOf addr
  let m := s.place a
  let (src, c, g) := s.readerOf
  if s.groupWaits m.group then s.bump K.requestsUnavailable
  else if s.wipePending a then s
  else if s.usable m.group m.d m.row then s.enqueue (s.readReq a hint)
  else if s.stripe.lost.contains a || s.otherFails m then s.bump K.blocksUncorrectable
  else if s.othersUsable m then s.openRecon { addr := a, src := src, ctx := c, gen := g, hint := hint, ways := s.waysAt a }
  else s.bump K.requestsUnavailable

/-- A small read of a unit that no status follows: a queue word, a table descriptor (R302; log 98). -/
def State.keepRead (s : State) (addr : Nat) : State := if s.blockStatus addr = .ok then s.unitRead addr 2 else s

/-- A read of n bytes by a unit: what it asks of the ports, the worst status of its blocks as far as the unit knows
(R86, R315; log 40), and the bytes last accepted. A reader that waits for a member notes the block it waits for. -/
def State.readBytes (s : State) (addr n : Nat) (hint : Nat := 0) : State × Status × List Byte :=
  let bs := blocksOf addr n
  let st := bs.foldl (fun st a => st.worse (s.blockStatus a)) .ok
  let wait := if s.stripe.asker.isSome ∧ s.stripe.stuck.isNone then bs.find? s.readWaits else s.stripe.stuck
  let t := { s with stripe := { s.stripe with stuck := wait } }
  (t.each bs fun s a => s.unitRead a hint, st, s.peek addr n)

/-- How an accepted write fares (R316, R321, R330): performed; held because a block it must read cannot be obtained;
failed because that block does not decode; or waiting for the row's turn, its chunk being rebuilt or its row scrubbed.
-/
inductive WriteFate where
  | put | held | failed | wait
  deriving DecidableEq, Repr

/-- The chunk of a row is the one being rebuilt, or the row is being scrubbed (R321, R330). -/
def State.rowBusy (s : State) (g row : Nat) : Bool :=
  (s.stripe.rows.any fun w => w.kind == .scrub && w.group == g && w.row == row)
  || (s.groupPorts g).any fun p => (s.mport p).state == .rebuilding && s.rebuildTurn p
      && (s.bitmapOf g).first s.chunks == some (row / 256)

/-- The blocks of the other data members must be read for a write (R316). -/
def State.readsOthers (s : State) (addr : Nat) : Bool :=
  let m := s.place addr
  !s.usable m.group m.d m.row || (s.usable m.group m.q m.row && (!s.decodes addr || !s.memberDecodes m m.q))

/-- Positions of the data members of a row other than a block's own (R316). -/
def State.otherData (s : State) (m : Place) : List Nat := (s.others m).filter fun pos => pos ≠ m.q

/-- The fate of a write of a block (R316, R425; log 41 for rows with two members that are not usable). In Night no
memory port receives a request, and a write waits (R411). -/
def State.writeFate (s : State) (addr : Nat) : WriteFate :=
  let m := s.place addr
  if s.resets.night || s.rowBusy m.group m.row then .wait
  else if s.groupWaits m.group then .held
  else if (s.unusable m.group m.row).length ≥ 2 then .held
  else if !s.readsOthers addr then .put
  else if (s.otherData m).any fun pos => !s.usable m.group pos m.row then .held
  else if (s.otherData m).any fun pos => !s.memberDecodes m pos then .failed
  else .put

/-- A row's page has been written to its new place on a port, and is not usable yet (R325). -/
def State.pageMoved (s : State) (p row : Nat) : Bool :=
  (s.mport p).state == .online && (s.mport p).ops.any fun o => o.page == row && o.phase == .restored

/-- The port traffic of a write of a block, by R316's cases; where the old block or the parity does not decode, the
other data blocks are read as well; a block whose page has been moved is written in its new place (R325). -/
def State.writeTraffic (s : State) (addr hint ways : Nat) : List MemTag :=
  let a := blockOf addr
  let m := s.place a
  let par := parityKey m.group m.row m.blk
  let others := (s.otherData m).map fun pos => s.blockReq .read (s.siblingAddr m pos) 1
  let data : List MemTag := [{ op := .write, addr := a, hint := hint, ways := ways }, s.checkReq .write a]
  let parity : List MemTag := [s.blockReq .write par 0, s.checkReq .write par]
  if !s.usable m.group m.d m.row then
    others ++ [s.checkReq .read par] ++ parity ++ if s.pageMoved m.port m.row then data else []
  else if s.usable m.group m.q m.row then
    [s.blockReq .read a 0, s.blockReq .read par 0] ++ (if s.readsOthers a then others else []) ++ data ++ parity
  else [s.checkReq .read a] ++ data ++ if s.pageMoved m.parity m.row then parity else []

/-- A write of a block is performed in memory: the block decodes again, and the chunk is marked where a member could not
take its part (R303, R316, R320). -/
def State.putBlock (s : State) (addr : Nat) (bytes : List Byte) : State :=
  let a := blockOf addr
  let m := s.place addr
  let s := s.staleRecons m
  let par := parityKey m.group m.row m.blk
  let gone (b : Nat) : Bool := b == a || b == par
  let anew : Bool := s.readsOthers a || !s.usable m.group m.q m.row
  let s := { s with stripe := { s.stripe with
    mem := memPut s.stripe.mem addr bytes
    parity := if anew then Sparse.erase s.stripe.parity par else s.stripe.parity
    weak := s.stripe.weak.filter fun b => !gone b
    lost := s.stripe.lost.filter fun b => !gone b } }
  let needsMark := !s.usable m.group m.d m.row || !s.usable m.group m.q m.row
  if needsMark then s.markRow m.group m.row else s

/-- A write of a block is performed: in memory, and on the ports (R300, R316). -/
def State.performWrite (s : State) (addr : Nat) (bytes : List Byte) (hint ways : Nat) : State :=
  let reqs := s.writeTraffic addr hint ways
  (s.putBlock addr bytes).each reqs State.enqueue

/-- A write of a block that must wait (R316); the model numbers it. -/
def State.holdWrite (s : State) (addr : Nat) (bytes : List Byte) (src : MemSource) (hint ways : Nat) : State :=
  let h : HeldWrite := { id := s.stripe.nextHeld, addr := addr, bytes := bytes, src := src, hint := hint, ways := ways }
  { s with stripe := { s.stripe with heldWrites := s.stripe.heldWrites ++ [h], nextHeld := s.stripe.nextHeld + 1 } }

/-- The blocks of a port's page are written with new check blocks, where the port takes requests (R321, R325, R428). -/
def State.writePage (s : State) (g pos row : Nat) : State :=
  let q := row % s.groupSize
  let cell (b : Nat) : Nat :=
    s.cellAddr { group := g, row, d := pos, q, port := g * s.groupSize + pos, parity := g * s.groupSize + q, blk := b } pos
  (List.range 4).foldl (fun s c =>
    let s := (List.range 16).foldl (fun s i => s.enqueue (s.blockReq .write (cell (16 * c + i)) 1)) s
    s.enqueue (s.checkReq .write (cell (16 * c)))) s

/-- The rows of a chunk (R320). -/
def State.chunkRows (s : State) (k : Nat) : Nat := Nat.min 256 (s.stripeRows - k * 256)

/-- A port's chunk is wiped: its reads and its device blocks alike (R428). -/
def State.zeroChunk (s : State) (p k : Nat) : State :=
  let s := s.wipeChunk p k
  s.each (List.range (s.chunkRows k)) fun s i => s.writePage (p / s.groupSize) (p % s.groupSize) (k * 256 + i)

/-- A write to a wipe-pending chunk first wipes it on demand (R428); a port that is not ONLINE takes no request, and
its rebuild brings the chunk back. -/
def State.wipeOnDemand (s : State) (addr : Nat) : State :=
  let m := s.place addr
  let k := m.row / 256
  if s.chunkPending m.group k then
    (s.each (s.groupPorts m.group) fun s p => if (s.mport p).wipe.has k then s.zeroChunk p k else s).bump
      K.wipeOnDemandChunks
  else s

/-- Whether a write must wait behind a held write of its stripe row (R316). -/
def State.rowHeld (s : State) (addr : Nat) : Bool :=
  let m := s.place addr
  s.stripe.heldWrites.any fun h => (s.place h.addr).group == m.group && (s.place h.addr).row == m.row

/-- A data status is recorded against the task in a slot (R21, R86). -/
def State.recordStatus (s : State) (n : Nat) (st : Status) : State :=
  if st.isData then s.modSlot n fun q => { q with dataStatus := q.dataStatus.worse st } else s

/-- A write has failed: its data status is recorded against the task that made it, if it still runs (R86, R316). -/
def State.writeFailed (s : State) (src : MemSource) (st : Status) : State :=
  match src with
  | .task n i => if (s.slot n).inst = i ∧ (s.slot n).state ≠ .done then s.recordStatus n st else s
  | _ => s

/-- A write fails because a block that it must read does not decode: counted, and recorded (R21, R316). -/
def State.writeSpoilt (s : State) (src : MemSource) : State :=
  (s.bump K.blocksUncorrectable).writeFailed src .dataUncorrectable

/-- A write that its row, its group or Night holds back leaves a wipe-pending chunk as it is until it is performed. -/
def State.wipeFirst (s : State) (addr : Nat) : State :=
  if s.resets.night || s.groupWaits (s.place addr).group then s else s.wipeOnDemand addr

/-- A write within one block is accepted: performed, or held until its row allows it, in order of acceptance; one that
must read a block that does not decode fails and leaves the block unchanged (R303, R316). -/
def State.acceptWrite (s : State) (addr : Nat) (bytes : List Byte) (src : MemSource) (hint ways : Nat) : State :=
  let s := s.wipeFirst addr
  if s.rowHeld addr then s.holdWrite addr bytes src hint ways
  else
    match s.writeFate addr with
    | .put => s.performWrite addr bytes hint ways
    | .failed => s.writeSpoilt src
    | .held => s.holdWrite addr bytes src hint ways
    | .wait => s.holdWrite addr bytes src hint ways

/-- A write within one block by a unit of the data plane (R201, R303). -/
def State.writePart (s : State) (addr : Nat) (bytes : List Byte) (src : MemSource := .unit) (hint : Nat := 0) : State :=
  s.acceptWrite addr bytes src hint (s.waysAt addr)

/-- Pieces of a byte string that each lie within one block, with their addresses; fuel bounds their number. -/
def blockPieces : Nat → Nat → List Byte → List (Nat × List Byte)
  | 0, _, _ => []
  | _ + 1, _, [] => []
  | f + 1, a, bs =>
    let n := 64 - a % 64
    (a, bs.take n) :: blockPieces f (a + n) (bs.drop n)

/-- A write of bytes by a unit of the data plane (R303, R316). -/
def State.writeBytes (s : State) (addr : Nat) (bytes : List Byte) (hint : Nat := 0) : State :=
  s.each (blockPieces (bytes.length + 1) addr bytes) fun s p => s.writePart p.1 p.2 .unit hint

/-- A write of a 64-byte word by a unit. -/
def State.writeWord (s : State) (addr : Nat) (w : Block) (hint : Nat := 0) : State :=
  s.writeBytes addr (leBytes 64 w.toNat) hint

end Sys2Proof.Machine
end

