-- ==== Sys2Proof/Machine/QueueOps.lean ====
section
/-! DEFINITION. The rings of the hardware queues: appending and taking words, packets and cut-through, gap markers and
flushes (R129 to R143, R513). -/
namespace Sys2Proof.Machine

/-- Queue kinds (R129). -/
def kindRequest : Nat := 0
def kindFlow : Nat := 1
def kindResult : Nat := 2
def kindData : Nat := 3
def kindTelemetry : Nat := 4

/-- Words of the ring (R130). -/
def Queue.size (q : Queue) : Nat := 2 ^ q.sizeLog2

/-- Words the queue holds (R131). -/
def Queue.len (q : Queue) : Nat := (q.tail - q.head).toNat

/-- The queue is full (R131). -/
def Queue.isFull (q : Queue) : Bool := decide (q.len ≥ q.size)

/-- Words the consumer may read (R136). -/
def Queue.shown (q : Queue) : Nat := (q.visible - q.head).toNat

/-- Device address of the ring place that a word count falls on (R130). -/
def Queue.ringAddr (q : Queue) (i : BitVec 32) : Nat := q.base + (i.toNat % q.size) * 64

/-- The count register of a queue (R136). -/
def Queue.countRegister (q : Queue) : Nat := flag q.enable 31 + flag q.gap.gapOpen 30 + q.shown % 2 ^ 25

/-- The queue descriptor in the layout of R131. -/
def Queue.descriptor (q : Queue) : Nat :=
  at' q.base 448 64 + at' q.head.toNat 416 32 + at' q.tail.toNat 384 32 + at' q.visible.toNat 352 32
  + at' q.gap.count 320 32 + at' q.gap.firstTick.toNat 256 64 + at' q.gap.firstHc.toNat 224 32
  + at' q.gap.lastTick.toNat 160 64 + at' q.gap.lastHc.toNat 128 32 + at' q.sizeLog2 123 5 + at' q.kind 120 3
  + at' q.part 116 4 + at' q.ctx 104 12 + at' q.cut 96 8 + flag q.enable 95 + flag q.flushPending 94
  + flag q.gap.gapOpen 93 + flag q.packetOpen 92 + at' q.packetLeft 76 16

/-- The word header's FIRST (R140). -/
def wordFirst (w : Block) : Bool := w.getLsbD 62
/-- The word header's LAST (R140). -/
def wordLast (w : Block) : Bool := w.getLsbD 61
/-- The word header's LENGTH (R140). -/
def wordLength (w : Block) : Nat := fld w.toNat 40 16

/-- The read image of a word: bit 63 is VALID (R130). -/
def readImage (w : Block) : Block := w ||| BitVec.ofNat 512 (2 ^ 63)

/-- A word as a queue keeps it: bit 63 is reserved (R130). -/
def storeImage (w : Block) : Block := w &&& ~~~ (BitVec.ofNat 512 (2 ^ 63))

/-- Whether a word continues the FIRST, LAST and LENGTH sequence of a queue (R141). -/
def Queue.sequenceOk (q : Queue) (w : Block) : Bool :=
  if q.packetOpen then !wordFirst w && (wordLast w == (q.packetLeft == 1))
  else wordFirst w && decide (wordLength w ≥ 1) && (wordLast w == (wordLength w == 1))
    && (decide (q.cut ≠ 0) || decide (wordLength w ≤ q.size))

/-- What a DATA queue does with a word offered to it (R137, R141). -/
inductive Offer where
  | taken | full | otherPacket | protocol
  deriving DecidableEq, Repr

/-- The answer of a DATA queue to a word of the producer whose turn it is (R137, R141). -/
def Queue.admits (q : Queue) (p : Producer) (w : Block) : Offer :=
  if q.packetOpen && decide (q.opener ≠ p) then .otherPacket
  else if !q.sequenceOk w then .protocol
  else if q.isFull then .full
  else .taken

/-- Whether a waiting producer can be served now: its word is taken, or refused (R137, R141). -/
def Queue.serves (q : Queue) (e : Producer × Block) : Bool :=
  match q.admits e.1 e.2 with
  | .taken | .protocol => true
  | _ => false

/-- The answer of a DATA queue to a word that a producer brings: the room that other producers wait for is theirs first
(R137, R141, R514; log 122). -/
def Queue.offer (q : Queue) (p : Producer) (w : Block) : Offer :=
  match q.admits p w with
  | .taken => if q.waiting.any fun e => decide (e.1 ≠ p) && q.serves e then .full else .taken
  | o => o

/-- The descriptor after a word of a DATA queue is enqueued: packet state, and VISIBLE by R142. -/
def Queue.afterData (q : Queue) (p : Producer) (w : Block) : Queue :=
  let tail := q.tail + 1
  let got := if q.packetOpen then q.packetGot + 1 else 1
  let left := if q.packetOpen then q.packetLeft - 1 else wordLength w - 1
  let last := wordLast w
  let vis := last || (decide (q.cut ≠ 0) && decide (got ≥ q.cut))
  { q with tail := tail, packetOpen := !last, packetLeft := left, packetGot := if last then 0 else got, opener := p,
           visible := if vis then tail else q.visible }

/-- A word is written into the ring at TAIL (R302). -/
def State.ringWrite (s : State) (n : Nat) (w : Block) : State :=
  s.writeWord ((s.queue n).ringAddr (s.queue n).tail) (storeImage w) 2

/-- A signal command (R163). -/
def mkCommand (chip number amount op tick : Nat) : BitVec 64 :=
  BitVec.ofNat 64 (at' chip 52 12 + at' number 34 18 + at' amount 18 16 + at' op 16 2 + at' tick 0 16)

/-- The signal of a bound DATA queue whose packet's LAST word has become visible: handed over behind the packet's words
(R164, R187). -/
def State.boundSignal (s : State) (n : Nat) : State :=
  let b := s.par K.queueSignalBind n
  if bit b 31 then
    let c := mkCommand s.chipId (fld b 0 18) 1 0 (s.tick.number.toNat % 2 ^ 16)
    { s with sig := { s.sig with inbound := s.sig.inbound ++ [{ cmd := c, src := .queue n }] } }
  else s

/-- A disable that waits for a packet boundary takes effect at it: no packet is open on either side (R159). -/
def Queue.settled (q : Queue) : Queue :=
  if q.control == some false && decide (q.kind ≥ 2) && !q.packetOpen && !q.readOpen then
    { q with enable := false, control := none }
  else q

/-- A word is enqueued in a DATA queue that takes it (R141, R142). -/
def State.enqueueData (s : State) (n : Nat) (p : Producer) (w : Block) : State :=
  let s := (s.ringWrite n w).modQueue n fun q => (q.afterData p w).settled
  if wordLast w then s.boundSignal n else s

/-- A word is appended to a queue whose words are packets of one word (R140, R142). -/
def State.append (s : State) (n : Nat) (w : Block) : State :=
  (s.ringWrite n w).modQueue n fun q => { q with tail := q.tail + 1, visible := q.tail + 1 }

/-- The gap with one more word dropped (R138). -/
def Gap.drop (g : Gap) (tick : BitVec 64) (hc : BitVec 32) : Gap :=
  { gapOpen := true
    count := Nat.min 0xFFFFFFFF (g.count + 1)
    firstTick := if g.gapOpen then g.firstTick else tick
    firstHc := if g.gapOpen then g.firstHc else hc
    lastTick := tick
    lastHc := hc }

/-- The gap once its marker is written: GAP_OPEN and GAP_COUNT clear (R138). -/
def Gap.close (g : Gap) : Gap := { g with gapOpen := false, count := 0 }

/-- A gap marker (R139). -/
def Gap.marker (g : Gap) : Block :=
  BitVec.ofNat 512 (at' g.firstTick.toNat 192 64 + at' g.firstHc.toNat 160 32 + at' g.lastTick.toNat 96 64
    + at' g.lastHc.toNat 64 32 + at' 0x7F 56 7 + at' g.count 0 32)

/-- Hub cycle within the tick, as the records carry it. -/
def State.hc32 (s : State) : BitVec 32 := BitVec.ofNat 32 s.clk.hc

/-- A word arrives at a TELEMETRY queue: appended, or dropped with a gap where the queue is full (R138). -/
def State.telemetryWord (s : State) (n : Nat) (w : Block) : State :=
  if (s.queue n).isFull then
    (s.modQueue n fun q => { q with gap := q.gap.drop s.tick.number s.hc32 }).bump K.telemetryWordsDropped
  else s.append n w

/-- The gap marker takes the place just freed in a TELEMETRY queue (R138). -/
def State.gapMarker (s : State) (n : Nat) : State :=
  if (s.queue n).gap.gapOpen then
    (s.append n (s.queue n).gap.marker).modQueue n fun q => { q with gap := q.gap.close }
  else s

/-- Whether a word count is where a packet cut short ends, and so counts as just past a LAST word (R513). -/
def Queue.endsAt (q : Queue) (i : BitVec 32) : Bool := q.cuts.contains i

/-- The word at HEAD as the consumer reads it. DESIGN CHOICE (log 98): a word whose ring block cannot be read is
returned as the bytes last accepted there; the spec gives a consumer no status for its words. -/
def State.headWord (s : State) (n : Nat) : Block := readImage (s.peekWord ((s.queue n).ringAddr (s.queue n).head))

/-- The descriptor after the word at HEAD is dequeued: whether the consumer is now part-way through a packet. -/
def Queue.afterTake (q : Queue) (w : Block) : Queue :=
  let head := q.head + 1
  let ends := decide (q.kind ≠ kindData) || wordLast w || q.endsAt head
  { q with head := head, readOpen := !ends, cuts := q.cuts.filter (· ≠ head) }

/-- The consumer takes the word at HEAD, which is read from its ring segment; a waiting gap marker takes the freed place
(R135, R138, R302). -/
def State.takeWord (s : State) (n : Nat) : State :=
  let w := s.headWord n
  let s := s.keepRead ((s.queue n).ringAddr (s.queue n).head)
  (s.modQueue n fun q => (q.afterTake w).settled).gapMarker n

/-- A flush that takes effect at once: every word of the queue is discarded, and a TELEMETRY queue with a gap takes its
marker as the first word after it (R143). -/
def State.flushNow (s : State) (n : Nat) : State :=
  let q := s.queue n
  let s := (s.modQueue n fun q => { q with head := q.tail, visible := q.tail, flushPending := false, cuts := [] }).bump
    K.queueWordsFlushed q.len
  s.gapMarker n

/-- A packet of a producer whose read failed is cut short: its words not yet visible are discarded, and its visible
words end it; a consumer that has read all of those has read the packet's last word (R513). -/
def State.cutPacket (s : State) (n : Nat) : State :=
  let q := s.queue n
  let lost := (q.tail - q.visible).toNat
  let shownWords := q.packetGot - lost
  let read := decide (shownWords ≠ 0) && q.head == q.visible
  (s.modQueue n fun q => { q with
    tail := q.visible, packetOpen := false, packetLeft := 0, packetGot := 0, readOpen := q.readOpen && !read
    cuts := if shownWords = 0 || read then q.cuts else q.cuts ++ [q.visible] : Queue }.settled).bump K.queueWordsFlushed lost

/-- An enabled TELEMETRY queue (R476, R481). -/
def State.isTelemetry (s : State) (n : Nat) : Bool := (s.queue n).enable && (s.queue n).kind == kindTelemetry

/-- Unit numbers of R418 that event-log words carry, in the order of the unit table of R24 (log 42 for
DEADLINE_MISSED). -/
def U.matchingStore : Nat := 0x02
def U.dispatchers : Nat := 0x03
def U.delayLists : Nat := 0x04
def U.signalUnit : Nat := 0x06
def U.stripe : Nat := 0x0D
def U.linkLayer : Nat := 0x0E
def U.resetSequencer : Nat := 0x15

/-- The event path has a free entry among its 64 (R484). -/
def State.eventRoom (s : State) : Bool := decide (s.tele.events.length + s.tele.brassPath.length < 64)

/-- An event-log word leaves the event path for the event-log queue, and uses the Queue Manager's lane of this hub
cycle; where the queue is not an enabled TELEMETRY queue it is a counted discard (R40, R481, R484). -/
def State.eventArrives (s : State) (w : Block) : State :=
  let n := s.par K.eventLogQueue
  let s := { s with tele := { s.tele with laneAt := some s.clk.abs } }
  if s.isTelemetry n then s.telemetryWord n w else s.bump K.eventLogWordsDropped

/-- An event-log word is offered to the event path: it passes at once where nothing waits before it and the lane is
free, else it waits; a full path drops it with a gap (R31, R484; log 90). -/
def State.offerEvent (s : State) (w : Block) : State :=
  if s.tele.events.isEmpty && s.tele.laneAt != some s.clk.abs then s.eventArrives w
  else if s.eventRoom then { s with tele := { s.tele with events := s.tele.events ++ [w] } }
  else
    ({ s with tele := { s.tele with eventGap := s.tele.eventGap.drop s.tick.number s.hc32 } }).bump K.eventLogWordsDropped

/-- Logs an event: one word for the event-log queue, or a counted discard where the queue is not an enabled TELEMETRY
queue (R481). -/
def State.logEvent (s : State) (event unit detail : Nat) : State :=
  let w := at' detail 256 256 + at' s.tick.number.toNat 192 64 + at' s.clk.hc 160 32 + at' event 144 16
    + at' unit 136 8 + at' 0x02 56 7
  if s.isTelemetry (s.par K.eventLogQueue) then s.offerEvent (BitVec.ofNat 512 w) else s.bump K.eventLogWordsDropped

/-- A reset of a level is logged as the RESET event (R395, R481). -/
def State.logReset (s : State) (level target cause : Nat) : State :=
  s.logEvent 0x0005 U.resetSequencer (at' level 0 4 + at' target 16 12 + at' cause 32 8)

/-- A decision that the Brass trace may record (R477). -/
structure BrassRec where
  ctx : Nat
  slot : Nat
  share : Nat
  port : Nat
  home : Nat
  cls : Nat
  tin : Bool
  part : Nat
  decision : Nat
  arg : Nat

/-- The layout of R477. -/
def BrassRec.word (r : BrassRec) (hc : Nat) : BitVec 128 :=
  BitVec.ofNat 128 (at' hc 96 32 + at' r.ctx 84 12 + at' r.slot 65 19 + at' r.share 57 8 + at' r.port 51 6
    + at' r.home 45 6 + at' r.cls 41 4 + flag r.tin 40 + at' r.part 36 4 + at' r.decision 32 4 + at' r.arg 0 32)

/-- Whether a record passes BRASS_FILTER (R478). -/
def State.brassPasses (s : State) (r : BrassRec) : Bool :=
  let f := s.par K.brassFilter
  bit f (176 + r.decision) && bit f (160 + r.part)
  && ((fld f 148 12 ^^^ r.ctx) &&& fld f 136 12) == 0
  && (match fld f 134 2 with | 0 => true | 1 => !r.tin | 2 => r.tin | _ => false)
  && (if r.decision = 2 then bit f 133 else bit f (192 + r.port))

/-- A packed Brass word (R479). -/
def State.brassWord (s : State) (rs : List (BitVec 128)) : Block :=
  BitVec.ofNat 512 (at' (nth rs 0 2).toNat 384 128 + at' (nth rs 0 1).toNat 256 128 + at' (nth rs 0 0).toNat 128 128
    + at' s.tick.number.toNat 64 64 + at' 0x01 56 7 + at' rs.length 54 2)

/-- Closes the open Brass word: it takes one of the packer's 4 places, or is dropped with a gap (R479, R480). -/
def State.brassClose (s : State) : State :=
  let rs := s.tele.brassOpen
  if rs.isEmpty then s
  else
    let w := s.brassWord rs
    let t : Telemetry := { s.tele with brassOpen := [] }
    if t.brassClosed.length < 4 then { s with tele := { t with brassClosed := t.brassClosed ++ [w] } }
    else ({ s with tele := { t with brassGap := t.brassGap.drop s.tick.number s.hc32 } }).bump K.brassWordsDropped

/-- Records a decision in the Brass trace where recording runs and the record passes the filter; where the queue
condition fails the record is discarded (R476). -/
def State.brass (s : State) (r : BrassRec) : State :=
  if !s.tele.brassOn || !s.brassPasses r then s
  else if !s.isTelemetry (s.par K.brassQueue) then
    { s with tele := { s.tele with brassDiscarded := s.tele.brassDiscarded + 1 } }
  else
    let s := ({ s with tele := { s.tele with brassOpen := s.tele.brassOpen ++ [r.word s.clk.hc] } }).bump K.brassRecords
    if s.tele.brassOpen.length ≥ 3 then s.brassClose else s

/-- The packer passes its oldest closed word to the event path, of whose entries 48 are open to it, and a gap marker
takes the place that frees (R480, R484). -/
def State.brassPass (s : State) : State :=
  match s.tele.brassClosed with
  | [] => s
  | w :: rest =>
    if s.tele.brassPath.length ≥ 48 || !s.eventRoom then s
    else
      let g := s.tele.brassGap
      let t : Telemetry := { s.tele with brassPath := s.tele.brassPath ++ [w], brassClosed := rest }
      { s with tele := if g.gapOpen then { t with brassClosed := rest ++ [g.marker], brassGap := g.close } else t }

/-- The gap marker of the event path takes the entry that frees (R31, R138). -/
def State.eventMarker (s : State) : State :=
  let g := s.tele.eventGap
  if g.gapOpen && s.eventRoom then
    { s with tele := { s.tele with events := s.tele.events ++ [g.marker], eventGap := g.close } }
  else s

/-- A Brass word leaves the event path for the Brass queue (R476). -/
def State.brassArrives (s : State) (w : Block) : State :=
  let n := s.par K.brassQueue
  let s := { s with tele := { s.tele with laneAt := some s.clk.abs } }
  if s.isTelemetry n then s.telemetryWord n w else s.bump K.brassWordsDropped

/-- The event path passes one word in a hub cycle, event-log words before Brass words (R31, R484). -/
def State.eventPass (s : State) : State :=
  match s.tele.events, s.tele.brassPath with
  | w :: rest, _ => (State.eventMarker { s with tele := { s.tele with events := rest } }).eventArrives w
  | [], w :: rest => (State.eventMarker { s with tele := { s.tele with brassPath := rest } }).brassArrives w
  | [], [] => s

/-- At a boundary the open word closes, and discarded records are counted three to a word, rounded up (R476). -/
def State.brassBoundary (s : State) : State :=
  let s := s.brassClose
  let d := s.tele.brassDiscarded
  ({ s with tele := { s.tele with brassDiscarded := 0 } }).bump K.brassWordsDropped (ceilDiv d 3)

end Sys2Proof.Machine
end

