-- ==== Sys2Proof/Machine/ReplayLog.lean ====
section
/-! DEFINITION. The replay log: entries written in RECORD, entries taken from the log in REPLAY, and divergence
(R379 to R388). -/
namespace Sys2Proof.Machine

/-- Kinds of log entry (R381). -/
def L.start : Nat := 0x01
def L.record : Nat := 0x02
def L.decision : Nat := 0x03
def L.param : Nat := 0x04
def L.image : Nat := 0x05
def L.table : Nat := 0x06
def L.update : Nat := 0x07
def L.signalAdmin : Nat := 0x08
def L.realign : Nat := 0x09
def L.hostSignal : Nat := 0x0A
def L.hostData : Nat := 0x0B
def L.flush : Nat := 0x0C
def L.fault : Nat := 0x0D
def L.checkpoint : Nat := 0x0E
def L.result : Nat := 0x0F
def L.dequeue : Nat := 0x10

/-- The mode in force is RECORD (R379). -/
def State.recording (s : State) : Bool := s.replay.mode == 1

/-- The mode in force is REPLAY (R379). -/
def State.replaying (s : State) : Bool := s.replay.mode == 2

/-- Places of the log ring (R379). -/
def State.logSize (s : State) : Nat := 2 ^ s.par K.replayLogLog2

/-- Entries in the ring (R379). -/
def State.logUsed (s : State) : Nat := (s.replay.produced - s.replay.consumed).toNat

/-- Whether n inputs find the 9 free entries each that RECORD asks for, with no entry waiting for a place (R382). -/
def State.logRoomFor (s : State) (n : Nat) : Bool :=
  !s.recording || (s.replay.backlog.isEmpty && decide (s.logUsed + 9 * n ≤ s.logSize))

/-- Whether an input finds the 9 free entries that RECORD asks for (R382). -/
def State.logRoom (s : State) : Bool := s.logRoomFor 1

/-- A change of the replay log unit. -/
def State.modReplay (s : State) (f : Replay → Replay) : State := { s with replay := f s.replay }

/-- An input is held for want of room in the log (R382). -/
def State.logWaits (s : State) : State := s.modReplay fun r => { r with waiting := true }

/-- A replay that has not diverged. -/
def State.following (s : State) : Bool := s.replaying && s.replay.status != 2

/-- Device address of a log entry (R379). -/
def State.logAddr (s : State) (i : BitVec 32) : Nat := s.par K.replayLogBase + (i.toNat % s.logSize) * 64

/-- A log entry's header (R380). -/
def logHeader (tick order kind bodyWords ctx gen args : Nat) : Block :=
  BitVec.ofNat 512 (at' tick 448 64 + at' order 416 32 + at' kind 408 8 + at' bodyWords 404 4 + at' ctx 392 12
    + at' gen 376 16 + at' args 0 376)

/-- Words that wait are written at the producer's end of the log while the ring has room; fuel bounds their number:
the ring never loses an entry (R382). -/
def State.logDrain : Nat → State → State
  | 0, s => s
  | f + 1, s =>
    match s.replay.backlog with
    | [] => s
    | w :: rest =>
      if s.logUsed ≥ s.logSize then s
      else
        let s := s.writeWord (s.logAddr s.replay.produced) w
        State.logDrain f ((s.modReplay fun r => { r with produced := r.produced + 1, backlog := rest }).bump K.replayEntries)

/-- Every word that waits and that the ring has room for is written (R382). -/
def State.logFlow (s : State) : State := State.logDrain s.replay.backlog.length s

/-- In RECORD, an input is logged at the moment it is applied: its boundary, its place among the entries of that
boundary, its context and arguments, and its body (R380, R381). -/
def State.logInput (s : State) (tick : BitVec 64) (kind ctx gen args : Nat) (body : List Block) : State :=
  if !s.recording then s
  else
    let order := Sparse.get s.replay.orders 0 tick.toNat
    let live := s.replay.orders.filter fun e => decide (s.tick.number.toNat ≤ e.1)
    let s := { s with replay := { s.replay with orders := Sparse.set live 0 tick.toNat (order + 1) } }
    let words := logHeader tick.toNat order kind body.length ctx gen args :: body
    (s.modReplay fun r => { r with backlog := r.backlog ++ words }).logFlow

/-- The boundary at which an input taken within a frame takes effect. -/
def State.nextTick (s : State) : BitVec 64 := s.tick.number + 1

/-- The boundary of what is logged now: within the phases of a boundary that boundary, otherwise the next one (R380). -/
def State.entryTick (s : State) : BitVec 64 := if s.replay.inPhases then s.tick.number else s.nextTick

/-- A 32-byte digest as a body word. -/
def digestWord (d : Nat) : Block := BitVec.ofNat 512 d

/-- Fields of an entry's header (R380). -/
def LogEntry.tick (e : LogEntry) : Nat := fld e.header.toNat 448 64
def LogEntry.kind (e : LogEntry) : Nat := fld e.header.toNat 408 8
def LogEntry.ctx (e : LogEntry) : Nat := fld e.header.toNat 392 12
def LogEntry.gen (e : LogEntry) : Nat := fld e.header.toNat 376 16
def LogEntry.arg (e : LogEntry) (lo len : Nat) : Nat := fld e.header.toNat lo len

/-- The entry at the consumer's end of the log, if the ring holds it whole. -/
def State.logHead (s : State) : Option LogEntry :=
  if s.logUsed = 0 then none
  else
    let h := s.peekWord (s.logAddr s.replay.consumed)
    let n := fld h.toNat 404 4
    if s.logUsed < n + 1 then none
    else some { header := h, body := (List.range n).map fun i =>
      s.peekWord (s.logAddr (s.replay.consumed + BitVec.ofNat 32 (i + 1))) }

/-- Takes the entries up to a tick from the log, in order, with the updates logged among them, whose stamps may be later
(R254, R380); fuel bounds their number (R386). -/
def State.logTake (tick : BitVec 64) : Nat → State → State
  | 0, s => s
  | f + 1, s =>
    match s.logHead with
    | none => s
    | some e =>
      if e.tick > tick.toNat ∧ e.kind ≠ L.update then s
      else State.logTake tick f { s with replay := { s.replay with
        due := s.replay.due ++ [e]
        consumed := s.replay.consumed + BitVec.ofNat 32 (e.body.length + 1) } }

/-- In REPLAY, the entries of the coming boundary and of the ones before are taken from the log, among them what the
recording logged within this frame (R380, R386). -/
def State.loadLog (s : State) : State := if s.replaying then State.logTake s.nextTick s.logUsed s else s

/-- The first entry due that satisfies a test. -/
def State.dueEntry (s : State) (p : LogEntry → Bool) : Option LogEntry := s.replay.due.find? p

/-- An entry due is reproduced. -/
def State.reproduced (s : State) (e : LogEntry) : State :=
  { s with replay := { s.replay with due := dropFirst (· == e) s.replay.due } }

/-- The replay diverges at an entry; admission ends at the next boundary (R387). -/
def State.diverge (s : State) (e : LogEntry) : State :=
  if s.replay.status = 2 then s
  else (s.modReplay fun r => { r with diverge := e.header, status := 2 }).raise A.replayDiverged

/-- SHA-256 of whole words, as a little-endian number. -/
def wordsDigest (ws : List Block) : Nat := sha256Nat (ws.flatMap fun w => leBytes 64 w.toNat)

/-- Whether comparison skips the results of a context: from the tick of a FAULT entry that names it, or in the frame
of an L3 or higher FAULT (R388). -/
def State.skipsResults (s : State) (ctx : Nat) : Bool :=
  let faulted (e : LogEntry) : Bool :=
    e.kind == L.fault && (decide (e.arg 368 8 ≥ 3) || e.ctx == ctx) && decide (e.tick ≤ s.entryTick.toNat)
  s.following && (s.replay.skipFrame || s.replay.skipCtx.contains ctx || s.replay.due.any faulted)

/-- A FAULT entry has been reproduced: what it names is not compared from here on (R388). -/
def State.skipFrom (s : State) (level ctx : Nat) : State :=
  if level ≥ 3 then s.modReplay fun r => { r with skipFrame := true }
  else s.modReplay fun r => { r with skipCtx := uniq (r.skipCtx ++ [ctx]) }

/-- A result enters the frame's sum (R384). -/
def State.countResult (s : State) (d : Nat) : State :=
  s.modReplay fun r => { r with sum := (r.sum + d) % 2 ^ 256, releasedInFrame := r.releasedInFrame + 1 }

/-- A result that comparison skips is kept apart (R388). -/
def State.countSkipped (s : State) (ctx d : Nat) : State :=
  if s.skipsResults ctx then s.modReplay fun r => { r with skipSum := (r.skipSum + d) % 2 ^ 256, skipCount := r.skipCount + 1 }
  else s

/-- A RESULT entry is taken from those due; the hash of one that comparison skips is kept apart (R387, R388). -/
def State.resultTaken (s : State) (e : LogEntry) : State :=
  let d := if s.skipsResults e.ctx then fld (e.body.getD 0 0).toNat 0 256 else 0
  (s.reproduced e).modReplay fun r => { r with loggedCount := r.loggedCount + 1, loggedSkip := (r.loggedSkip + d) % 2 ^ 256 }

end Sys2Proof.Machine
end

