-- ==== Sys2Proof/Machine/Operands.lean ====
section
/-! DEFINITION. The fields of the records the hub reads: request and flow records, images, templates, edges, tokens,
completion and yield records, signal commands and request blocks. -/
namespace Sys2Proof.Machine

/-- Bits [lo + len - 1 : lo] of a word. -/
def bits {w : Nat} (v : BitVec w) (lo len : Nat) : Nat := fld v.toNat lo len

/-- Bit i of a word. -/
def bitOf {w : Nat} (v : BitVec w) (i : Nat) : Bool := v.getLsbD i

/-- Request record fields (R62); flow records share the common ones (R147). -/
def Req.operand (r : Block) (i : Nat) : BitVec 64 := BitVec.ofNat 64 (bits r (256 + 64 * i) 64)
def Req.seed (r : Block) : Nat := bits r 192 64
def Req.flowSeq (r : Block) : BitVec 24 := BitVec.ofNat 24 (bits r 168 24)
def Req.flowId (r : Block) : Nat := bits r 148 20
def Req.flowed (r : Block) : Bool := bitOf r 147
def Req.tin (r : Block) : Bool := bitOf r 146
def Req.step (r : Block) : Nat := bits r 134 12
def Req.image (r : Block) : Nat := bits r 126 8
def Req.ctx (r : Block) : Nat := bits r 114 12
def Req.gen (r : Block) : BitVec 16 := BitVec.ofNat 16 (bits r 98 16)
def Req.share (r : Block) : Nat := bits r 90 8
def Req.part (r : Block) : Nat := bits r 86 4
def Req.deadline (r : Block) : Nat := bits r 70 16
def Req.command (r : Block) : Nat := bits r 66 4

/-- Commands of request and flow records (R62, R147). -/
def cmdStep : Nat := 0x1
def cmdJobOpen : Nat := 0x2
def cmdJobClose : Nat := 0x3
def cmdJoin : Nat := 0x4
def cmdLeave : Nat := 0x5

/-- Flow record fields (R147). -/
def FlowRec.reservation (r : Block) : Nat := bits r 480 32
def FlowRec.firstSeq (r : Block) : BitVec 24 := BitVec.ofNat 24 (bits r 456 24)
def FlowRec.resultQueue (r : Block) : Nat := bits r 442 14
def FlowRec.delay (r : Block) : Nat := bits r 439 3

/-- Template fields (R48). -/
def Tpl.arg (t : BitVec 256) : Nat := bits t 208 48
def Tpl.edgeFirst (t : BitVec 256) : Nat := bits t 176 32
def Tpl.edgeCount (t : BitVec 256) : Nat := bits t 160 16
def Tpl.cost (t : BitVec 256) : Nat := bits t 128 32
def Tpl.duration (t : BitVec 256) : Nat := bits t 114 14
def Tpl.scratch (t : BitVec 256) : Nat := bits t 98 16
def Tpl.depCount (t : BitVec 256) : Nat := bits t 90 8
def Tpl.operandMask (t : BitVec 256) : BitVec 4 := BitVec.ofNat 4 (bits t 86 4)
def Tpl.cls (t : BitVec 256) : Nat := bits t 82 4
def Tpl.opcode (t : BitVec 256) : Nat := bits t 66 16
def Tpl.prevStep (t : BitVec 256) : Bool := bitOf t 65
def Tpl.serial (t : BitVec 256) : Bool := bitOf t 64
def Tpl.result (t : BitVec 256) : Bool := bitOf t 63
def Tpl.instOperands (t : BitVec 256) : BitVec 4 := BitVec.ofNat 4 (bits t 59 4)
def Tpl.maxSpan (t : BitVec 256) : Nat := bits t 40 19
def Tpl.reserved (t : BitVec 256) : Nat := bits t 0 40

/-- Edge fields (R49). -/
def Edge.span (e : BitVec 32) : Nat := bits e 13 19
def Edge.output (e : BitVec 32) : Nat := bits e 11 2
def Edge.operand (e : BitVec 32) : Nat := bits e 9 2
def Edge.isOperand (e : BitVec 32) : Bool := bitOf e 8
def Edge.count (e : BitVec 32) : Nat := bits e 0 8

/-- Step table entry fields; offsets in bytes (R47). -/
def StepEntry.fullFirst (e : Block) : Nat := bits e 0 32
def StepEntry.fullCount (e : Block) : Nat := bits e 32 32
def StepEntry.fullWindow (e : Block) : Nat := bits e 64 8
def StepEntry.fallbackWindow (e : Block) : Nat := bits e 72 8
def StepEntry.flags (e : Block) : Nat := bits e 80 16
def StepEntry.chained (e : Block) : Bool := bitOf e 80
def StepEntry.fallbackFirst (e : Block) : Nat := bits e 96 32
def StepEntry.fallbackCount (e : Block) : Nat := bits e 128 32
def StepEntry.reserved1 (e : Block) : Nat := bits e 160 32
def StepEntry.fullCost (e : Block) : Nat := bits e 192 64
def StepEntry.fallbackCost (e : Block) : Nat := bits e 256 64
def StepEntry.fullPath (e : Block) : Nat := bits e 320 32
def StepEntry.fallbackPath (e : Block) : Nat := bits e 352 32
def StepEntry.reserved2 (e : Block) : Nat := bits e 384 128

/-- CLASS_TABLE entry fields (R45). -/
def ClassEntry.logical (c : BitVec 32) : Nat := bits c 0 8
def ClassEntry.reserved (c : BitVec 32) : Nat := bits c 8 8
def ClassEntry.tileMultiple (c : BitVec 32) : Nat := bits c 16 16

/-- Operand token fields (R53). -/
def Tok.value (t : BitVec 128) : BitVec 64 := BitVec.ofNat 64 (bits t 64 64)
def Tok.gen (t : BitVec 128) : BitVec 16 := BitVec.ofNat 16 (bits t 48 16)
def Tok.ctx (t : BitVec 128) : Nat := bits t 36 12
def Tok.slot (t : BitVec 128) : Nat := bits t 17 19
def Tok.operand (t : BitVec 128) : Nat := bits t 15 2
def Tok.isOperand (t : BitVec 128) : Bool := bitOf t 14
def Tok.empty (t : BitVec 128) : Bool := bitOf t 13
def Tok.count (t : BitVec 128) : Nat := bits t 0 8

/-- An operand token in the layout of R53. -/
def mkToken (value : BitVec 64) (gen : BitVec 16) (ctx slot operand : Nat) (isOperand empty : Bool) (count : Nat) :
    BitVec 128 :=
  BitVec.ofNat 128 (at' value.toNat 64 64 + at' gen.toNat 48 16 + at' ctx 36 12 + at' slot 17 19
    + at' operand 15 2 + flag isOperand 14 + flag empty 13 + at' count 0 8)

/-- Completion record fields (R87). -/
def Cmpl.output (r : BitVec 320) (i : Nat) : BitVec 64 := BitVec.ofNat 64 (bits r (64 + 64 * i) 64)
def Cmpl.status (r : BitVec 320) : Nat := bits r 0 2

/-- Fields of a signal command (R163). -/
def Sig.chip (c : BitVec 64) : Nat := bits c 52 12
def Sig.number (c : BitVec 64) : Nat := bits c 34 18
def Sig.amount (c : BitVec 64) : Nat := bits c 18 16
def Sig.op (c : BitVec 64) : Nat := bits c 16 2
def Sig.tick (c : BitVec 64) : Nat := bits c 0 16

/-- A command with a reserved OP, an AMOUNT of zero, or a NUMBER beyond the range; AMOUNT is ignored for an arrival
(R163, R170). -/
def Sig.bad (c : BitVec 64) : Bool :=
  decide (Sig.op c ≥ 2) || (Sig.op c == 0 && Sig.amount c == 0) || (Sig.op c == 1 && decide (Sig.number c ≥ 4096))

/-- The command of a SIG_POST's ARG, stamped with a tick (R167, R171). -/
def sigPostCommand (arg tick : Nat) : BitVec 64 :=
  mkCommand (fld arg 18 12) (fld arg 30 18) (fld arg 2 16) (fld arg 0 2) (tick % 2 ^ 16)

/-- Operation codes of the data tasks (R145, R171, R217, R226, R251, R276, R378). -/
def Op.qEnqueue : Nat := 0x0200
def Op.qDequeue : Nat := 0x0201
def Op.expRecv : Nat := 0x0302
def Op.expCollect : Nat := 0x0304
def Op.sigWait : Nat := 0x0600
def Op.sigPost : Nat := 0x0601
def Op.barrierArrive : Nat := 0x0602

/-- LIVE_BYTES of a yield record (R90). -/
def Yield.live (r : BitVec 64) : Nat := bits r 0 32

/-- A 64-bit output value. -/
def out64 (n : Nat) : BitVec 64 := BitVec.ofNat 64 n

end Sys2Proof.Machine
end

