-- ==== Sys2Proof/Machine/Tasks.lean ====
section
/-! DEFINITION. Tasks in the Matching Store: templates and instances, readiness and holds, Ready Lists and virtual time,
descriptors, completions, and the start of a context's teardown (R65 to R82, R190, R200, R216, R402). -/
namespace Sys2Proof.Machine

/-- A live instance by its number. -/
def State.inst (s : State) (id : Nat) : Option Instance := s.loader.instances.find? (·.id == id)

/-- Changes a live instance. -/
def State.modInst (s : State) (id : Nat) (f : Instance → Instance) : State :=
  { s with loader := { s.loader with instances := modWhere (·.id == id) f s.loader.instances } }

/-- A template of an image by its index in the template section. -/
def Image.tpl (i : Image) (n : Nat) : BitVec 256 := i.templates.getD n 0

/-- A CLASS_TABLE entry (R45). -/
def Image.cls (i : Image) (c : Nat) : BitVec 32 := i.classes.getD c 0

/-- The image an instance runs. -/
def State.instImage (s : State) (i : Instance) : Image := (s.image i.image).getD {}

/-- A template of an instance's graph by its index within the graph. -/
def State.instTpl (s : State) (i : Instance) (t : Nat) : BitVec 256 := (s.instImage i).tpl (i.first + t)

/-- Slots of an instance's window (R63). -/
def Instance.width (i : Instance) : Nat := 2 ^ i.wlog

/-- The slot that a template of an instance lives in (R63). -/
def Instance.slotOf (i : Instance) (t : Nat) : Nat := i.base.getD 0 + t % i.width

/-- The template of the task in a slot. -/
def State.slotTpl (s : State) (n : Nat) : BitVec 256 :=
  match s.inst (s.slot n).inst with
  | some i => s.instTpl i (s.slot n).tmpl
  | none => 0

/-- The request record that the task in a slot runs for. -/
def State.slotReq (s : State) (n : Nat) : Block :=
  match s.inst (s.slot n).inst with
  | some i => ((s.hold i.hold).map (·.record)).getD 0
  | none => 0

/-- The operation of a data task. -/
def State.slotOp (s : State) (n : Nat) : Nat := Tpl.opcode (s.slotTpl n)

/-- TILE_MULTIPLE of a class in the image of the task in a slot (R45). -/
def State.slotTile (s : State) (n cls : Nat) : Nat :=
  match s.inst (s.slot n).inst with
  | some i => ClassEntry.tileMultiple ((s.instImage i).cls cls)
  | none => 0

/-- TASK_ID of the task in a slot (R67). -/
def State.taskId (s : State) (n : Nat) : Nat :=
  let q := s.slot n
  match s.inst q.inst with
  | some i => at' i.step 20 12 + flag q.fallback 19 + at' q.tmpl 0 19
  | none => 0

/-- Operands of a slot. -/
def Slot.op (q : Slot) : Nat → BitVec 64
  | 0 => q.op0
  | 1 => q.op1
  | 2 => q.op2
  | _ => q.op3

/-- A slot with an operand written. -/
def Slot.setOp (q : Slot) (i : Nat) (v : BitVec 64) : Slot :=
  match i with
  | 0 => { q with op0 := v }
  | 1 => { q with op1 := v }
  | 2 => { q with op2 := v }
  | _ => { q with op3 := v }

/-- One bit of a 4-bit mask. -/
def mask4 (i : Nat) : BitVec 4 := BitVec.ofNat 4 (2 ^ i)

/-- Encodings of the slot states (R69). -/
def SlotState.code : SlotState → Nat
  | .free => 0
  | .reserved => 1
  | .waiting => 2
  | .held => 3
  | .ready => 4
  | .issued => 5
  | .yielded => 6
  | .done => 7

/-- A slot in the layout of R68; NEXT, which threads a list, is given by the lists themselves. -/
def Slot.word (q : Slot) (next : Nat) (operands : Bool) : Nat :=
  (if operands then at' q.op3.toNat 448 64 + at' q.op2.toNat 384 64 + at' q.op1.toNat 320 64 + at' q.op0.toNat 256 64
   else 0)
  + at' next 237 19 + at' q.present.toNat 233 4 + at' q.empty.toNat 229 4 + at' q.counter 221 8
  + at' q.state.code 218 3 + at' q.ctx 206 12 + at' q.gen.toNat 190 16 + at' q.inst 177 13 + at' q.tmpl 158 19
  + at' q.cls 154 4 + at' q.home 148 6 + at' q.port 142 6 + flag q.tin 141 + flag q.fallback 140 + flag q.result 139
  + flag q.serial 138 + at' q.status.code 130 8 + at' q.issueTime.toNat 98 32 + at' q.spillRef 74 24 + at' q.share 66 8

/-- Number of Dispatchers (R9). -/
def State.dispatchers (s : State) : Nat := s.build.enginePorts / 16

/-- Place of a logical map entry of a partition, class and logical engine (R79, R99). -/
def mapKey (part cls e : Nat) : Nat := (part * 12 + cls) * 64 + e

/-- The port that a logical engine is mapped to (R79). -/
def State.mapPort (s : State) (part cls e : Nat) : Option Nat :=
  let v := Sparse.get s.disp.maps 0 (mapKey part cls e)
  if bit v 7 then some (fld v 0 6) else none

/-- The home port of the task in a slot (R80). -/
def State.homePort (s : State) (n : Nat) : Option Nat :=
  let q := s.slot n
  s.mapPort q.part q.cls q.home

/-- A port keeps a task: resident bytes in its scratch map, or a spill plan whose SPILLs have not all ended, so that the
task's spill record is not updated yet (R206, R208, R214 step 4; log 48). -/
def EnginePort.keeps (e : EnginePort) (n : Nat) : Bool :=
  e.parkedTasks.any (fun k => k.slot == n && decide (k.resident > 0))
  || (e.sw.map fun w => w.planned.any fun x => x.2.slot == n).getD false

/-- The port a task is pinned to, if any (R208). -/
def State.parkPort (s : State) (n : Nat) : Option Nat := (s.disp.ports.find? fun e => e.2.keeps n).map (·.1)

/-- The task in a slot is pinned (R208). -/
def State.pinned (s : State) (n : Nat) : Bool := (s.parkPort n).isSome

/-- The port under which an engine task is listed: its park port while pinned, otherwise its home port (R80, R208). -/
def State.listPort (s : State) (n : Nat) : Option Nat :=
  match s.parkPort n with
  | some p => some p
  | none => s.homePort n

/-- The Dispatcher that lists the task in a slot (R80, R82). -/
def State.dispatcherOf (s : State) (n : Nat) : Nat :=
  if (s.slot n).cls = 0xC then n % 4 % s.dispatchers else (s.listPort n).getD 0 / 16

/-- Place of a virtual time (R189). -/
def vtimeKey (d : Nat) (tin : Bool) (g : Nat) : Nat := d * 512 + (if tin then 256 else 0) + g

/-- VTIME of a share group in a band at a Dispatcher. -/
def State.vtime (s : State) (d : Nat) (tin : Bool) (g : Nat) : Nat := Sparse.get s.disp.vtime 0 (vtimeKey d tin g)

/-- Changes VTIME of a share group. -/
def State.setVtime (s : State) (d : Nat) (tin : Bool) (g v : Nat) : State :=
  { s with disp := { s.disp with vtime := Sparse.set s.disp.vtime 0 (vtimeKey d tin g) (v % 2 ^ 64) } }

/-- The share groups active in a band at a Dispatcher (R190). -/
def State.activeGroups (s : State) (d : Nat) (tin : Bool) : List Nat :=
  uniq ((s.mat.ready.filter fun e => (s.slot e.slot).tin == tin && s.dispatcherOf e.slot == d).map
    fun e => (s.slot e.slot).share)

/-- VMIN as it stands before a group becomes active (R190). -/
def State.vmin (s : State) (d : Nat) (tin : Bool) : Nat :=
  match argMin id ((s.activeGroups d tin).map (s.vtime d tin)) with
  | some v => v
  | none => Sparse.get s.disp.vmax 0 (d * 2 + if tin then 1 else 0)

/-- A group becomes active: its VTIME is raised to VMIN (R190). -/
def State.onActive (s : State) (n : Nat) : State :=
  let q := s.slot n
  let d := s.dispatcherOf n
  if (s.activeGroups d q.tin).contains q.share then s
  else s.setVtime d q.tin q.share (Nat.max (s.vtime d q.tin q.share) (s.vmin d q.tin))

/-- A task issued is charged to its share group at the Dispatcher that issues it (R189). -/
def State.charge (s : State) (d n : Nat) : State :=
  let q := s.slot n
  let w := s.par K.shareWeight q.share
  let v := s.vtime d q.tin q.share + ceilDiv (Tpl.cost (s.slotTpl n) * 65536) w
  let s := s.setVtime d q.tin q.share v
  let k := d * 2 + if q.tin then 1 else 0
  { s with disp := { s.disp with vmax := Sparse.set s.disp.vmax 0 k (Nat.max (Sparse.get s.disp.vmax 0 k) v) } }

/-- A task stands in its Ready List by the hub cycle of its entry to READY and then by slot number (R82). -/
def State.listAt (s : State) (n at_ : Nat) : State :=
  let s := s.onActive n
  let e : ReadyEntry := { slot := n, at_ := at_, data := (s.slot n).cls == 0xC }
  let before (a b : ReadyEntry) : Bool := decide (a.at_ < b.at_) || (a.at_ == b.at_ && decide (a.slot < b.slot))
  { s with mat := { s.mat with ready := insertBy before e s.mat.ready } }

/-- A task enters its Ready List now (R82). -/
def State.list (s : State) (n : Nat) : State := s.listAt n s.clk.abs

/-- The hub cycle in which a listed task entered READY. -/
def State.readyAt (s : State) (n : Nat) : Nat := ((s.mat.ready.find? fun e => e.slot == n).map (·.at_)).getD s.clk.abs

/-- Hub cycles from the issue of the task in a slot to the expiry of its watchdog: four times DURATION at the clock in
force (R57, R391, R393). -/
def State.watchdogOf (s : State) (n : Nat) : Nat := 4 * s.hcOfNs (Tpl.duration (s.slotTpl n))

/-- The watchdog of the task in a slot has expired (R391, R393). -/
def State.overdue (s : State) (n : Nat) : Bool :=
  decide ((s.slot n).limit ≤ (BitVec.ofNat 32 s.clk.abs - (s.slot n).issueTime).toNat)

/-- A task leaves its Ready List. -/
def State.unlist (s : State) (n : Nat) : State :=
  { s with mat := { s.mat with ready := s.mat.ready.filter (·.slot ≠ n) } }

/-- Data operations that resolve without being issued: SIG_WAIT, BARRIER_ARRIVE, EXP_RECV, EXP_COLLECT (R172, R276). -/
def resolvesUnissued (op : Nat) : Bool :=
  op == Op.sigWait || op == Op.barrierArrive || op == Op.expRecv || op == Op.expCollect

/-- A SIG_POST that is not issued: its CHIP is this chip, or its ARG is not a command (R176). -/
def State.postsHere (s : State) (t : BitVec 256) : Bool :=
  let c := sigPostCommand (Tpl.arg t) 0
  Tpl.opcode t == Op.sigPost && (Sig.bad c || Sig.chip c == s.chipId)

/-- Operands of a template that edges fill (R50). -/
def Tpl.edgeOperands (t : BitVec 256) : BitVec 4 := Tpl.operandMask t &&& ~~~ Tpl.instOperands t

/-- A task resolves as skipped: an engine task with operand edges of which every one brought EMPTY (R75). -/
def Slot.skips (q : Slot) (t : BitVec 256) : Bool :=
  decide (q.cls ≤ 0xB) && decide (Tpl.edgeOperands t ≠ 0) && (Tpl.edgeOperands t &&& ~~~ q.empty == 0)

/-- The SERIAL template before a template of an instance, if any (R55). -/
def State.prevSerial (s : State) (i : Instance) : Nat → Option Nat
  | 0 => none
  | t + 1 => if Tpl.serial (s.instTpl i t) then some t else s.prevSerial i t

/-- A template of an instance that has been instantiated has completed: it is DONE or retired (R55, R70). -/
def State.tplCompleted (s : State) (i : Instance) (t : Nat) : Bool :=
  let q := s.slot (i.slotOf t)
  !(q.tmpl == t) || q.state == .done || q.state == .reserved || q.state == .free

/-- The flow of a task is suspended: its Tin tasks hold (R196). -/
def State.flowSuspended (s : State) (n : Nat) : Bool :=
  let r := s.slotReq n
  Req.flowed r && Req.tin r && (s.flow (Req.flowId r)).state == .suspended

/-- The holds of R70 and R196 on a task with all its inputs: the issue condition of R65, the serial chain, and the
suspension of its flow. -/
def State.holds (s : State) (n : Nat) : Bool :=
  let q := s.slot n
  match s.inst q.inst with
  | none => true
  | some i =>
    let t := s.instTpl i q.tmpl
    let notYet := decide (i.inst < Nat.min (q.tmpl + Tpl.maxSpan t + 1) i.count)
    let chain := Tpl.serial t && (match s.prevSerial i q.tmpl with
      | some p => !s.tplCompleted i p
      | none => false)
    notYet || chain || s.flowSuspended n

/-- A task that no hold keeps enters READY, or waits in HELD for the unit that resolves it (R70, R82, R172, R276). -/
def State.promote (s : State) (n : Nat) : State :=
  let q := s.slot n
  let t := s.slotTpl n
  if q.cls = 0xC ∧ resolvesUnissued (Tpl.opcode t) then s.modSlot n fun q => { q with state := .held }
  else
    let s := s.modSlot n fun q => { q with state := .ready }
    if q.cls = 0xF ∨ q.skips t ∨ (q.cls = 0xC ∧ s.postsHere t) then s else s.list n

/-- A listed task that would resume and whose flow has been suspended meanwhile: it stays in its Ready List and is not
issued (R69, R196, R215; DEDUCED, log 85). -/
def State.resumeHeld (s : State) (n : Nat) : Bool := (s.slot n).resume && s.flowSuspended n

/-- A task whose inputs are all present enters HELD or READY (R70, R74). -/
def State.enterReady (s : State) (n : Nat) : State :=
  if s.holds n then s.modSlot n fun q => { q with state := .held } else s.promote n

/-- All inputs of a task are present (R51). -/
def State.inputsPresent (s : State) (n : Nat) : Bool :=
  let q := s.slot n
  let mask := Tpl.operandMask (s.slotTpl n)
  q.counter == 0 && (mask &&& ~~~ q.present == 0)

/-- Looks whether a WAITING task has its last input (R74). -/
def State.checkInputs (s : State) (n : Nat) : State :=
  if (s.slot n).state = .waiting ∧ s.inputsPresent n then s.enterReady n else s

/-- Mask of the operands of a slot that the descriptor carries: declared and not EMPTY (R67). -/
def State.operandValid (s : State) (n : Nat) : BitVec 4 :=
  Tpl.operandMask (s.slotTpl n) &&& ~~~ (s.slot n).empty

/-- The task descriptor (R67); FLOW_ID is zero for an unflowed request (R369). -/
def State.descriptor (s : State) (n : Nat) : Block :=
  let q := s.slot n
  let t := s.slotTpl n
  let r := s.slotReq n
  let v := s.operandValid n
  let operand (i : Nat) : Nat := if v.getLsbD i then (q.op i).toNat else 0
  BitVec.ofNat 512 (at' (operand 3) 448 64 + at' (operand 2) 384 64 + at' (operand 1) 320 64 + at' (operand 0) 256 64
    + at' (Tpl.arg t) 208 48 + at' (if q.cls = 0xC then 0 else q.home) 202 6 + at' v.toNat 198 4
    + at' (Req.seed r) 128 64 + at' (s.taskId n) 96 32 + at' (Req.flowSeq r).toNat 72 24
    + at' (if Req.flowed r then Req.flowId r else 0) 52 20
    + at' (s.ctx q.ctx).gen.toNat 36 16 + at' q.ctx 24 12 + at' (Tpl.opcode t) 8 16 + at' q.cls 4 4 + flag q.tin 3
    + flag q.resume 1 + flag (Req.flowed r) 0)


/-- The digest record of a table that a snapshot reads: the one whose TICK is the latest not later (R272). -/
def Table.recordAt (t : Table) (snap : BitVec 32) : Option DigestRec :=
  t.records.find? fun r => serialLe 32 r.tick.toNat snap.toNat

/-- The (table, epoch, digest, VALID) pairs of a completed step, of requests that carry a run digest (R375). -/
def State.stepPairs (s : State) (i : Instance) : List (Nat × Nat × Nat × Bool) :=
  i.tables.map fun t =>
    let x := s.tableAt t i.admitTick.toNat
    match x.recordAt (i.admitTick.truncate 32) with
    | some r => (t, r.epoch.toNat, r.digest, r.valid)
    | none => (t, x.epoch.toNat, 0, false)

/-- The hold entry of the previous step of a request (R55): for a flowed request the step with the next lower
FLOW_SEQ of its flow, otherwise the step request of the context that arrived immediately before. -/
def State.prevHold (s : State) (h : Nat) : Option Nat :=
  match s.hold h with
  | none => none
  | some v =>
    let r := v.record
    let mine := s.adm.holds.filter fun e => e.1 ≠ h && Req.ctx e.2.record == Req.ctx r
      && Req.gen e.2.record == Req.gen r && Req.command e.2.record == cmdStep
    if Req.flowed r then
      (mine.find? fun e => Req.flowed e.2.record && Req.flowId e.2.record == Req.flowId r
        && Req.flowSeq e.2.record == Req.flowSeq r - 1).map (·.1)
    else (mine.find? fun e => some e.2.at_ == v.prevAt).map (·.1)

/-- The previous step of an instance has completed (R55, R58). -/
def State.prevCompleted (s : State) (i : Instance) : Bool :=
  if i.frame > 0 then
    !(s.loader.instances.any fun j => j.hold == i.hold && j.frame + 1 == i.frame && decide (j.done < j.count))
  else
    match s.prevHold i.hold with
    | none => true
    | some p => match s.hold p with
      | none => true
      | some v => v.phase == .complete

/-- The count of the previous step is credited to the PREV_STEP tasks of an instance already instantiated (R55). -/
def State.creditInst (s : State) (i : Instance) : State :=
  let s := s.modInst i.id fun i => { i with prevDone := true }
  let live := (List.range i.inst).filter fun t =>
    Tpl.prevStep (s.instTpl i t) && (s.slot (i.slotOf t)).tmpl == t && (s.slot (i.slotOf t)).state == .waiting
  s.each live fun s t => (s.modSlot (i.slotOf t) fun q => { q with counter := q.counter - 1 }).checkInputs (i.slotOf t)

/-- Credits every instance whose previous step has completed (R55). -/
def State.creditSteps (s : State) : State :=
  s.each (s.loader.instances.filter fun i => !i.prevDone) fun s i =>
    if s.prevCompleted i then s.creditInst i else s

/-- A reset in progress contains the teardown of a context (R398). -/
def State.absorbs (s : State) (c : Nat) : Bool :=
  s.resets.levels.any fun r => decide (r.level ≥ 3) || (r.level == 2 && (s.ctx c).job && (s.ctx c).part == r.target)

/-- An L0 of a context starts: the context enters TEARING, its bound claimants are unbound and its tasks leave the
Ready Lists (R402 step 1); a request for a context already in its L0 is absorbed, and an L2 takes an L0 in its drain
over (R398, R421). -/
def State.startL0 (s : State) (c cause : Nat) (byReset : Option Nat := none) : State :=
  let taken := byReset.isSome && (s.ctx c).tearing == .draining
  if (s.ctx c).tearing ≠ .none ∧ !taken ∨ s.absorbs c ∧ byReset = none then s
  else
    let s := s.modCtx c fun x => { x with tearing := .draining }
    let ofCtx (n : Nat) : Bool := (s.slot n).ctx == c
    let ports := Sparse.mapAll s.disp.ports {} fun _ p =>
      if (p.bound.map ofCtx).getD false then { p with bound := none } else p
    let l0 : L0 := { ctx := c, cause := cause, start := s.clk.abs, oldGen := (s.ctx c).gen, byReset := byReset }
    { s with
      mat := { s.mat with ready := s.mat.ready.filter fun e => !ofCtx e.slot }
      disp := { s.disp with ports := ports }
      resets := { s.resets with l0s := (s.resets.l0s.filter fun x => x.ctx ≠ c || x.complete) ++ [l0] } }

/-- A job fault tears down its own context and nothing else (R216). -/
def State.jobFault (s : State) (n cause : Nat) : State := s.startL0 (s.slot n).ctx cause

/-- A request outside its partition's windows: counted, raised, and its context torn down (R200). -/
def State.violation (s : State) (n : Nat) : State :=
  ((s.bump K.partitionViolations).raise A.partitionViolation).jobFault n 0x03

/-- Reads and writes of a data task are made block by block: the pieces of n bytes at an address, as (address, length);
fuel bounds their number. -/
def blockSpans : Nat → Nat → Nat → List (Nat × Nat)
  | 0, _, _ => []
  | f + 1, a, n =>
    if n = 0 then []
    else
      let k := Nat.min n (64 - a % 64)
      (a, k) :: blockSpans f (a + k) (n - k)

/-- One read request of a data task: outside its partition's windows it returns zeros and faults the job (R200). -/
def State.taskReadBlock (n hint : Nat) (acc : State × Status × List Byte) (p : Nat × Nat) : State × Status × List Byte :=
  let (s, st, bs) := acc
  if s.inWindow (s.slot n).part p.1 p.2 then
    let (s, st', b) := s.readBytes p.1 p.2 hint
    (s, st.worse st', bs ++ b)
  else (s.violation n, st, bs ++ List.replicate p.2 0)

/-- A read of bytes by a data task: the worst status of its blocks, and the bytes (R86, R200). -/
def State.taskRead (s : State) (n addr len : Nat) (hint : Nat := 0) : State × Status × List Byte :=
  (blockSpans (len + 1) addr len).foldl (State.taskReadBlock n hint) (s, .ok, [])

/-- One write request of a data task: outside its partition's windows it is discarded and faults the job (R200). -/
def State.taskWriteBlock (n hint : Nat) (s : State) (p : Nat × List Byte) : State :=
  if s.inWindow (s.slot n).part p.1 p.2.length then
    s.writePart p.1 p.2 (.task n (s.slot n).inst) hint
  else s.violation n

/-- A write of bytes by a data task (R200, R303). -/
def State.taskWrite (s : State) (n addr : Nat) (bytes : List Byte) (hint : Nat := 0) : State :=
  (blockPieces (bytes.length + 1) addr bytes).foldl (State.taskWriteBlock n hint) s

/-- The request block of a data task: the 64 bytes at its operand 0. -/
def State.requestBlock (s : State) (n : Nat) : State × Status × Block :=
  let (s, st, bs) := s.taskRead n (s.slot n).op0.toNat 64
  (s, st, BitVec.ofNat 512 (ofLe bs))

end Sys2Proof.Machine
end

