-- ==== Sys2Proof/Machine/Results.lean ====
section
/-! DEFINITION. Result records: how a request completes, and how its record reaches a RESULT queue (R149 to R157, R374 to
R377, R384). -/
namespace Sys2Proof.Machine

/-- An entry of the Flow Table counts as FREE unless its generation is its context's current one (R148). -/
def State.flowState (s : State) (f : Nat) : FlowState :=
  let e := s.flow f
  if e.gen = (s.ctx e.ctx).gen then e.state else .free

/-- The code of a STEP record from its sources (R154); late says whether LATE takes part (R384). -/
def Hold.stepStatus (h : Hold) (late : Bool) : Status :=
  let own (b : Bool) (st : Status) : Status := if b then st else .ok
  h.results.foldl (fun st r => st.worse r.2.2.2)
    ((own h.cancelled .cancelled).worse ((own (late && h.late) .late).worse ((own h.fallback .fallback).worse
      h.dataStatus)))

/-- The code of a result record (R154). -/
def Hold.status (h : Hold) (late : Bool) : Status :=
  if Req.command h.record = cmdStep then h.stepStatus late
  else if h.cancelled then .cancelled else .ok

/-- RESULT tasks of a request in order of frame step and then template index (R153). -/
def Hold.ordered (h : Hold) : List (Nat × Nat × BitVec 64 × Status) :=
  sortBy (fun a b => decide (a.1 < b.1) || (a.1 == b.1 && decide (a.2.1 < b.2.1))) h.results

/-- The result record (R153); a LEAVE's flow record names a flow, and no step and image; its bit 147 is zero (R147). -/
def Hold.resultWord (h : Hold) (st : Status) : Block :=
  let r := h.record
  let leave := Req.command r == cmdLeave
  let vals := h.ordered.map fun x => x.2.2.1.toNat
  let v (i : Nat) : Nat := vals.getD i 0
  BitVec.ofNat 512 (at' (v 3) 448 64 + at' (v 2) 384 64 + at' (v 1) 320 64 + at' (v 0) 256 64
    + at' h.admitTick.toNat 224 32 + at' h.completeTick.toNat 192 32 + at' (Req.flowSeq r).toNat 168 24
    + at' (Req.flowId r) 148 20 + flag (Req.flowed r) 147 + flag (Req.tin r) 146
    + at' (if leave then 0 else Req.step r) 134 12 + at' (if leave then 0 else Req.image r) 126 8 + at' (Req.ctx r) 114 12 + at' (Req.gen r).toNat 98 16 + at' st.code 90 8
    + at' (Nat.min 255 h.results.length) 82 8 + flag h.digestOn 81 + at' (Req.command r) 66 4)

/-- The result hash (R384). -/
def Hold.resultHash (h : Hold) : Nat :=
  let w := h.resultWord (h.status false)
  wordsDigest [w &&& ~~~ (BitVec.ofNat 512 (at' (2 ^ 32 - 1) 192 32 + 2 ^ 63))]

/-- A touched pair joins those of a request: a pair touched before keeps one entry, with the record as read last; it
is VALID if it was so every time (R375, R377; log 105). -/
def addPair (l : List (Nat × Nat × Nat × Bool)) (p : Nat × Nat × Nat × Bool) : List (Nat × Nat × Nat × Bool) :=
  let same (q : Nat × Nat × Nat × Bool) : Bool := q.1 == p.1 && q.2.1 == p.2.1
  if l.any same then modWhere same (fun q => (p.1, p.2.1, p.2.2.1, q.2.2.2 && p.2.2.2)) l else l ++ [p]

/-- The distinct pairs of a request, ascending by table and then epoch (R375). -/
def Hold.pairList (h : Hold) : List (Nat × Nat × Nat × Bool) :=
  sortBy (fun a b => decide (a.1 < b.1) || (a.1 == b.1 && decide (a.2.1 < b.2.1))) h.pairs

/-- No run digest can be formed: a record is not VALID, or more than 64 pairs are touched (R377). -/
def Hold.incomplete (h : Hold) : Bool := h.pairList.any (fun p => !p.2.2.2) || decide (h.pairList.length > 64)

/-- The byte string that a run digest covers (R375). -/
def Hold.digestString (h : Hold) : List Byte :=
  let r := h.record
  let input := r &&& ~~~ (BitVec.ofNat 512 (at' (2 ^ 28 - 1) 98 28))
  let ps := h.pairList
  leBytes 32 h.imageDigest.toNat ++ leBytes 4 0x00020000 ++ leBytes 2 h.chipCount ++ leBytes 8 (Req.seed r) ++ sha256 (leBytes 64 input.toNat)
  ++ leBytes 2 h.decisions.length ++ h.decisions.map (fun d => if d then (1 : Byte) else 0)
  ++ leBytes 2 ps.length ++ ps.flatMap fun p => leBytes 2 p.1 ++ leBytes 4 p.2.1 ++ leBytes 32 p.2.2.1

/-- The run-digest word (R377). -/
def Hold.digestWord (h : Hold) : Block :=
  let inc := h.incomplete
  BitVec.ofNat 512 (at' (if inc then 0 else sha256Nat h.digestString) 256 256 + at' h.pairList.length 240 16
    + at' h.decisions.length 224 16 + at' h.chipCount 208 16 + flag inc 200)

/-- Whether a RESULT queue has room for a record (R137, R152, R374): a disabled queue makes it wait like a full one. -/
def State.resultRoom (s : State) (q words : Nat) : Bool :=
  (s.queue q).enable && (s.queue q).kind == kindResult && decide ((s.queue q).len + words ≤ (s.queue q).size)

/-- Words that the record of a hold entry takes (R374). -/
def Hold.words (h : Hold) : Nat := if h.digestOn then 2 else 1

/-- The result of a request enters the frame's sum and, with REPLAY_RESULT_HASHES set, a RESULT entry of the log, or is
compared with the logged one (R381, R384, R387, R388). -/
def State.hashResult (s : State) (h : Hold) : State :=
  let c := Req.ctx h.record
  let d := h.resultHash
  let s := (s.countResult d).countSkipped c d
  let hashes := s.par K.replayResultHashes == 1
  let s := if hashes then
      s.logInput s.entryTick L.result c (Req.gen h.record).toNat (at' h.reqNo 356 20) [digestWord d]
    else s
  if !s.following then s
  else
    let s := s.loadLog
    match s.dueEntry fun e => e.kind == L.result && e.ctx == c && e.arg 356 20 == h.reqNo with
    | none => s
    | some e =>
      let s' := s.resultTaken e
      if !hashes || e.body = [digestWord d] || s.skipsResults c then s' else s'.diverge e

/-- A result record is posted: the record, its run-digest word, and what it counts; its hold entry is freed (R155,
R193, R374). -/
def State.post (s : State) (q n : Nat) : State :=
  match s.hold n with
  | none => s
  | some h =>
    let r := h.record
    let c := Req.ctx r
    let s := (s.append q (h.resultWord (h.status true))).bump K.resultsReleased
    let s := if h.digestOn then
        let s := (s.append q h.digestWord).bump K.runDigestsWritten
        if h.incomplete then s.bump K.runDigestsIncomplete else s
      else s
    let s := if Req.command r = cmdJobOpen then s.account K.clientJobCounts c 1
      else if Req.command r = cmdStep then s.account K.clientJobCounts (4096 + c) 1 else s
    (s.hashResult h).freeHold n

/-- Records of unflowed requests and leaves waiting for their queues are posted in completion order, those of one queue
never passing each other (R155). -/
def State.postWaiting (s : State) : State :=
  let step (acc : State × List Nat) (e : Nat × Nat) : State × List Nat :=
    let (s, blocked) := acc
    match s.hold e.1 with
    | none => ({ s with adm := { s.adm with unposted := dropFirst (· == e) s.adm.unposted } }, blocked)
    | some h =>
      if blocked.contains e.2 || !s.resultRoom e.2 h.words then (s, e.2 :: blocked)
      else
        let s := s.post e.2 e.1
        ({ s with adm := { s.adm with unposted := dropFirst (· == e) s.adm.unposted } }, blocked)
  (s.adm.unposted.foldl step (s, [])).1

/-- A complete record goes to its RESULT queue, or waits in the hold pool (R155). -/
def State.postOrWait (s : State) (q n : Nat) : State :=
  ({ s with adm := { s.adm with unposted := s.adm.unposted ++ [(n, q)] } }).postWaiting

/-- Sets the DONE_MASK bit of a request of a flow (R155). -/
def State.markReleasable (s : State) (f : Nat) (seq : BitVec 24) : State :=
  s.modFlow f fun e => { e with done := e.done ||| BitVec.ofNat 16 (2 ^ (seq - e.rel).toNat) }

/-- A request whose record may leave once its delayed-release entry, if any, has expired (R155). -/
def State.offerRelease (s : State) (n : Nat) : State :=
  match s.hold n with
  | none => s
  | some h =>
    let r := h.record
    if Req.flowed r then
      if h.delayed then s else s.markReleasable (Req.flowId r) (Req.flowSeq r)
    else s.postOrWait (s.ctx (Req.ctx r)).resultQueue n

/-- A request completes in the current tick (R153, R155). -/
def State.completeRequest (s : State) (n : Nat) : State :=
  (s.modHold n fun h => { h with phase := .complete, completeTick := s.tick.number }).offerRelease n

/-- Whether a context's bit is set in RUN_DIGEST_CONTEXTS (R374). -/
def State.digestsContext (s : State) (c : Nat) : Bool := bit (s.par K.runDigestContexts) c

/-- ADMIT_TICK of a record no frame step of which was admitted is a free value (R153; log 3). -/
def State.freeAdmitTick (s : State) (n : Nat) : State :=
  let (k, s) := s.fresh
  s.modHold n fun h => { h with admitTick := (Config.admitTick k).setWidth 64 }

/-- IMAGE_DIGEST of the image that a request names (R45, R375). -/
def State.imageDigestOf (s : State) (h : Hold) : BitVec 256 :=
  BitVec.ofNat 256 (((s.image (Req.image h.record)).map (·.digest.toNat)).getD 0)

/-- A STEP request ends with CANCELLED without running; its record takes its place in sequence (R118, R156). -/
def State.cancelRequest (s : State) (n : Nat) : State :=
  let s := (s.freeAdmitTick n).modHold n fun h => { h with
    cancelled := true, digestOn := s.digestsContext (Req.ctx h.record), chipCount := s.par K.chipCount
    imageDigest := s.imageDigestOf h
    decisions := [], pairs := [] }
  s.completeRequest n

/-- The hold entry of a request of a flow (R155). -/
def State.flowHold (s : State) (f : Nat) (seq : BitVec 24) : Option Nat :=
  (s.adm.holds.find? fun e => Req.command e.2.record == cmdStep && Req.flowed e.2.record && Req.flowId e.2.record == f && Req.flowSeq e.2.record == seq
    && Req.gen e.2.record == (s.flow f).gen && Req.ctx e.2.record == (s.flow f).ctx).map (·.1)

/-- A hold entry is of a LEAVE of a flow, under the flow's current generation. -/
def State.isLeaveOf (s : State) (f : Nat) (h : Hold) : Bool :=
  Req.command h.record == cmdLeave && Req.flowId h.record == f && Req.gen h.record == (s.flow f).gen
    && Req.ctx h.record == (s.flow f).ctx

/-- The record of a LEAVE that a flush discarded is due once every result of the flow accepted before it has been
released (R156). -/
def State.offerLeaves (s : State) (f : Nat) : State :=
  let due (h : Hold) : Bool :=
    s.isLeaveOf f h && h.cancelled && h.phase == .admitted && Req.flowSeq h.record == (s.flow f).rel
  s.each (s.adm.holds.filter fun e => due e.2) fun s e =>
    (s.modHold e.1 fun h => { h with phase := .complete }).postOrWait (s.flow f).resultQueue e.1

/-- A LEAVE record of a flow waits for room in the flow's RESULT queue. -/
def State.leaveWaits (s : State) (f : Nat) : Bool :=
  s.adm.unposted.any fun e => ((s.hold e.1).map (s.isLeaveOf f)).getD false

/-- Results of a flow are released in FLOW_SEQ order while the next one is releasable and the queue has room; fuel is
the 16 results a flow can hold (R149, R155). -/
def State.releaseFlow (f : Nat) : Nat → State → State
  | 0, s => s
  | k + 1, s0 =>
    let s := s0.offerLeaves f
    let e := s.flow f
    if !e.done.getLsbD 0 || s.leaveWaits f then s
    else
      match s.flowHold f e.rel with
      | none => s
      | some n =>
        if !s.resultRoom e.resultQueue (((s.hold n).map Hold.words).getD 1) then s
        else
          let s := s.post e.resultQueue n
          State.releaseFlow f k (s.modFlow f fun e => { e with rel := e.rel + 1, done := e.done >>> 1 })

/-- A request cannot complete yet, its successor awaiting admission or a step of it running (R58), or cannot complete at
all, its context being torn down: its final code is the teardown's (R401). -/
def State.stepsRemain (s : State) (n : Nat) : Bool :=
  (((s.hold n).map fun h => decide ((s.ctx (Req.ctx h.record)).tearing ≠ .none)).getD false)
  || (s.adm.carried.any fun c => c.kind == .chained && c.id == n)
  || s.loader.instances.any fun i => i.hold == n && decide (i.done < i.count)

/-- A step is complete when every template of its instance has reached DONE: its digests are read, the next step is
credited, and the last of its frame steps to complete completes the request (R58, R124, R375). -/
def State.stepComplete (s : State) (i : Instance) : State :=
  let pairs := s.stepPairs i
  let s := s.modHold i.hold fun h => if h.digestOn then { h with pairs := pairs.foldl addPair h.pairs } else h
  let s := if s.stepsRemain i.hold then s else s.completeRequest i.hold
  s.creditSteps

/-- A completion is accepted: the slot enters DONE, its result and status reach the request, and its tokens await
formation (R76, R77, R154); in a context being torn down it forms none (R402). -/
def State.accept (s : State) (n : Nat) (status : Status) (outs : List (BitVec 64)) (empty : Bool)
    (port : Option Nat) (data : Bool) (fence : Nat) : State :=
  let q := s.slot n
  let status := status.worse q.dataStatus
  let s := (s.modSlot n fun q => { q with state := .done, status := status }).unlist n
  let s := match s.inst q.inst with
    | none => s
    | some i =>
      let s := s.modInst i.id fun i => { i with done := i.done + 1 }
      s.modHold i.hold fun h => { h with
        dataStatus := if status.isData then h.dataStatus.worse status else h.dataStatus
        results := if q.result then h.results ++ [(i.frame, q.tmpl, outs.getD 0 0, status)] else h.results }
  let c := PendingCompletion.mk n outs empty port data (decide (fence > 0))
  let s := if (s.ctx q.ctx).tearing ≠ .none then s else { s with mat := { s.mat with pend := s.mat.pend ++ [c] } }
  match s.inst q.inst with
  | some i => if i.done = i.count then s.stepComplete i else s
  | none => s

/-- A write of the task in a slot is held (R316). -/
def State.slotWrites (s : State) (n : Nat) : Bool :=
  s.stripe.heldWrites.any fun h => h.src == .task n (s.slot n).inst

/-- A data task's completion is accepted; its completion credit is recovered (R32). It is reported only once none of the
task's writes is held (R78, R242). -/
def State.dataDone (s : State) (n : Nat) (status : Status) (outs : List (BitVec 64)) : State :=
  if s.slotWrites n then { s with mat := { s.mat with late := s.mat.late ++ [(n, status, outs)] } }
  else
    let s := s.accept n status outs false none true 0
    { s with mat := { s.mat with credits := s.mat.credits + 1 } }

/-- The item on the data-task path that the data plane works on: the task in a slot is ISSUED data of an operation,
and its work is not done. -/
def State.isItem (s : State) (n op : Nat) : Bool :=
  let q := s.slot n
  q.state == .issued && q.cls == 0xC && s.slotOp n == op && !s.mat.late.any fun e => e.1 == n

/-- The state in which a reader's work begins: it notes any block that it would have to wait for, unless its wait has
timed out (R315). -/
def State.asking (s : State) (who : MemSource) : State :=
  { s with stripe := { s.stripe with asker := if s.stripe.expired.contains who then none else some who, stuck := none } }

/-- The state that a reader's work leaves once it is done. -/
def State.doneAsking (s : State) (who : MemSource) : State :=
  { s with stripe := { s.stripe with asker := none, expired := s.stripe.expired.filter (· ≠ who) } }

/-- Runs a reader's work: where it comes upon a block that it must wait for (R315, case 3), nothing of the work is
done and the read is held; once that wait has timed out the work runs to its end with the read failed (log 40). -/
def State.patient (who : MemSource) (f : State → State) (s : State) : State :=
  let t := f (s.asking who)
  match t.stripe.stuck with
  | some a =>
    if s.stripe.heldReads.any fun h => h.src == who then s
    else { s with stripe := { s.stripe with
      nextHeld := s.stripe.nextHeld + 1, heldReads := s.stripe.heldReads ++ [{ id := s.stripe.nextHeld, addr := a, src := who }] } }
  | none => t.doneAsking who

/-- An aborted item returns its completion: the Matching Store drops it and the credit is recovered (R403). -/
def State.returnAbort (s : State) (n : Nat) : State :=
  { s with mat := { s.mat with aborts := dropFirst (· == n) s.mat.aborts, credits := s.mat.credits + 1 } }

/-- The item in a slot arrives at its unit, after those handed onto the data-task path before it (R31). -/
def State.arriveItem (s : State) (n : Nat) : State :=
  if s.mat.path.contains n then
    { s with mat := { s.mat with path := (s.mat.path.dropWhile fun m => m != n).drop 1 } }
  else s

/-- Runs a data-plane operation on the item in a slot: an aborted item only returns its completion, and a slot that
holds no item of the operation changes nothing (R31, R403). -/
def State.onItem (s : State) (n op : Nat) (f : State → State) : State :=
  if s.mat.aborts.contains n then (s.arriveItem n).returnAbort n
  else if s.isItem n op then (s.arriveItem n).patient (.task n (s.slot n).inst) f
  else s

end Sys2Proof.Machine
end

