-- ==== Sys2Proof/Machine/Flags.lean ====
section
/-! DEFINITION. The pins that follow a condition at all times, ALARM_N and CLK_REQ, and the frame of every command: its
effect, the pins brought into line, the queue of commands left alone. -/
namespace Sys2Proof.Machine

/-- The clock level requested (R432): the lowest of CLOCK_CAP_LEVEL, 0 before Noon and in P2 and P3 (R436),
P1_CLOCK_LEVEL in P1, and the throttle level. -/
def State.clockLevel (s : State) : Nat :=
  let before := if s.power.stage = 2 ∧ s.power.state ≤ 1 then 8 else 0
  let p1 := if s.power.state = 1 then s.par K.p1ClockLevel else 8
  Nat.min (Nat.min (s.par K.clockCapLevel) before) (Nat.min p1 s.power.throttle)

/-- Whether any latch is pending and not masked (R483). -/
def State.alarmDue (s : State) : Bool :=
  s.tele.latches.any fun e => e.2.pending && !bit (s.par K.alarmMask) e.1

/-- The level of ALARM_N: low while an unmasked latch is pending, high while RESET_N is low (R483). -/
def State.alarmPin (s : State) : Bool := !s.pins.resetN || !s.alarmDue

/-- CLK_REQ takes a new level; after a lowering the previous level's frequency still converts durations for 50 µs, and
after a raise HCLK has 50 µs to follow (R431, R432). -/
def State.setClock (s : State) (level : Nat) : State :=
  let lower : Bool := decide (level < s.pins.clkReq)
  ({ s with pins := { s.pins with clkReq := level }
            power := { s.power with
              settle := if lower then some s.convLevel else none
              raisedAt := if lower then none else some s.clk.units } }).bump K.clockLevelChanges

/-- ALARM_N and CLK_REQ take the levels their conditions ask for (R432, R483). -/
def State.settle (s : State) : State :=
  let s := if s.clockLevel = s.pins.clkReq then s else s.setClock s.clockLevel
  { s with pins := { s.pins with alarmN := s.alarmPin } }

/-- The outcome of a command: nothing is on the output ports yet, its effect, the pins in line, the queue unchanged. -/
def run (f : State → State) (s : State) : Host.Outcome State Fault Refusal :=
  .next { State.settle (f { s with out := [] }) with pending := s.pending }

/-- A command to a unit of the control or data plane: without effect while those planes are in reset or off. -/
def runCore (f : State → State) (s : State) : Host.Outcome State Fault Refusal :=
  run (fun s => if s.off then s else f s) s

/-- A command to the management plane, which serves in every power state but not while RESET_N is low. -/
def runMgmt (f : State → State) (s : State) : Host.Outcome State Fault Refusal :=
  run (fun s => if s.pins.resetN then f s else s) s

/-- A command that names a port: a port the build does not have does not exist (R8). -/
def runPort (present : Bool) (f : State → State) (s : State) : Host.Outcome State Fault Refusal :=
  if present then runCore f s else .fault .noSuchPort

/-- The build has an engine port. -/
def State.hasEngine (s : State) (p : Nat) : Bool := decide (p < s.build.enginePorts)
/-- The build has a memory port. -/
def State.hasMemory (s : State) (p : Nat) : Bool := decide (p < s.build.memoryPorts)
/-- The build has a link port. -/
def State.hasLink (s : State) (p : Nat) : Bool := decide (p < s.build.linkPorts)

end Sys2Proof.Machine
end

