-- ==== Sys2Proof/Machine/Flits.lean ====
section
/-! DEFINITION. Flits, streams and routing: how records become flits, where flits go, and how they are delivered
(R336 to R348). -/
namespace Sys2Proof.Machine

/-- A flit (R336). -/
abbrev Flit := BitVec 2048

/-- A field of a word replaced. -/
def setBits {w : Nat} (v : BitVec w) (lo len x : Nat) : BitVec w :=
  (v &&& ~~~ (BitVec.ofNat w ((2 ^ len - 1) <<< lo))) ||| BitVec.ofNat w (at' x lo len)

/-- Fields of a flit (R336). -/
def Flit.crc (f : Flit) : Nat := bits f 2016 32
def Flit.seq (f : Flit) : BitVec 13 := BitVec.ofNat 13 (bits f 2003 13)
def Flit.vc (f : Flit) : Nat := bits f 2001 2
def Flit.cls (f : Flit) : Bool := bitOf f 2000
def Flit.family (f : Flit) : Nat := bits f 1997 3
def Flit.slots (f : Flit) : Nat := bits f 1993 4
def Flit.src (f : Flit) : Nat := bits f 1981 12
def Flit.dst (f : Flit) : Nat := bits f 1969 12
def Flit.hops (f : Flit) : Nat := bits f 1957 12
def Flit.incarnation (f : Flit) : BitVec 2 := BitVec.ofNat 2 (bits f 1955 2)
def Flit.streamSeq (f : Flit) : BitVec 18 := BitVec.ofNat 18 (bits f 1937 18)
def Flit.ackVc (f : Flit) : Nat := bits f 1935 2
def Flit.ackSeq (f : Flit) : BitVec 13 := BitVec.ofNat 13 (bits f 1922 13)
def Flit.alt (f : Flit) : Bool := bitOf f 1921
def Flit.payload (f : Flit) (i : Nat) : BitVec 128 := BitVec.ofNat 128 (bits f (128 * i) 128)

/-- The payload slots in use. -/
def Flit.records (f : Flit) : List (BitVec 128) := (List.range f.slots).map f.payload

/-- The CRC that a flit's other bytes call for (R336). -/
def Flit.crcDue (f : Flit) : Nat := crc32c (leBytes 252 f.toNat)

/-- A flit with its CRC formed. -/
def Flit.sealed (f : Flit) : Flit := setBits f 2016 32 f.crcDue

/-- Payload slots as a number. -/
def slotsValue (l : List (BitVec 128)) : Nat := ofLe (l.flatMap fun w => leBytes 16 w.toNat)

/-- A 64-byte block as four payload slots, bytes ascending (R337, R338). -/
def blockSlots (w : Block) : List (BitVec 128) := (List.range 4).map fun i => BitVec.ofNat 128 (bits w (128 * i) 128)

/-- Bytes as payload slots, the last padded with zero. -/
def byteSlots (bs : List Byte) : List (BitVec 128) := (chunks 16 bs).map fun c => BitVec.ofNat 128 (ofLe c)

/-- The bytes of payload slots. -/
def slotBytes (l : List (BitVec 128)) : List Byte := l.flatMap fun w => leBytes 16 w.toNat

/-- A data flit as it is first formed, before its hop fields (R336, R345). -/
def mkFlit (vc family src dst : Nat) (inc : BitVec 2) (sseq : Nat) (payload : List (BitVec 128)) : Flit :=
  BitVec.ofNat 2048 (slotsValue payload + at' vc 2001 2 + at' family 1997 3 + at' payload.length 1993 4
    + at' src 1981 12 + at' dst 1969 12 + at' inc.toNat 1955 2 + at' sseq 1937 18)

/-- Record families (R337). -/
def Fam.signal : Nat := 0
def Fam.remote : Nat := 1
def Fam.exchange : Nat := 2
def Fam.replica : Nat := 3
def Fam.write : Nat := 4
def Fam.queue : Nat := 5
def Fam.mgmt : Nat := 6
def Fam.control : Nat := 7

/-- Place of a stream's state: by chip and virtual channel (R345, R346). -/
def streamKey (chip vc : Nat) : Nat := chip * 4 + vc

/-- The transmit side of a virtual channel. -/
def LinkPort.txVc (p : LinkPort) (vc : Nat) : TxVc := Sparse.get p.tx {} vc
/-- The receive side of a virtual channel. -/
def LinkPort.rxVc (p : LinkPort) (vc : Nat) : RxVc := Sparse.get p.rx {} vc
/-- Changes the transmit side of a virtual channel. -/
def LinkPort.modTx (p : LinkPort) (vc : Nat) (f : TxVc → TxVc) : LinkPort :=
  { p with tx := Sparse.set p.tx {} vc (f (p.txVc vc)) }
/-- Changes the receive side of a virtual channel. -/
def LinkPort.modRx (p : LinkPort) (vc : Nat) (f : RxVc → RxVc) : LinkPort :=
  { p with rx := Sparse.set p.rx {} vc (f (p.rxVc vc)) }

/-- A port that carries flits (R348). -/
def State.linkUp (s : State) (p : Nat) : Bool := s.hasLink p && (s.lport p).state == .up

/-- A dateline port (R348). -/
def State.dateline (s : State) (p : Nat) : Bool := bit (s.par K.linkDateline) p

/-- Fields of a route table entry (R347). -/
def State.routeOf (s : State) (dst : Nat) : Nat := s.par K.routeTable dst
def Route.valid (e : Nat) : Bool := bit e 15
def Route.altValid (e : Nat) : Bool := bit e 14
def Route.primary (e : Nat) : Nat := fld e 10 4
def Route.alternate (e : Nat) : Nat := fld e 6 4

/-- Flits of a (VC, class) of an input port's receive buffer in use: those held undelivered, those delivered of which
some record or piece of one is still to be taken, and those that wait for their output (R340, R342). -/
def State.rxUsed (s : State) (p vc : Nat) (cls : Bool) : Nat :=
  let held := (((s.lport p).rxVc vc).buf.filter fun f => Flit.cls f == cls).length
  let delivered := (s.links.rxFlits.filter fun f => f.port == p && f.vc == vc && f.cls == cls).length
  let transit := (s.links.ports.map fun e =>
    ((e.2.txVc vc).queue.filter fun q => q.2.any fun o => o.1 == .transit p cls).length).sum
  held + delivered + transit

/-- STOP of a virtual channel clears when 8 entries are free (R342). -/
def State.refreshStop (s : State) (p vc : Nat) : State :=
  if ((s.lport p).rxVc vc).stop && s.power.state ≠ 2
      && decide (s.rxUsed p vc false ≤ 24) && decide (s.rxUsed p vc true ≤ 24) then
    s.modLport p fun l => { l.modRx vc fun r => { r with stop := false } with owed := true }
  else s

/-- What n slots of a stream leave behind in the receive buffers, the oldest flits going first (R340, R342). -/
def takeSlots (src vc : Nat) : Nat → List RxFlit → List RxFlit
  | _, [] => []
  | n, f :: t =>
    if f.src ≠ src ∨ f.vc ≠ vc then f :: takeSlots src vc n t
    else if n = 0 then f :: t
    else if f.slots ≤ n then takeSlots src vc (n - f.slots) t
    else { f with slots := f.slots - n } :: t

/-- Slots of a stream leave the receive buffers, and STOP clears where there is room for it (R342). -/
def State.freeSlots (s : State) (src vc n : Nat) : State :=
  let ports := uniq ((s.links.rxFlits.filter fun f => f.src == src && f.vc == vc).map (·.port))
  let s := { s with links := { s.links with rxFlits := takeSlots src vc n s.links.rxFlits } }
  s.each ports fun s p => s.refreshStop p vc

/-- A record taken by its consumer leaves the receive buffer (R340). -/
def State.takeRecord (s : State) (d : Delivered) : State :=
  if s.links.inbox.contains d then
    State.freeSlots { s with links := { s.links with inbox := dropFirst (· == d) s.links.inbox } } d.src d.vc d.slots.length
  else s

/-- A record that its consumer cannot take is held: first of all, so that its stream waits behind it, and its VC
stalls on its arrival port (R340). -/
def State.holdRecord (s : State) (d kept : Delivered) : State :=
  { s with links := { s.links with inbox := { kept with held := true } :: dropFirst (· == d) s.links.inbox } }

/-- A record may be served: it is the first of its stream, and no other record is held on its VC and port (R339,
R340). -/
def State.mayServe (s : State) (d : Delivered) : Bool :=
  (s.links.inbox.find? fun e => e.src == d.src && e.vc == d.vc) == some d
  && !s.links.inbox.any fun e => e.held && e != d && e.vc == d.vc && e.port.isSome && e.port == d.port

/-- A record delivered is served: its consumer answers the state, and what it leaves of the record for later, if it
cannot take it whole (R339, R340). -/
def State.serveDelivered (s : State) (d : Delivered) (f : Delivered → State → Option Delivered × State) : State :=
  match f d s with
  | (none, s) => s.takeRecord d
  | (some kept, s) => s.holdRecord d kept

/-- A record delivered is one that a command stands for the service of: a record of the family with the slots, from the
port or the source that the command names. -/
def Delivered.same (d e : Delivered) : Bool :=
  e.family == d.family && e.slots == d.slots
    && (match d.port with
      | some p => e.port == some p
      | none => e.src == d.src)

/-- A command that stands for the service of a record: the first such record delivered is served if its turn has come;
where none was delivered the command is the record's arrival, behind those of its stream that wait (R339, R340; log
72). In Night no record is served, and one that arrives is dropped (R411). -/
def State.serveRecord (s : State) (d : Delivered) (f : Delivered → State → Option Delivered × State) : State :=
  match s.links.inbox.find? d.same with
  | some e => if s.mayServe e && !s.resets.night then s.serveDelivered e f else s
  | none =>
    if s.resets.night then s.bump K.nightFlitsDropped
    else if s.links.inbox.any fun e => e.src == d.src && e.vc == d.vc then
      { s with links := { s.links with inbox := s.links.inbox ++ [d] } }
    else s.serveDelivered d f

/-- A consumer that takes every record. -/
def takes (f : State → State) (_ : Delivered) (s : State) : Option Delivered × State := (none, f s)

/-- A remote or exchange record whose STATUS is no final-result code raises LINK_PROTOCOL (R494). -/
def State.checkStatus (s : State) (code : Nat) : State :=
  if (Status.ofFinal code).isNone then s.raise A.linkProtocol else s

/-- The status that a record carries: CANCELLED where its STATUS is no final-result code (R494). -/
def carriedStatus (code : Nat) : Status := (Status.ofFinal code).getD .cancelled

/-- A consumer that holds a record back while a condition stands (R340). -/
def holdsWhile (held : Bool) (f : State → State) (d : Delivered) (s : State) : Option Delivered × State :=
  if held then (some d, s) else (none, f s)

/-- Slots of a record as its header gives them (R163, R238, R264, R287, R338, R354); none where the header names a table
or an exchange that this chip does not know (log 43). -/
def State.recordSlots (s : State) (family : Nat) (h : BitVec 128) : Option Nat :=

  match family with
  | 1 =>
    let items := let n := bits h 28 20; if n = 0 then 2 ^ 20 else n
    let k := bits h 17 11
    let queries := let n := bits h 12 5; if n = 0 then 16 else n
    let snap := s.tick64 (bits h 96 32)
    let table := s.tableAt (bits h 48 12) snap
    let known := table.state ≠ 0 ∨ table.openAt snap
    let dim := bits table.desc 268 13
    if bits h 8 2 = 0 then some (1 + items)
    else if bits h 0 8 ≠ 0 then some 1
    else if bits h 8 2 = 1 then if known then some (1 + ceilDiv (4 * dim) 16) else none
    else if bits h 8 2 = 2 then if known then some (1 + queries * ceilDiv (2 * dim) 16 + items) else none
    else some (1 + queries * k)
  | 2 =>
    let x := s.route.exchanges.find? fun x => x.tag.toNat == bits h 96 32
    if bits h 81 3 = 1 then x.map fun x => 1 + 4 * bits x.req 49 9
    else if bits h 81 3 = 3 then x.map fun x => 1 + 4 * bits x.req 40 9
    else some (1 + ceilDiv (4 * bits h 37 11) 16)
  | 3 =>
    if bits h 10 2 ≠ 0 then some 1
    else
      let t := bits h 12 12
      if (s.table t).state ≠ 0 then some (1 + bits (s.table t).desc 281 9) else none
  | 4 => some (1 + 4 * bits h 53 7)
  | 5 => some (1 + 4 * bits h 103 7)
  | _ => some 1

/-- Cuts complete records off the slots of a stream; last tells that the flit does not fill its slots, which ends a
record of unknown length (log 43). Fuel bounds the number of records. -/
def State.cutRecords (s : State) (family : Nat) (last : Bool) :
    Nat → List (BitVec 128) → List (List (BitVec 128)) × List (BitVec 128)
  | 0, l => ([], l)
  | _ + 1, [] => ([], [])
  | f + 1, h :: t =>
    let whole := match s.recordSlots family h with
      | some n => if n ≤ (h :: t).length then some n else none
      | none => if last then some (h :: t).length else none
    match whole with
    | none => ([], h :: t)
    | some n =>
      let (rs, rest) := s.cutRecords family last f ((h :: t).drop n)
      ((h :: t).take n :: rs, rest)

/-- A flit in its place in its stream: its slots join the open record, and complete records go to their consumers
(R337, R339). -/
def State.deliverSlots (s : State) (port : Option Nat) (f : Flit) : State :=
  let k := streamKey f.src f.vc
  let st := Sparse.get s.links.streamIn {} k
  let goesOn := st.family == f.family && st.incarnation == f.incarnation
  let s := if goesOn then s else s.freeSlots f.src f.vc st.open_.length
  let slots := (if goesOn then st.open_ else []) ++ f.records
  let (rs, rest) := s.cutRecords f.family (decide (f.slots < 15)) slots.length slots
  let st : StreamIn := { st with expected := f.streamSeq + 1, family := f.family, open_ := rest }
  let st : StreamIn := { st with incarnation := f.incarnation, known := true }
  let ds := rs.map fun r =>
    ({ port := port, src := f.src, vc := f.vc, family := f.family, cls := f.cls, slots := r } : Delivered)
  let held : List RxFlit := match port with
    | some p => if f.slots = 0 then [] else [{ port := p, src := f.src, vc := f.vc, cls := f.cls, slots := f.slots }]
    | none => []
  { s with links := { s.links with streamIn := Sparse.set s.links.streamIn {} k st
                                   inbox := s.links.inbox ++ ds, rxFlits := s.links.rxFlits ++ held } }

/-- How a destination handles a flit (R346). -/
inductive FlitFate where
  | deliver | stale | duplicate | early
  deriving DecidableEq, Repr

/-- The five cases of R346. -/
def State.flitFate (s : State) (f : Flit) : FlitFate :=
  let st := Sparse.get s.links.streamIn {} (streamKey f.src f.vc)
  if !st.known then .deliver
  else if st.incarnation ≠ f.incarnation then if f.streamSeq = 0 then .deliver else .stale
  else if st.expected = f.streamSeq then .deliver
  else if serialLt 18 f.streamSeq.toNat st.expected.toNat then .duplicate
  else .early

/-- A flit that is not to be held is handled (R346). -/
def State.handleFlit (s : State) (port : Option Nat) (f : Flit) : State :=
  match s.flitFate f with
  | .deliver => s.deliverSlots port f
  | .stale => (s.bump K.streamStale).raise A.linkProtocol
  | .duplicate => s.bump K.duplicatesDropped 1 (port.getD 0)
  | .early => s

/-- A flit of a stream that receive buffers hold and that need not wait any longer, with its port (R346). -/
def State.nextEarly (s : State) (src vc : Nat) : Option (Nat × Flit) :=
  s.links.ports.findSome? fun e =>
    ((e.2.rxVc vc).buf.find? fun f => Flit.src f == src && s.flitFate f != .early).map fun f => (e.1, f)

/-- Flits held for an earlier one are handled once it has been delivered; fuel bounds their number (R346). -/
def State.deliverEarly (src vc : Nat) : Nat → State → State
  | 0, s => s
  | k + 1, s =>
    match s.nextEarly src vc with
    | none => s
    | some (p, f) =>
      let s := s.modLport p fun l => l.modRx vc fun r => { r with buf := dropFirst (· == f) r.buf }
      State.deliverEarly src vc k ((s.handleFlit (some p) f).refreshStop p vc)

/-- Flits that receive buffers hold on a virtual channel. -/
def State.heldFlits (s : State) (vc : Nat) : Nat := (s.links.ports.map fun e => (e.2.rxVc vc).buf.length).sum

/-- A flit waits undelivered in the receive buffer of its arrival port (R346). -/
def State.holdFlit (s : State) (port : Option Nat) (f : Flit) : State :=
  match port with
  | some p => s.modLport p fun l => l.modRx f.vc fun r => { r with buf := r.buf ++ [f] }
  | none => s

/-- Delivery at the destination (R346); in P2, flits for this chip wait with STOP set (R438), in Night they are dropped
(R411). -/
def State.deliver (s : State) (port : Option Nat) (f : Flit) : State :=
  if s.resets.night then s.bump K.nightFlitsDropped
  else if s.power.state = 2 ∧ port.isSome then
    match port with
    | some p => (s.holdFlit port f).modLport p fun l =>
        { l.modRx f.vc fun r => { r with stop := true } with owed := true }
    | none => s
  else
    match s.flitFate f with
    | .early => s.holdFlit port f
    | .deliver => State.deliverEarly f.src f.vc (s.heldFlits f.vc) (s.handleFlit port f)
    | _ => s.handleFlit port f

/-- A flit dropped by R348. -/
def State.dropFlit (s : State) (elem alarm : Nat) : State := (s.bump K.flitsDropped 1 elem).raise alarm

/-- A flit joins the queue of its output (R348). -/
def State.queueFlit (s : State) (p : Nat) (f : Flit) (owners : List (FlitOwner × Nat)) : State :=
  let f := setBits f 1957 12 ((Flit.hops f + 1) % 4096)
  let f := if s.dateline p then setBits f 2000 1 1 else f
  s.modLport p fun l => l.modTx (Flit.vc f) fun t => { t with queue := t.queue ++ [(f, owners)] }

/-- Placement of a data flit (R348). -/
def State.placeFlit (s : State) (port : Option Nat) (f : Flit) (owners : List (FlitOwner × Nat)) : State :=
  let e := s.routeOf f.dst
  let elem := port.getD (Route.primary e)
  if f.dst = s.chipId then s.deliver port f
  else if f.hops ≥ s.par K.linkMaxHops then s.dropFlit elem A.linkLoop
  else if !Route.valid e then s.dropFlit elem A.linkUnroutable
  else if !f.alt && s.linkUp (Route.primary e) then s.queueFlit (Route.primary e) f owners
  else if Route.altValid e && s.linkUp (Route.alternate e) then
    s.queueFlit (Route.alternate e) (setBits f 1921 1 1) owners
  else s.dropFlit elem A.linkUnroutable

/-- An engine port's write, by its number, is accepted (R165). -/
def State.portWriteAccepted (s : State) (p id : Nat) : State :=
  s.modPort p fun e => { e with sent := e.sent.filter fun w => w.1 ≠ id }

/-- Writes of the task in a slot that no port has accepted yet: its write fence (R78). -/
def State.writesOf (s : State) (n : Nat) : Nat :=
  (s.disp.ports.map fun e => (e.2.sent.filter fun w => w.2 == n).length).sum

/-- An EXP_RETURN has completed: its exchange closes if its EXP_COLLECT has resolved (R284). -/
def State.returnDone (s : State) (n : Nat) : State :=
  let mark (x : Exchange) : Exchange := { x with returned := true, returnTask := none }
  let xs := modWhere (fun x => x.returnTask == some n) mark s.route.exchanges
  { s with route := { s.route with exchanges := xs.filter fun x => !(x.returned && x.collected) } }

/-- A record of a requester has been accepted by its link port (R340): a port's write (R78), or one record of a data
task, which completes with its last (R288). -/
def State.flitAccepted (s : State) (owner : FlitOwner) : State :=
  match owner with
  | .nobody => s
  | .transit _ _ => s
  | .enginePort p _ k _ last => if last then s.portWriteAccepted p k else s
  | .task n =>
    let s := s.modSlot n fun q => { q with unaccepted := q.unaccepted - 1 }
    if (s.slot n).unaccepted = 0 ∧ (s.slot n).state = .issued ∧ !s.mat.aborts.contains n then
      (s.returnDone n).dataDone n (s.slot n).status [(s.slot n).out0]
    else s

/-- The next STREAM_SEQ of a stream is taken (R345). -/
def State.takeStreamSeq (s : State) (dst vc : Nat) : Nat × State :=
  let k := streamKey dst vc
  let n := Sparse.get s.links.streamOut 0 k
  (n, { s with links := { s.links with streamOut := Sparse.set s.links.streamOut 0 k ((n + 1) % 2 ^ 18) } })

/-- The requester as one flit of its record carries it: the last one, and every one of an engine port's record. -/
def FlitOwner.at_ (o : FlitOwner) (first last : Bool) : FlitOwner :=
  match o with
  | .enginePort p n k _ _ => .enginePort p n k first last
  | _ => if last then o else .nobody

/-- Sends the flits of a record, or of what is left of one; the last one carries the requester (R337, R340). -/
def State.sendFlits (dst vc family : Nat) (owner : FlitOwner) : Bool → State → List (List (BitVec 128)) → State
  | _, s, [] => s
  | first, s, c :: t =>
    let (n, s) := s.takeStreamSeq dst vc
    let f := mkFlit vc family s.chipId dst s.links.incarnation n c
    State.sendFlits dst vc family owner false (s.placeFlit none f [(owner.at_ first t.isEmpty, c.length)]) t

/-- A flit with slots added behind those in use (R337). -/
def Flit.extend (f : Flit) (l : List (BitVec 128)) : Flit :=
  setBits (f ||| BitVec.ofNat 2048 (slotsValue l <<< (128 * f.slots))) 1993 4 (f.slots + l.length)

/-- Whether a flit can take more of a stream's records: it is the stream's latest one and has slots left (R337). -/
def State.canPack (s : State) (dst vc family : Nat) (f : Flit) : Bool :=
  f.src == s.chipId && f.dst == dst && f.vc == vc && f.family == family && decide (f.slots < 15)
  && f.incarnation == s.links.incarnation
  && (f.streamSeq + 1).toNat == Sparse.get s.links.streamOut 0 (streamKey dst vc)

/-- The port at which the latest flit of a stream waits to be sent, with slots left for more records, and the flit
(R337). -/
def State.openFlit (s : State) (dst vc family : Nat) : Option (Nat × Flit) :=
  s.links.ports.findSome? fun e =>
    ((e.2.txVc vc).queue.find? fun q => s.canPack dst vc family q.1).map fun q => (e.1, q.1)

/-- A record's first slots are packed into the flit that waits with room for them; the slots left over (R337). -/
def State.packRecord (s : State) (dst vc family : Nat) (slots : List (BitVec 128)) (owner : FlitOwner) :
    List (BitVec 128) × State :=
  match s.openFlit dst vc family with
  | none => (slots, s)
  | some (p, f) =>
    let now := slots.take (15 - f.slots)
    let rest := slots.drop (15 - f.slots)
    let add (q : BitVec 2048 × List (FlitOwner × Nat)) : BitVec 2048 × List (FlitOwner × Nat) :=
      (Flit.extend f now, q.2 ++ [(owner.at_ true rest.isEmpty, now.length)])
    (rest, s.modLport p fun l => l.modTx vc fun t => { t with queue := modWhere (fun q => q.1 == f) add t.queue })

/-- Sends a record to a chip, packed behind the records that wait for it, this chip included, whose own records are
accepted at once (R288, R337, R340). -/
def State.sendRecord (s : State) (dst vc family : Nat) (slots : List (BitVec 128)) (owner : FlitOwner) : State :=
  let (rest, s) := s.packRecord dst vc family slots owner
  let s := State.sendFlits dst vc family owner (decide (rest.length = slots.length)) s (Machine.chunks 15 rest)
  if dst = s.chipId then s.flitAccepted owner else s

/-- The chip that a port's partner is (R351). -/
def LinkPort.partner (l : LinkPort) : Nat := bits l.neighbor 436 12

/-- Sends a MGMT record one hop through a port (R354). -/
def State.sendMgmt (s : State) (p : Nat) (record : BitVec 128) : State :=
  if s.linkUp p then
    let dst := (s.lport p).partner
    let (n, s) := s.takeStreamSeq dst 3
    s.queueFlit p (mkFlit 3 Fam.mgmt s.chipId dst s.links.incarnation n [record]) [(.nobody, 1)]
  else s

end Sys2Proof.Machine
end

