-- ==== Sys2Proof/Machine/LineCode.lean ====
section
/-! DEFINITION. The RS(544,514) code over GF(2^10) of the optical links: encoder, decoder, and the bit buffers that cut a
port's flit stream into messages and its lanes into lane words (R332 to R334; log 89 for the field, the generator and the
symbol order). -/
namespace Sys2Proof.Machine

/-- Bits of a coded message, of a codeword and of a lane word (R332, R333). -/
def messageBits : Nat := 5140
def codewordBits : Nat := 5440
def laneWordBits : Nat := 256

/-- Multiplication by α in GF(2^10): x^10 + x^3 + 1 (R333; log 89). -/
def g10Double (a : Nat) : Nat := let d := a * 2; if d ≥ 1024 then d ^^^ 0x409 else d

/-- Product in GF(2^10), over n bits of the second factor. -/
def g10MulBits : Nat → Nat → Nat → Nat
  | 0, _, _ => 0
  | n + 1, a, b => (if b % 2 = 1 then a else 0) ^^^ g10MulBits n (g10Double a) (b / 2)

/-- Product in GF(2^10). -/
def g10Mul (a b : Nat) : Nat := g10MulBits 10 a b

/-- Power in GF(2^10), by the bits of the exponent, of which fuel bounds the number. -/
def g10PowBits : Nat → Nat → Nat → Nat
  | 0, _, _ => 1
  | f + 1, a, n => g10Mul (if n % 2 = 1 then a else 1) (g10PowBits f (g10Mul a a) (n / 2))

/-- Power in GF(2^10). -/
def g10Pow (a n : Nat) : Nat := g10PowBits 10 a (n % 1023)

/-- α^n. -/
def g10Exp (n : Nat) : Nat := g10Pow 2 n

/-- Inverse in GF(2^10): a^1022. -/
def g10Inv (a : Nat) : Nat := g10Pow a 1022

/-- The generator polynomial (x - α^0)(x - α^1)…(x - α^29) without its leading coefficient, lowest power first
(R333; log 89). -/
def lineGenerator : List Nat :=
  let mulLin (p : List Nat) (j : Nat) : List Nat :=
    (0 :: p).zipWith (· ^^^ ·) ((p.map (g10Mul (g10Exp j))) ++ [0])
  ((List.range 30).foldl mulLin [1]).take 30

/-- Symbols as a number, the first one lowest. -/
def packSymbols (l : List Nat) : Nat := l.foldr (fun c acc => c + 1024 * acc) 0

/-- The i-th symbol of a number. -/
def symbolAt (v i : Nat) : Nat := v / 2 ^ (10 * i) % 1024

/-- The generator times α^0 to α^9, each as a number of 30 symbols. -/
def lineRows : List Nat := (List.range 10).map fun b => packSymbols (lineGenerator.map (g10Mul (2 ^ b)))

/-- A symbol's multiple of the generator: the rows of its bits. -/
def lineMultiple (rows : List Nat) (c : Nat) : Nat :=
  rows.zipIdx.foldl (fun acc r => if c.testBit r.2 then acc ^^^ r.1 else acc) 0

/-- One step of the systematic division: the remainder after one more symbol, highest power first. -/
def lineStep (rows : List Nat) (rem c : Nat) : Nat :=
  (rem * 1024) % 2 ^ 300 ^^^ lineMultiple rows (c ^^^ symbolAt rem 29)

/-- The remainder of a message's polynomial times x^30: message symbols stand in the order they are sent, the first
one at the highest power. -/
def lineRemainder (msg : Nat) : Nat :=
  let rows := lineRows
  (List.range 514).foldl (fun rem i => lineStep rows rem (symbolAt msg i)) 0

/-- The 30 symbols of a number in reverse order. -/
def flip30 (v : Nat) : Nat := packSymbols ((List.range 30).map fun i => symbolAt v (29 - i))

/-- The codeword of a message: its 514 symbols, then the 30 check symbols, that of the highest power first (R333). -/
def lineEncode (msg : Nat) : Nat := msg % 2 ^ messageBits + flip30 (lineRemainder msg) * 2 ^ messageBits

/-- What the decoder makes of a codeword (R333, R334). -/
inductive LineDecoded where
  | good (msg symbols : Nat)
  | failed
  deriving DecidableEq, Repr

/-- Value of a polynomial, its lowest power first. -/
def g10Eval (p : List Nat) (x : Nat) : Nat := p.foldr (fun c acc => g10Mul acc x ^^^ c) 0

/-- Sum of two polynomials. -/
def g10Add : List Nat → List Nat → List Nat
  | [], q => q
  | p, [] => p
  | a :: p, b :: q => (a ^^^ b) :: g10Add p q

/-- The state of the search for the error locator (Berlekamp and Massey). -/
structure Locator where
  cur : List Nat := [1]
  old : List Nat := [1]
  len : Nat := 0
  gap : Nat := 1
  last : Nat := 1

/-- One step of the search, for the syndrome numbered n. -/
def Locator.next (syn : List Nat) (l : Locator) (n : Nat) : Locator :=
  let d := (List.range (l.len + 1)).foldl (fun acc i => acc ^^^ g10Mul (l.cur.getD i 0) (syn.getD (n - i) 0)) 0
  if d = 0 then { l with gap := l.gap + 1 }
  else
    let k := g10Mul d (g10Inv l.last)
    let cur := g10Add l.cur (List.replicate l.gap 0 ++ l.old.map (g10Mul k))
    if 2 * l.len ≤ n then { cur := cur, old := l.cur, len := n + 1 - l.len, gap := 1, last := d }
    else { l with cur := cur, gap := l.gap + 1 }

/-- The value of an error at the power x of its place (Forney). -/
def errorValue (syn locator : List Nat) (x : Nat) : Nat :=
  let inv := g10Inv x
  let omega := (List.range 30).map fun i =>
    (List.range (i + 1)).foldl (fun acc j => acc ^^^ g10Mul (locator.getD j 0) (syn.getD (i - j) 0)) 0
  let slope := locator.zipIdx.foldl (fun acc c => if c.2 % 2 = 1 then acc ^^^ g10Mul c.1 (g10Pow inv (c.2 - 1)) else acc) 0
  g10Mul x (g10Mul (g10Eval omega inv) (g10Inv slope))

/-- The remainder of a received codeword: zero for a codeword of the code. -/
def lineSyndrome (cw : Nat) : Nat :=
  lineRemainder (cw % 2 ^ messageBits) ^^^ flip30 (cw / 2 ^ messageBits)

/-- Decodes a codeword, correcting up to 15 symbols (R333, R334). -/
def lineDecode (cw : Nat) : LineDecoded :=
  let rem := lineSyndrome cw
  if rem = 0 then .good (cw % 2 ^ messageBits) 0
  else
    let r := (List.range 30).map (symbolAt rem)
    let syn := (List.range 30).map fun j => g10Eval r (g10Exp j)
    let l := (List.range 30).foldl (Locator.next syn) {}
    let roots := (List.range 544).filter fun i => g10Eval l.cur (g10Inv (g10Exp i)) == 0
    let fixed := roots.foldl (fun v i => v ^^^ errorValue syn l.cur (g10Exp i) * 2 ^ (10 * (543 - i))) cw
    if l.len ≤ 15 ∧ roots.length = l.len ∧ lineSyndrome fixed = 0 then .good (fixed % 2 ^ messageBits) roots.length
    else .failed

/-- The places of the symbols that a SYMBOLS injection inverts: n places drawn one after the other from those left, the
draws being free values (R358). -/
def drawPlaces (k : Nat) : Nat → Nat → List Nat → List Nat
  | 0, _, _ => []
  | n + 1, i, left =>
    let p := left.getD ((Config.invertedSymbol k i).toNat % left.length) 0
    p :: drawPlaces k n (i + 1) (left.filter (· ≠ p))

/-- A codeword with n of its symbols inverted (R358). -/
def invertSymbols (k n cw : Nat) : Nat :=
  if n = 0 then cw
  else (drawPlaces k (Nat.min n 544) 0 (List.range 544)).foldl (fun v p => v ^^^ 1023 * 2 ^ (10 * p)) cw

end Sys2Proof.Machine
end

