-- ==== Sys2Proof/Machine/Links.lean ====
section
/-! DEFINITION. The link ports: lanes, control flits, hop retry, transmission with the Solder injector, training and
identity, and the WRITE and QUEUE records (R332 to R362). -/
namespace Sys2Proof.Machine

/-- The lowest n lanes of a set. -/
def lowestLanes (n : Nat) (m : Nat) : Nat :=
  ((List.range 16).foldl (fun (acc : Nat × Nat) i =>
    if bit m i && decide (acc.2 < n) then (acc.1 + 2 ^ i, acc.2 + 1) else acc) (0, 0)).1

/-- The lanes a port should run on: LINK_LANES without the lanes removed, of those lanes 0 to 3 in Morning, the lowest
P1_LANES of LINK_LANES in P1, lane 0 in P2; where none of those is left, as many of the lowest left (R335, R425, R436;
log 91). -/
def State.laneTarget (s : State) (p : Nat) : Nat :=
  let own := s.par K.linkLanes p &&& (0xFFFF - (s.lport p).removed.toNat)
  let among (m n : Nat) : Nat := if own &&& m = 0 then lowestLanes n own else own &&& m
  if s.power.stage < 2 then among 0xF 4
  else if s.power.state = 1 then among (lowestLanes (s.par K.p1Lanes) (s.par K.linkLanes p)) (s.par K.p1Lanes)
  else if s.power.state = 2 then among 1 1
  else own

/-- Announces a new lane set where the target is neither in force nor announced (R335). -/
def State.announceLanes (s : State) (p : Nat) : State :=
  let l := s.lport p
  let want := s.laneTarget p
  let now := match l.change with
    | some c => c.lanes.toNat
    | none => l.lanes.toNat
  if l.state ≠ .up ∨ want = 0 ∨ want = now then s
  else
    let id := l.changeId + 1
    let c : LaneChange := { lanes := BitVec.ofNat 16 want, id := id, acked := false }
    s.modLport p fun l => { l with change := some c, changeId := id, announced := c.lanes, owed := true }

/-- Lane changes of every port follow a change of stage, power state or LINK_LANES (R335). -/
def State.announceAll (s : State) : State := s.each (List.range s.build.linkPorts) State.announceLanes

/-- The identity block this chip sends on a port (R351); LANES_OK is the set it will use (log 91). -/
def State.identityBlock (s : State) (p : Nat) : Block :=
  BitVec.ofNat 512 (at' 0x46495350 480 32 + at' 0x00020000 448 32 + at' s.chipId 436 12 + at' p 432 4
    + at' s.links.incarnation.toNat 430 2 + at' (s.laneTarget p) 414 16
    + flag (s.par K.tickSource == 2) 400 + flag (s.dateline p) 401
    + flag (s.links.solderArmed && fld (s.par K.solderConfig) 124 4 == p) 402 + at' (s.par K.tickPeriodUs) 368 32)

/-- The DETAIL of LINK_UP and LINK_DOWN (R481). -/
def LinkPort.linkDetail (l : LinkPort) (p : Nat) : Nat :=
  at' p 0 4 + at' l.partner 4 12 + at' (bits l.neighbor 432 4) 16 4 + at' (bits l.neighbor 448 32) 20 32
  + at' (bits l.neighbor 430 2) 52 2

/-- A port without lane state: nothing announced or echoed, no bits on the line in either direction (R333, R335,
R341). -/
def LinkPort.freshLine (l : LinkPort) : LinkPort :=
  { l with change := none, announced := 0, echo := none, echoSent := false, rxLanes := 0, rxNext := none
           txMsg := {}, txSymbols := 0, txTurn := 0, txIndex := 0, txLine := []
           rxLine := [], rxTurn := 0, rxIndex := 0, rxMsg := {}, rxBad := {} }

/-- An enabled port begins to train (R350, R425). -/
def State.trainLink (s : State) (p : Nat) : State :=
  s.modLport p fun l => { l.freshLine with state := .training, removed := 0, txOn := 0xFFFF, resetN := true, locked := false }

/-- Flits of a port that are placed again when it goes DOWN: by virtual channel, unacknowledged ones first (R352). -/
def LinkPort.orphans (l : LinkPort) : List (Flit × List (FlitOwner × Nat)) :=
  (List.range 4).flatMap fun vc => ((l.txVc vc).replay.map fun f => (f, [])) ++ (l.txVc vc).queue

/-- The state of a port whose link is lost: its flits gone from it, its lanes off; LP_RESET_N is asserted on a
disabled one (R350, R352, R509). -/
def LinkPort.downed (l : LinkPort) (st : LinkState) : LinkPort :=
  { l.freshLine with
    state := st, tx := [], neighbor := 0, lanes := 0, txOn := 0, owed := false, solderHeld := none, locked := false
    resetN := l.resetN && st != .disabled }

/-- An UP port goes DOWN, or DISABLED when its LINK_ENABLE bit was cleared: the event is logged, LINK_DOWN raised unless
LINK_ENABLE caused it, and its flits are placed again (R352). -/
def State.linkDown (s : State) (p : Nat) (byEnable : Bool) : State :=
  let l := s.lport p
  if l.state ≠ .up then s
  else
    let s := s.logEvent 0x000A U.linkLayer (l.linkDetail p)
    let s := if byEnable then s else s.raise A.linkDown
    let s := s.modLport p fun l => l.downed (if byEnable then .disabled else .down)
    s.each l.orphans fun s e => s.placeFlit none e.1 e.2

/-- Flits before an acknowledged SEQ leave the replay buffer (R343). -/
def TxVc.acked (t : TxVc) (next : BitVec 13) : TxVc :=
  let kept := t.replay.filter fun f => !serialLt 13 (Flit.seq f).toNat next.toNat
  let gone := t.replay.length - kept.length
  if gone = 0 then t else { t with replay := kept, sentTo := t.sentTo - gone, retries := 0 }

/-- A replay of a virtual channel begins: everything unacknowledged is to be sent again (R343). -/
def TxVc.replayAll (t : TxVc) : TxVc :=
  if t.sentTo = 0 then t else { t with sentTo := 0, retries := t.retries + 1 }

/-- A replay of a virtual channel of a port; LINK_RETRY_LIMIT replays without progress take the port DOWN (R343,
R352). -/
def State.startReplay (s : State) (p vc : Nat) : State :=
  let t := (s.lport p).txVc vc
  if t.replay.isEmpty || t.stop then s
  else if t.retries ≥ s.par K.linkRetryLimit then s.linkDown p false
  else s.modLport p fun l => l.modTx vc TxVc.replayAll

/-- The partner's hop state for one virtual channel (R341). -/
def LinkPort.hearVc (l : LinkPort) (slot : BitVec 128) (vc : Nat) : LinkPort :=
  let expect := BitVec.ofNat 13 (bits slot (115 - 13 * vc) 13)
  l.modTx vc fun t => { t.acked expect with stop := bitOf slot (68 + vc) }

/-- The partner's lane fields (R335, R341): an echo of this side's announcement, or an announcement to echo. -/
def LinkPort.hearLanes (l : LinkPort) (slot : BitVec 128) : LinkPort :=
  let id := BitVec.ofNat 8 (bits slot 44 8)
  let lanes := BitVec.ofNat 16 (bits slot 52 16)
  if bitOf slot 43 then
    { l with change := l.change.map fun c => if c.id = id then { c with acked := true } else c }
  else if lanes ≠ 0 ∧ (l.echo ≠ some id ∨ l.rxNext.isSome) then
    { l with echo := some id, echoSent := false, rxNext := some lanes, owed := true }
  else l

/-- A good control flit: levels and cumulative values of the partner (R341, R343). -/
def State.hearControl (s : State) (p : Nat) (f : Flit) : State :=
  let slot := Flit.payload f 0
  let s := s.modLport p fun l => ((List.range 4).foldl (fun l vc => l.hearVc slot vc) l).hearLanes slot
  s.each ((List.range 4).filter fun vc => bitOf slot (72 + vc)) fun s vc =>
    if (s.lport p).state = .up then s.startReplay p vc else s

/-- A data flit that is not received is discarded, with NAK or STOP for a virtual channel (R342). -/
def State.discardFlit (s : State) (p vc : Nat) (stop : Bool) : State :=
  (s.bump K.flitsDiscarded 1 p).modLport p fun l =>
    { l.modRx vc fun r => { r with nak := true, stop := r.stop || stop } with owed := true }

/-- A data flit of good CRC: acknowledged and placed, or discarded (R342, R348). -/
def State.hearData (s : State) (p : Nat) (f : Flit) : State :=
  let vc := Flit.vc f
  let s := s.modLport p fun l => l.modTx (Flit.ackVc f) fun t => t.acked (Flit.ackSeq f)
  if Flit.seq f ≠ ((s.lport p).rxVc vc).expect then s.discardFlit p vc false
  else if s.rxUsed p vc (Flit.cls f) ≥ 32 then s.discardFlit p vc true
  else
    let s := s.modLport p fun l =>
      { l.modRx vc fun r => { r with expect := r.expect + 1, nak := false } with owed := true, ackVc := vc }
    s.placeFlit (some p) f [(.transit p (Flit.cls f), Flit.slots f)]

/-- Bits join the end of a buffer. -/
def BitBuf.push (b : BitBuf) (n v : Nat) : BitBuf := { len := b.len + n, val := b.val + v % 2 ^ n * 2 ^ b.len }

/-- What is left of a buffer without its first n bits. -/
def BitBuf.drop (b : BitBuf) (n : Nat) : BitBuf := { len := b.len - n, val := b.val / 2 ^ n }

/-- The first n bits of a buffer. -/
def BitBuf.first (b : BitBuf) (n : Nat) : Nat := b.val % 2 ^ n

/-- The bits of a lane that a line buffer holds. -/
def lineOf (b : Sparse BitBuf) (lane : Nat) : BitBuf := Sparse.get b {} lane

/-- Lanes of a set in ascending order. -/
def laneList (m : BitVec 16) : List Nat := (List.range 16).filter m.getLsbD

/-- The lane that the next codeword received is on (R333). -/
def LinkPort.rxLane (l : LinkPort) : Nat := (laneList l.rxLanes).getD l.rxTurn 0

/-- The place after the one of a codeword among n lanes. -/
def nextTurn (turn n : Nat) : Nat := if turn + 1 < n then turn + 1 else 0

/-- The receive direction changes to the set announced, at the first codeword whose index on the lowest active lane is a
multiple of 1,024 once the echo has gone out (R335; log 91). -/
def LinkPort.rxSwitch (l : LinkPort) : LinkPort :=
  match l.rxNext with
  | some m => if l.echoSent ∧ l.rxTurn = 0 ∧ l.rxIndex % 1024 = 0 then { l with rxLanes := m, rxNext := none } else l
  | none => l

/-- A port after one codeword received: its message joins the flit stream, marked where it could not be decoded (R333,
R334). -/
def LinkPort.takeCodeword (l : LinkPort) (d : LineDecoded) (raw : Nat) : LinkPort :=
  let lane := l.rxLane
  let l' : LinkPort := { l with
    rxLine := Sparse.set l.rxLine {} lane ((lineOf l.rxLine lane).drop codewordBits)
    rxIndex := if l.rxTurn = 0 then l.rxIndex + 1 else l.rxIndex
    rxTurn := nextTurn l.rxTurn (laneList l.rxLanes).length }
  let add (msg bad : Nat) : LinkPort :=
    { l' with rxMsg := l'.rxMsg.push messageBits msg, rxBad := l'.rxBad.push messageBits bad }.rxSwitch
  match d with
  | .good msg _ => add msg 0
  | .failed => add raw (2 ^ messageBits - 1)

/-- Codewords that are whole are decoded in the order of the lanes, and what the decoder does is counted; fuel bounds
their number (R333, R334). -/
def State.decodeLine (p : Nat) : Nat → State → State
  | 0, s => s
  | f + 1, s =>
    let l := s.lport p
    if (lineOf l.rxLine l.rxLane).len < codewordBits then s
    else
      let cw := (lineOf l.rxLine l.rxLane).first codewordBits
      let d := lineDecode cw
      let s := match d with
        | .good _ n => if n = 0 then s else s.bump K.fecSymbolsCorrected n p
        | .failed => s.bump K.fecCodewordsFailed 1 p
      State.decodeLine p f (s.modLport p fun l => l.takeCodeword d cw)

/-- Lane words arrive with RX_VALID, each on its lane (R332). -/
def State.receiveWords (s : State) (p : Nat) (words : List (BitVec 4 × BitVec 256)) : State :=
  let put (b : Sparse BitBuf) (w : BitVec 4 × BitVec 256) : Sparse BitBuf :=
    Sparse.set b {} w.1.toNat ((lineOf b w.1.toNat).push laneWordBits w.2.toNat)
  if words.isEmpty then s
  else State.decodeLine p words.length (s.modLport p fun l => { l with rxLine := words.foldl put l.rxLine })

/-- The next flit of the stream received, if it is whole, and whether all its bits come from decoded codewords (R333,
R334). -/
def LinkPort.nextFlit (l : LinkPort) : Option (Flit × Bool) :=
  if l.rxMsg.len < 2048 then none
  else some (BitVec.ofNat 2048 (l.rxMsg.first 2048), l.rxBad.first 2048 == 0)

/-- A port without the flit taken. -/
def LinkPort.dropFlitBits (l : LinkPort) : LinkPort := { l with rxMsg := l.rxMsg.drop 2048, rxBad := l.rxBad.drop 2048 }

/-- A flit of an UP port: a control flit is heard, a data flit received, and one that fails its CRC discarded,
whichever the command took it for (R334, R341, R342). -/
def State.hearFlit (s : State) (p : Nat) (control : Bool) (f : Flit) (good : Bool) : State :=
  if !good || Flit.crc f != Flit.crcDue f then if control then s else s.bump K.flitsDiscarded 1 p
  else if Flit.family f = Fam.control then s.hearControl p f
  else s.hearData p f

/-- Lane words arrive, and with them the next flit of the stream (R332 to R334, R341, R342). -/
def flitEff (p : Nat) (control : Bool) (words : List (BitVec 4 × BitVec 256)) (s : State) : State :=
  if (s.lport p).state ≠ .up then s
  else
    let s := s.receiveWords p words
    match (s.lport p).nextFlit with
    | none => s
    | some (f, good) => (s.modLport p LinkPort.dropFlitBits).hearFlit p control f good

/-- CONTROL_FLIT (R341). -/
def execControlFlit (p : Nat) (words : List (BitVec 4 × BitVec 256)) (s : State) : Host.Outcome State Fault Refusal :=
  runPort (s.hasLink p) (flitEff p true words) s

/-- DATA_FLIT (R342). -/
def execDataFlit (p : Nat) (lanes : List (BitVec 4)) (words : List (BitVec 256)) (s : State) :
    Host.Outcome State Fault Refusal := runPort (s.hasLink p) (flitEff p false (lanes.zip words)) s

/-- Whether a control flit carries this side's announcement, not an echo: one that the partner has not echoed, when
the echo owed to the partner has gone out before (R341). -/
def LinkPort.announces (l : LinkPort) : Bool :=
  (l.echo.isNone || l.echoSent) && (l.change.map fun c => !c.acked).getD l.echo.isNone

/-- The hop state in payload slot 0 of a control flit (R341). -/
def LinkPort.hopState (l : LinkPort) : BitVec 128 :=
  let e (vc : Nat) : Nat := at' (l.rxVc vc).expect.toNat (115 - 13 * vc) 13
  let flags (lo : Nat) (g : RxVc → Bool) : Nat := ((List.range 4).map fun vc => flag (g (l.rxVc vc)) (lo + vc)).sum
  let lanes := at' l.announced.toNat 52 16
    + (if l.announces then at' l.changeId.toNat 44 8 else at' (l.echo.getD 0).toNat 44 8 + flag true 43)
  BitVec.ofNat 128 (e 0 + e 1 + e 2 + e 3 + flags 72 RxVc.nak + flags 68 RxVc.stop + lanes)

/-- The control flit a port owes (R336, R341). -/
def State.controlFlitOf (s : State) (p : Nat) : Flit :=
  let l := s.lport p
  Flit.sealed (BitVec.ofNat 2048 (l.hopState.toNat + at' Fam.control 1997 3 + at' s.chipId 1981 12
    + at' l.partner 1969 12))

/-- Fields of SOLDER_CONFIG (R358). -/
def Solder.port (c : Nat) : Nat := fld c 124 4
def Solder.mode (c : Nat) : Nat := fld c 122 2
def Solder.byRate (c : Nat) : Bool := bit c 121
def Solder.vcMask (c : Nat) : Nat := fld c 117 4
def Solder.familyMask (c : Nat) : Nat := fld c 109 8
def Solder.period (c : Nat) : Nat := fld c 64 32
def Solder.limit (c : Nat) : Nat := fld c 32 32
def Solder.symbols (c : Nat) : Nat := fld c 26 6

/-- Whether a flit leaving a port matches Solder's masks; control flits match on bit 7 of FAMILY_MASK alone (R358). -/
def State.solderMatches (s : State) (p : Nat) (f : Flit) : Bool :=
  let c := s.par K.solderConfig
  s.links.solderArmed && Solder.port c == p && bit (Solder.familyMask c) (Flit.family f)
  && (Flit.family f == Fam.control || bit (Solder.vcMask c) (Flit.vc f))

/-- Whether the matching flit numbered n since arming is injected (R358, R371). -/
def State.solderHits (s : State) (p n : Nat) : Bool :=
  let c := s.par K.solderConfig
  if Solder.byRate c then decide (gisarDraw (s.par K.solderSeed) 0 p (n % 2 ^ 32) % 2 ^ 32 < Solder.period c)
  else decide (Solder.period c ≠ 0) && (n + 1) % Solder.period c == 0

/-- Whole lane words of a lane's bits, in order; fuel bounds their number (R332). -/
def cutWords : Nat → BitBuf → List (BitVec 256) × BitBuf
  | 0, b => ([], b)
  | f + 1, b =>
    if b.len < laneWordBits then ([], b)
    else
      let (ws, rest) := cutWords f (b.drop laneWordBits)
      (BitVec.ofNat 256 (b.first laneWordBits) :: ws, rest)

/-- A codeword is sent whole on the lane whose turn it is (R332, R333). -/
def State.sendCodeword (s : State) (p cw : Nat) : State :=
  let l := s.lport p
  let lane := (laneList l.lanes).getD l.txTurn 0
  let (ws, rest) := cutWords 22 ((lineOf l.txLine lane).push codewordBits cw)
  let s := s.modLport p fun l => { l with
    txLine := Sparse.set l.txLine {} lane rest
    txIndex := if l.txTurn = 0 then l.txIndex + 1 else l.txIndex
    txTurn := nextTurn l.txTurn (laneList l.lanes).length }
  s.each ws fun s w => s.emit (.laneWord p lane w)

/-- A flit joins the port's flit stream, and a message that is full leaves as a codeword, with the symbols of the
codeword that the flit begins in inverted by Solder (R333, R358; log 92). -/
def State.lineFlit (s : State) (p : Nat) (f : Flit) (symbols : Nat) : State :=
  let l := s.lport p
  let m := l.txMsg.push 2048 f.toNat
  let n := l.txSymbols + symbols
  if m.len < messageBits then s.modLport p fun l => { l with txMsg := m, txSymbols := n }
  else
    let (k, s) := if n = 0 then (0, s) else s.fresh
    let s := s.modLport p fun l => { l with txMsg := m.drop messageBits, txSymbols := 0 }
    s.sendCodeword p (invertSymbols k n (lineEncode (m.first messageBits)))

/-- A flit leaves a port (R336); SYMBOLS of Solder inverted. -/
def State.sendFlit (s : State) (p : Nat) (f : Flit) (symbols : Nat) : State :=
  ((s.bump K.flitsSent 1 p).emit (.flit p f symbols)).lineFlit p f symbols

/-- A flit that REORDER held back leaves after the next data flit f, and stays held behind a control flit (R358). -/
def State.sendHeld (s : State) (p : Nat) (f : Flit) : State :=
  if Flit.family f = Fam.control then s
  else
    match (s.lport p).solderHeld with
    | none => s
    | some g => (s.modLport p fun l => { l with solderHeld := none }).sendFlit p g 0

/-- What Solder counts when it injects, disarming itself at LIMIT (R358, R359). -/
def State.solderCount (s : State) (p : Nat) : State :=
  let n := s.links.solderInjected + 1
  let lim := Solder.limit (s.par K.solderConfig)
  let s := ({ s with links := { s.links with solderInjected := n } }).bump K.solderInjections 1 p
  if lim ≠ 0 ∧ n ≥ lim then
    ({ s with links := { s.links with solderArmed := false } }).setValue K.solderArm 0 0
  else s

/-- A flit injected by Solder (R358): dropped, with one payload bit inverted, held back, or with symbols inverted. A
flit that REORDER meets while another is held back is sent, and is the next data flit of that one if it is a data flit
(log 92). -/
def State.inject (s : State) (p : Nat) (f : Flit) : State :=
  let c := s.par K.solderConfig
  let s := s.solderCount p
  match Solder.mode c with
  | 0 => s.sendHeld p f
  | 1 =>
    let (n, s) := s.fresh
    let i := (Config.corruptBit n).toNat % 1920
    (s.sendFlit p (f ^^^ BitVec.ofNat 2048 (2 ^ i)) 0).sendHeld p f
  | 2 =>
    if (s.lport p).solderHeld.isSome then (s.sendFlit p f 0).sendHeld p f
    else s.modLport p fun l => { l with solderHeld := some f }
  | _ => (s.sendFlit p f (Solder.symbols c)).sendHeld p f

/-- A flit goes out through a port, past Solder (R358, R359); a flit held back follows the next data flit. -/
def State.outFlit (s : State) (p : Nat) (f : Flit) : State :=
  if s.solderMatches p f then
    let n := s.links.solderMatched
    let s := { s with links := { s.links with solderMatched := n + 1 } }
    if s.solderHits p n then s.inject p f else (s.sendFlit p f 0).sendHeld p f
  else (s.sendFlit p f 0).sendHeld p f

/-- Whether a virtual channel has a place in the replay buffer: 128 entries are its own, the other 1,536 are shared
(R343). -/
def LinkPort.replayRoom (l : LinkPort) (vc : Nat) : Bool :=
  let shared := ((List.range 4).map fun v => (l.txVc v).replay.length - 128).sum
  decide ((l.txVc vc).replay.length < 128) || decide (shared < 1536)

/-- A virtual channel with a replay to continue (R343). -/
def LinkPort.replays (l : LinkPort) (vc : Nat) : Bool :=
  let t := l.txVc vc
  !t.stop && decide (t.sentTo < t.replay.length)

/-- A virtual channel with a new flit that may be sent (R343). -/
def LinkPort.offers (l : LinkPort) (vc : Nat) : Bool :=
  let t := l.txVc vc
  !t.stop && !t.queue.isEmpty && decide (t.sentTo = t.replay.length) && l.replayRoom vc

/-- Sends the next flit of a replay (R343). -/
def State.sendReplay (s : State) (p vc : Nat) : State :=
  let t := (s.lport p).txVc vc
  let f := t.replay.getD t.sentTo 0
  ((s.modLport p fun l => l.modTx vc fun t => { t with sentTo := t.sentTo + 1 }).bump K.flitsReplayed 1 p).outFlit p f

/-- Sends the first new flit of a virtual channel: numbered, sealed, kept for replay, and accepted for its requester
(R336, R340, R343). -/
def State.sendNew (s : State) (p vc : Nat) : State :=
  let l := s.lport p
  match (l.txVc vc).queue with
  | [] => s
  | (f, owners) :: rest =>
    let f := setBits f 2003 13 (l.txVc vc).nextSeq.toNat
    let f := setBits f 1935 2 l.ackVc
    let f := Flit.sealed (setBits f 1922 13 (l.rxVc l.ackVc).expect.toNat)
    let s := s.modLport p fun l => l.modTx vc fun t =>
      { t with queue := rest, nextSeq := t.nextSeq + 1, replay := t.replay ++ [f], sentTo := t.replay.length + 1 }
    let s := s.each owners fun s o => s.flitAccepted o.1
    let s := s.each owners fun s o => match o.1 with
      | .transit q _ => s.refreshStop q vc
      | _ => s
    s.outFlit p f

/-- The control flit owed is sent: an echo first, and an announcement after it (R341). -/
def State.sendControl (s : State) (p : Nat) : State :=
  let f := s.controlFlitOf p
  let s := s.modLport p fun l =>
    if l.announces then { l with owed := false }
    else { l with echoSent := l.echo.isSome, owed := (l.change.map fun c => !c.acked).getD false }
  s.outFlit p f

/-- A port sends its next flit: an owed control flit, replays, virtual channel 3, then 0 to 2 in turn (R343). -/
def flitTransmitEff (p : Nat) (s : State) : State :=
  let l := s.lport p
  if l.state ≠ .up then s
  else if l.owed then s.sendControl p
  else
    match (List.range 4).find? l.replays with
    | some vc => s.sendReplay p vc
    | none =>
      if l.offers 3 then s.sendNew p 3
      else
        match [l.rr, (l.rr + 1) % 3, (l.rr + 2) % 3].find? l.offers with
        | some vc => (s.modLport p fun l => { l with rr := (vc + 1) % 3 }).sendNew p vc
        | none => s

/-- FLIT_TRANSMIT (R343). -/
def execFlitTransmit (p : Nat) (s : State) : Host.Outcome State Fault Refusal :=
  runPort (s.hasLink p) (flitTransmitEff p) s

/-- 1,024 flit times have passed: a control flit is owed (R341). -/
def controlFlitPeriodEff (p : Nat) (s : State) : State :=
  if (s.lport p).state = .up then s.modLport p fun l => { l with owed := true } else s

/-- CONTROL_FLIT_PERIOD (R341). -/
def execControlFlitPeriod (p : Nat) (s : State) : Host.Outcome State Fault Refusal :=
  runPort (s.hasLink p) (controlFlitPeriodEff p) s

/-- The oldest unacknowledged flit of a virtual channel has waited LINK_REPLAY_TIMEOUT_NS (R343). -/
def linkReplayTimeoutEff (p vc : Nat) (s : State) : State :=
  if (s.lport p).state = .up then s.startReplay p vc else s

/-- LINK_REPLAY_TIMEOUT (R343). -/
def execLinkReplayTimeout (p vc : Nat) (s : State) : Host.Outcome State Fault Refusal :=
  runPort (s.hasLink p) (linkReplayTimeoutEff p vc) s

/-- LINK_DEAD_TIMEOUT (R352). -/
def execLinkDeadTimeout (p : Nat) (s : State) : Host.Outcome State Fault Refusal :=
  runPort (s.hasLink p) (fun s => s.linkDown p false) s

/-- LANE_CHANGE_ACK_TIMEOUT (R335): an announcement without an echo takes the port DOWN. -/
def laneChangeAckTimeoutEff (p : Nat) (s : State) : State :=
  match (s.lport p).change with
  | some c => if c.acked then s else s.linkDown p false
  | none => s

/-- LANE_CHANGE_ACK_TIMEOUT (R335). -/
def execLaneChangeAckTimeout (p : Nat) (s : State) : Host.Outcome State Fault Refusal :=
  runPort (s.hasLink p) (laneChangeAckTimeoutEff p) s

/-- LANE_SIGNAL_OK, the pins of the receive direction, takes a new level. Of the active receive lanes it fell on
together, two or more, or the last one, take the port DOWN; a lane alone is removed from the set that this side
announces, unless it is the last one there too (R332, R335, R361; log 91). -/
def laneSignalLossEff (p : Nat) (level : BitVec 16) (s : State) : State :=
  let l := s.lport p
  let fell := l.signalOk &&& ~~~ level
  let active := l.rxLanes &&& fell
  let own := l.lanes &&& fell
  let s := s.modLport p fun l => { l with signalOk := level }
  if l.state ≠ .up ∨ (active = 0 ∧ own = 0) then s
  else if (laneList active).length ≥ 2 ∨ (active ≠ 0 ∧ active = l.rxLanes) ∨ own = l.lanes then s.linkDown p false
  else (s.modLport p fun l => { l with removed := l.removed ||| active ||| own }).announceLanes p

/-- LANE_SIGNAL_LOSS (R335). -/
def execLaneSignalLoss (p : Nat) (level : BitVec 16) (s : State) : Host.Outcome State Fault Refusal :=
  runPort (s.hasLink p) (laneSignalLossEff p level) s

/-- The transmitter switches to the announced lanes once the partner has echoed them, before a codeword whose index on
the lowest active lane is a multiple of 1,024 (R335). -/
def laneChangeSwitchEff (p : Nat) (s : State) : State :=
  let l := s.lport p
  match l.change with
  | some c =>
    if c.acked ∧ l.state = .up ∧ l.txTurn = 0 ∧ l.txIndex % 1024 = 0 then
      (s.modLport p fun l => { l with lanes := c.lanes, txOn := c.lanes, change := none, owed := true }).announceLanes p
    else s
  | none => s

/-- LANE_CHANGE_SWITCH (R335). -/
def execLaneChangeSwitch (p : Nat) (s : State) : Host.Outcome State Fault Refusal :=
  runPort (s.hasLink p) (laneChangeSwitchEff p) s

/-- A training port enters IDENTIFY, where it sends its identity block (R350, R351). -/
def State.identifyLink (s : State) (p : Nat) : State :=
  (s.modLport p fun l => { l with state := .identify, locked := false }).emit (.identity p (s.identityBlock p))

/-- A training port has locked and enters IDENTIFY; without core power training waits (R510), and before Noon the
ports from LP4 on stay in TRAINING (R425; log 117). -/
def trainingLockEff (p : Nat) (s : State) : State :=
  if (s.lport p).state ≠ .training ∨ (s.lport p).loopback ∨ !s.pins.corePwrGood then s
  else if s.power.stage < 2 ∧ p ≥ 4 then s.modLport p fun l => { l with locked := true }
  else s.identifyLink p

/-- TRAINING_LOCK (R350). -/
def execTrainingLock (p : Nat) (s : State) : Host.Outcome State Fault Refusal :=
  runPort (s.hasLink p) (trainingLockEff p) s

/-- 1 ms of training has passed without lock: it restarts and is counted (R350). -/
def trainingTimeoutEff (p : Nat) (s : State) : State :=
  if (s.lport p).state = .training ∧ !(s.lport p).locked ∧ s.pins.corePwrGood then s.bump K.linkTrainFails 1 p else s

/-- TRAINING_TIMEOUT (R350). -/
def execTrainingTimeout (p : Nat) (s : State) : Host.Outcome State Fault Refusal :=
  runPort (s.hasLink p) (trainingTimeoutEff p) s

/-- Whether a partner is refused (R351). -/
def State.refusesPartner (s : State) (block : Block) : Bool :=
  bits block 480 32 ≠ 0x46495350 || bits block 464 16 ≠ 2 || bits block 436 12 == s.chipId

/-- LINK_DELAY from the echoes of IDENTIFY: half of each round trip less the partner's turnaround, averaged (R353;
log 93). -/
def delayOf (echoes : List (Nat × Nat)) : Nat := ((echoes.map fun e => e.1 - e.2).sum / 2) / echoes.length

/-- The port of an accepted partner: a fresh link whose sequence numbers start at 0; what its receive buffer holds
stays (log 45). -/
def LinkPort.accepted (l : LinkPort) (block : Block) (delay : Nat) (lanes : BitVec 16) : LinkPort :=
  { l.freshLine with
    state := .up, tx := [], lanes := lanes, txOn := lanes, neighbor := block, delay := delay, owed := true
    rxLanes := BitVec.ofNat 16 (bits block 414 16)
    rx := Sparse.mapAll l.rx {} fun _ r => { r with expect := 0, nak := false, stop := false }
    rr := 0, ackVc := 0, solderHeld := none }

/-- The partner's identity block arrives in IDENTIFY, or at a retry in REFUSED, with the delay echoes measured, each a
round trip and the partner's turnaround in 1/16 hc: the partner is refused, or accepted with the delay measured (R350
to R353). -/
def identityBlockEff (p : Nat) (block : Block) (echoes : List (Nat × Nat)) (s : State) : State :=
  let st := (s.lport p).state
  if (st ≠ .identify ∧ st ≠ .refused) ∨ !s.pins.corePwrGood then s
  else if s.refusesPartner block then
    (s.modLport p fun l => { l with state := .refused, neighbor := block }).raise A.linkPartnerRefused
  else
    let lanes := BitVec.ofNat 16 (s.laneTarget p)
    let s := s.modLport p fun l => l.accepted block (delayOf echoes) lanes
    let s := s.logEvent 0x0009 U.linkLayer ((s.lport p).linkDetail p)
    if bits block 368 32 ≠ s.par K.tickPeriodUs then s.raise A.linkTickMismatch else s

/-- IDENTITY_BLOCK (R351). -/
def execIdentityBlock (p : Nat) (block : BitVec 512) (echoes : List (Nat × Nat)) (s : State) :
    Host.Outcome State Fault Refusal := runPort (s.hasLink p) (identityBlockEff p block echoes) s

/-- Whether a port is enabled (R350). -/
def State.linkEnabled (s : State) (p : Nat) : Bool := s.hasLink p && bit (s.par K.linkEnable) p

/-- 10 µs after it went DOWN, a port trains again (R350). -/
def downRetrainEff (p : Nat) (s : State) : State :=
  if (s.lport p).state = .down ∧ !(s.lport p).loopback ∧ s.linkEnabled p then s.trainLink p else s

/-- DOWN_RETRAIN (R350). -/
def execDownRetrain (p : Nat) (s : State) : Host.Outcome State Fault Refusal :=
  runPort (s.hasLink p) (downRetrainEff p) s

/-- A REFUSED port sends its identity block again (R350). -/
def refusedRetryEff (p : Nat) (s : State) : State :=
  if (s.lport p).state = .refused then s.emit (.identity p (s.identityBlock p)) else s

/-- REFUSED_RETRY (R350). -/
def execRefusedRetry (p : Nat) (s : State) : Host.Outcome State Fault Refusal :=
  runPort (s.hasLink p) (refusedRetryEff p) s

/-- A port's LINK_ENABLE bit is set or cleared (R350, R352). In Dawn ports wait for START_GO (R425), and in P3 for its
exit (R439). -/
def State.enableLink (s : State) (p : Nat) (on : Bool) : State :=
  let st := (s.lport p).state
  if on then if st = .disabled ∧ s.power.started ∧ s.power.state ≠ 3 then s.trainLink p else s
  else if st = .up then s.linkDown p true
  else s.modLport p fun l => l.downed .disabled

/-- LINK_ENABLE takes effect at once on every port (R352, R362). -/
def State.applyLinkEnable (s : State) (mask : Nat) : State :=
  s.each (List.range s.build.linkPorts) fun s p => s.enableLink p (bit mask p)

/-- The beats of a WRITE record are written, or discarded outside the partition's windows (R338). -/
def State.writeBeats (s : State) (header : BitVec 128) (beats : List (BitVec 512)) : State :=
  let addr := bits header 64 64
  let part := bits header 60 4
  let n := bits header 53 7
  if s.inWindow part addr (64 * n) then
    s.each (beats.take n).zipIdx fun s e => s.writeWord (addr + 64 * e.2) e.1
  else (s.bump K.partitionViolations n).raise A.partitionViolation

/-- A received WRITE record (R338). -/
def writeEff (src : Nat) (header : BitVec 128) (beats : List (BitVec 512)) (s : State) : State :=
  s.serveRecord { src := src, vc := 2, family := Fam.write, slots := header :: beats.flatMap blockSlots }
    (takes fun s => s.writeBeats header beats)

/-- WRITE (R338). -/
def execWrite (src : Nat) (header : BitVec 128) (beats : List (BitVec 512)) (s : State) :
    Host.Outcome State Fault Refusal := runCore (writeEff src header beats) s

/-- Words of a link's record offered in order to a DATA queue: taken while it has room; a word out of sequence is
discarded with QUEUE_PROTOCOL; the first one that must wait joins the queue's waiting producers, and the rest stays
with its record (R137, R141, R340, R514). Answers the words done with. -/
def State.offerWords (n : Nat) (p : Producer) : Nat → State → List Block → Nat × State
  | got, s, [] => (got, s)
  | got, s, w :: t =>
    match (s.queue n).offer p w with
    | .taken => State.offerWords n p (got + 1) (s.enqueueData n p w) t
    | .protocol => State.offerWords n p (got + 1) (s.raise A.queueProtocol) t
    | _ => (got, s.modQueue n fun q => { q with waiting := q.waiting ++ [(p, w)] })

/-- The 64-byte words that payload slots carry. -/
def slotWords (l : List (BitVec 128)) : List Block :=
  (chunks 4 l).map fun c => BitVec.ofNat 512 (slotsValue c)

/-- The words of a QUEUE record (R338). -/
def Delivered.queueWords (d : Delivered) : List Block := (slotWords (d.slots.drop 1)).take (bits (d.slots.headD 0) 103 7)

/-- The producer that the stream of a record is (R141, R338). -/
def Delivered.producer (d : Delivered) : Producer := { kind := .link, id := streamKey d.src d.vc }

/-- A received QUEUE record (R338): its words join a DATA queue of its partition, its stream being one producer; while
one must wait, the record is held back (R340). A queue out of service discards the words. -/
def State.queueRecord (d : Delivered) (s : State) : Option Delivered × State :=
  let header := d.slots.headD 0
  let n := bits header 114 14
  let q := s.queue n
  if !q.enable ∨ q.kind ≠ kindData ∨ q.part ≠ bits header 110 4 then (none, s.raise A.queueProtocol)
  else if q.waiting.any fun e => e.1 == d.producer then (some d, s)
  else
    let (got, s) := State.offerWords n d.producer d.got s (d.queueWords.drop d.got)
    (if got < d.queueWords.length then some { d with got := got } else none, s)

/-- A QUEUE record is received (R338). -/
def queueRecordEff (src : Nat) (header : BitVec 128) (words : List (BitVec 512)) (s : State) : State :=
  s.serveRecord { src := src, vc := 2, family := Fam.queue, slots := header :: words.flatMap blockSlots } State.queueRecord

/-- QUEUE (R338). -/
def execQueue (src : Nat) (header : BitVec 128) (words : List (BitVec 512)) (s : State) :
    Host.Outcome State Fault Refusal := runCore (queueRecordEff src header words) s

/-- Whether every field of SOLDER_CONFIG is in range: a port of the build, SYMBOL_COUNT from 1 (R358, R360). -/
def State.solderReady (s : State) : Bool :=
  let c := s.par K.solderConfig
  s.hasLink (Solder.port c) && decide (Solder.symbols c ≠ 0)

/-- Solder is armed or disarmed (R359, R360). -/
def State.armSolder (s : State) (on : Bool) : State :=
  if on then { s with links := { s.links with solderArmed := true, solderMatched := 0, solderInjected := 0 } }
  else { s with links := { s.links with solderArmed := false } }

end Sys2Proof.Machine
end

