-- ==== Sys2Proof/Machine/Engines.lean ====
section
/-! DEFINITION. Engine ports: configuration and logical maps, stand-ins, L1 and suspect replay, spill buffers, switches
and system descriptors (R79 to R98, R202 to R215, R396, R407 to R409). -/
namespace Sys2Proof.Machine

/-- Fields of ENGINE_PORT_CONFIG (R99). -/
def State.portConfig (s : State) (p : Nat) : Nat := s.par K.enginePortConfig p
def Cfg.spare (c : Nat) : Bool := bit c 9
def Cfg.enable (c : Nat) : Bool := bit c 8
def Cfg.part (c : Nat) : Nat := fld c 4 4
def Cfg.cls (c : Nat) : Nat := fld c 0 4

/-- An engine port that the build has and that is enabled (R79). -/
def State.portEnabled (s : State) (p : Nat) : Bool := s.hasEngine p && Cfg.enable (s.portConfig p)

/-- An enabled port that is not failed. -/
def State.portWorks (s : State) (p : Nat) : Bool := s.portEnabled p && !(s.port p).failed

/-- A port is stopped, or its stop has been asked for: nothing more is issued to it (R30). -/
def State.portStopping (s : State) (p : Nat) : Bool :=
  s.disp.unitStopped.contains p || s.disp.unitStopReq.contains p

/-- Completions of a port that still await token formation (R77). -/
def State.portPending (s : State) (p : Nat) : Nat := (s.mat.pend.filter fun c => c.port == some p).length

/-- A port can take a descriptor (R85, R92, R214, R502). -/
def State.portTakes (s : State) (p : Nat) : Bool :=
  let e := s.port p
  s.portWorks p && !s.portStopping p && e.held.isNone && decide (s.portPending p < 4) && e.sw.isNone && !e.inL1
  && !e.restoring && e.epReady

/-- A port is free: it can take a descriptor, and no suspect replay keeps it to its suspects (R85, R408). -/
def State.portFree (s : State) (p : Nat) : Bool := s.portTakes p && !(s.port p).replaying

/-- Logical engines of a partition and class that a port carries (R97). -/
def State.carriedIn (s : State) (part cls p : Nat) : Nat :=
  ((List.range 64).filter fun e => s.mapPort part cls e == some p).length

/-- Logical engines that a port carries (R99). -/
def State.carried (s : State) (p : Nat) : Nat := (s.disp.maps.filter fun e => bit e.2 7 && fld e.2 0 6 == p).length

/-- An entry of a logical map (R99). -/
def mapEntry (p : Nat) : Nat := 128 + p

/-- Sets an entry of a logical map. -/
def State.setMap (s : State) (k p : Nat) : State :=
  { s with disp := { s.disp with maps := Sparse.insert s.disp.maps k (mapEntry p) } }

/-- Place of a group in the lists of every Dispatcher: Dispatcher, band and share group of a listed task (R190). -/
def State.groupOf (s : State) (n : Nat) : Nat × Bool × Nat := (s.dispatcherOf n, (s.slot n).tin, (s.slot n).share)

/-- Groups that become active because listed tasks moved to another Dispatcher are raised to VMIN (R97, R190). -/
def State.raiseMoved (before s : State) : State :=
  let act (s : State) : List (Nat × Bool × Nat) := uniq (s.mat.ready.map fun e => s.groupOf e.slot)
  let old := act before
  s.each ((act s).filter fun g => !old.contains g) fun s g =>
    let others := (old.filter fun h => h.1 == g.1 && h.2.1 == g.2.1).map fun h => s.vtime h.1 h.2.1 h.2.2
    let vmin := match argMin id others with
      | some v => v
      | none => Sparse.get s.disp.vmax 0 (g.1 * 2 + if g.2.1 then 1 else 0)
    s.setVtime g.1 g.2.1 g.2.2 (Nat.max (s.vtime g.1 g.2.1 g.2.2) vmin)

/-- The ports that R79 numbers as logical engines of a partition and class, under given configurations; a port whose
logical engine a stand-in still carries keeps its number (R97, R99; log 46). -/
def State.numbered (s : State) (cfg : Nat → Nat) (part cls : Nat) : List Nat :=
  (List.range s.build.enginePorts).filter fun p =>
    Cfg.enable (cfg p) && (!Cfg.spare (cfg p) || s.disp.standIns.any fun e => e.1 == p)
    && Cfg.part (cfg p) == part && Cfg.cls (cfg p) == cls

/-- A port's configuration is written. Of the remaps in force those of the port end, unless it is failed and keeps its
class and partition, and those to the port end where it does not keep them (R97 to R99; log 46). -/
def State.writePortConfig (s : State) (p new : Nat) : State :=
  let same : Bool := s.portConfig p % 256 == new % 256 && Cfg.enable new
  let kept := s.disp.standIns.filter fun x => (x.1 != p || (same && (s.port p).failed)) && (x.2 != p || same)
  { s with disp := { s.disp with standIns := kept } }.setValue K.enginePortConfig p new

/-- The port that carries the logical engine of a numbered port: its stand-in while a remap is in force (R97). -/
def State.standInOf (s : State) (p : Nat) : Nat :=
  match s.disp.standIns.find? fun e => e.1 == p with
  | some e => e.2
  | none => p


/-- The stand-in for a logical engine of a failed port (R97). -/
def State.chooseStandIn (s : State) (p part cls : Nat) : Option Nat :=
  let ok (q : Nat) : Bool :=
    q != p && s.portWorks q && Cfg.part (s.portConfig q) == part && Cfg.cls (s.portConfig q) == cls
  let spares := (List.range s.build.enginePorts).filter fun q =>
    ok q && Cfg.spare (s.portConfig q) && s.carried q == 0
  match spares.find? fun q => q / 16 == p / 16 with
  | some q => some q
  | none =>
    match spares with
    | q :: _ => some q
    | [] => argMin (s.carriedIn part cls)
        ((List.range s.build.enginePorts).filter fun q => ok q && decide (s.carriedIn part cls q > 0))

/-- Every logical engine that a failed port carried is remapped; the stand-ins chosen are gathered (R97). -/
def State.remap (s : State) (p : Nat) : State × List Nat :=
  (s.disp.maps.filter fun e => e.2 == mapEntry p).foldl (fun (acc : State × List Nat) (e : Nat × Nat) =>
    let (s, used) := acc
    let part := e.1 / 768
    let cls := e.1 / 64 % 12
    match s.chooseStandIn p part cls with
    | none => (s, used)
    | some q =>
      -- the port that the maps in force number as this logical engine, whatever has been configured since
      let own := Sparse.get s.disp.numbers (p + 1) e.1 - 1
      let s := s.setMap e.1 q
      let pairs := (s.disp.standIns.filter fun (x : Nat × Nat) => x.1 ≠ own) ++ [(own, q)]
      ({ s with disp := { s.disp with standIns := pairs } }, if used.contains q then used else used ++ [q])) (s, [])

/-- The logical maps are rebuilt from the configuration of every port, remaps in force kept; a logical engine left
with a failed port then gets a stand-in as at the failure (R79, R97, R99; log 46). -/
def State.rebuildMaps (s : State) : State :=
  let before := s
  let numbers := (List.range 16).flatMap fun part => (List.range 12).flatMap fun cls =>
    (s.numbered s.portConfig part cls).zipIdx.map fun e => (mapKey part cls e.2, e.1)
  let s : State := { s with disp := { s.disp with
    maps := numbers.map fun e => (e.1, mapEntry (s.standInOf e.2)), numbers := numbers.map fun e => (e.1, e.2 + 1) } }
  let failed := (List.range s.build.enginePorts).filter fun p => (s.port p).failed
  State.raiseMoved before (s.each failed fun s p => (s.remap p).1)

/-- Whether a context is being torn down. -/
def State.tearing (s : State) (c : Nat) : Bool := (s.ctx c).tearing ≠ .none

/-- Spill buffers of a partition: base, stride and number (R218). -/
def State.spillArea (s : State) (part : Nat) : Nat := s.par K.spillArea part
def Area.base (a : Nat) : Nat := fld a 64 64
def Area.stride (a : Nat) : Nat := fld a 32 32
def Area.buffers (a : Nat) : Nat := fld a 0 13

/-- Spill record numbers in use. -/
def State.spillRefs (s : State) : List Nat := (s.mat.slots.map fun e => e.2.spillRef).filter (· ≠ 0)

/-- A range of memory written with zeros by the Spill and Copy DMA (R405). -/
def State.zeroRange (s : State) (addr n : Nat) : State := s.each (blocksOf addr n) fun s b => s.writeWord b 0

/-- The task in a slot gets a spill buffer of its partition, zero-filled when its last holder was another context, and
a spill record; none while no buffer is free (R204, R209, R405). A task keeps the buffer it has. DESIGN CHOICE (log
130): of the free buffers and of the free records the lowest is taken. -/
def State.takeBuffer (s : State) (n : Nat) : Option State :=
  if (s.slot n).spillRef ≠ 0 then some s
  else
    let part := (s.slot n).part
    let a := s.spillArea part
    let refs := s.spillRefs
    let used := refs.filter fun r => (s.spillRec r).part == part
    let buf := (List.range (Area.buffers a)).find? fun b => !used.any fun r => (s.spillRec r).buf == b
    let ref := (List.range 4096).find? fun r => !refs.contains (r + 1)
    match buf, ref with
    | some b, some r =>
      let addr := Area.base a + b * Area.stride a
      let k := part * 4096 + b
      let c := (s.slot n).ctx
      let owner := Sparse.get s.disp.bufOwner 0 k
      let s := if owner ≠ 0 ∧ owner ≠ c + 1 then s.zeroRange addr (Area.stride a) else s
      let rec_ : SpillRec := { addr := addr, slot := n, part := part, buf := b, park := 7 }
      let s := s.modSpill (r + 1) fun _ => rec_
      let s := { s with disp := { s.disp with bufOwner := Sparse.set s.disp.bufOwner 0 k (c + 1) } }
      some (s.modSlot n fun q => { q with spillRef := r + 1 })
    | _, _ => none

/-- A task is in no scratch map and no spill plan of a port any more. -/
def EnginePort.forget (e : EnginePort) (n : Nat) : EnginePort :=
  { e with parkedTasks := e.parkedTasks.filter fun k => k.slot ≠ n
           sw := e.sw.map fun w => { w with planned := w.planned.filter fun x => x.2.slot ≠ n } }

/-- The buffer and spill record of a task are freed, and the claimants of its partition that were refused one are
examined again (R204). -/
def State.freeBuffer (s : State) (n : Nat) : State :=
  let r := (s.slot n).spillRef
  if r = 0 then s
  else
    let s := { s with disp := { s.disp with ports := Sparse.mapAll s.disp.ports {} fun _ e => e.forget n } }
    let part := (s.slot n).part
    let s := (s.modSpill r fun _ => {}).modSlot n fun q => { q with spillRef := 0 }
    let again (e : ReadyEntry) : ReadyEntry := if (s.slot e.slot).part = part then { e with refused := false } else e
    { s with mat := { s.mat with ready := s.mat.ready.map again } }

/-- A task that lost its run is run again from its first tile: READY with RESUME clear (R215, R373, R396). A task of a
context being torn down keeps its state, an issued one without a port, until the walks free it (R69, R88, R402). -/
def State.rerun (s : State) (n : Nat) : State :=
  let s := (s.freeBuffer n).modSlot n fun q => { q with resume := false, dataStatus := .ok }
  if s.tearing (s.slot n).ctx then s.modSlot n fun q => { q with noPort := q.state == .issued }
  else ((s.modSlot n fun q => { q with noPort := false }).unlist n).enterReady n

/-- A task that a switch was bringing in stands in its Ready List again, where it stood before (R82). -/
def State.relist (s : State) (n at_ : Nat) : State :=
  if s.tearing (s.slot n).ctx then s else (s.unlist n).listAt n at_

/-- A descriptor is written into a port's issue slot: ISSUE_TAG toggles (R85, R210). -/
def State.putDescriptor (s : State) (p : Nat) (d : Block) : State :=
  let tag := !(s.port p).issueTag
  (s.modPort p fun e => { e with issueTag := tag, issueData := d }).emit (.issue p d tag)

/-- The task in a slot is issued to a port (R67, R85, R89). -/
def State.issueTask (s : State) (p n : Nat) : State :=
  let s := s.putDescriptor p (s.descriptor n)
  let fresh := !(s.slot n).resume
  let s := (s.unlist n).modSlot n fun q => { q with
    state := .issued, port := p, noPort := false, resume := false, issueTime := BitVec.ofNat 32 s.clk.abs
    limit := s.watchdogOf n, dataStatus := if fresh then .ok else q.dataStatus }
  s.modPort p fun e => { e with held := some n, lateCounted := false }

/-- The system descriptor in the layout of R210. -/
def SysDesc.word (d : SysDesc) : Block :=
  BitVec.ofNat 512 (at' d.addr 256 64 + at' d.park 253 3 + at' d.off 232 21 + at' d.len 208 21 + at' d.home 202 6
    + at' d.task.toNat 96 32 + at' d.gen.toNat 36 16 + at' d.ctx 24 12 + at' d.op 8 16 + at' 0xE 4 4)

/-- A system descriptor for a parked task (R210); its range in bytes. -/
def State.sysDesc (s : State) (op n park off len : Nat) : SysDesc :=
  let q := s.slot n
  { op := op, slot := n, park := park, off := off / 64, len := len / 64, ctx := q.ctx, gen := q.gen
    addr := (s.spillRec q.spillRef).addr + off, task := BitVec.ofNat 32 (s.taskId n), home := q.home }

/-- A Brass record about the task in a slot (R477). -/
def State.brassTask (s : State) (n port decision arg : Nat) : State :=
  let q := s.slot n
  s.brass { ctx := q.ctx, slot := n, share := q.share, port := port, home := q.home, cls := q.cls, tin := q.tin
            part := q.part, decision := decision, arg := Nat.min arg 0xFFFFFFFF }

/-- Resident bytes of a port's scratch map (R206). -/
def State.residents (s : State) (p : Nat) : Nat := ((s.port p).parkedTasks.map (·.resident)).sum

/-- SCRATCH_BYTES of a class (R206). -/
def State.scratch (s : State) (cls : Nat) : Nat := s.par K.scratchBytes cls

/-- Takes bytes from the top of a parked task's resident range: one segment, the fourth taking the whole remainder; the
task leaves the map when nothing is left (R207, R208). Answers the bytes taken and the SPILL. -/
def State.spillFrom (s : State) (p n want : Nat) : State × Nat × SysDesc :=
  let r := (s.slot n).spillRef
  let rec_ := s.spillRec r
  let have_ := rec_.resident
  let want := ceilDiv want 64 * 64
  let take := if want = 0 then 0 else if rec_.segs.length ≥ 3 then have_ else Nat.min want have_
  let left := have_ - take
  let d := s.sysDesc 1 n rec_.park left take
  let segs := if take = 0 then rec_.segs else rec_.segs ++ [(left / 64, take / 64)]
  let s := s.modSpill r fun x => { x with
    resident := left, segs := segs, pinned := decide (left > 0), park := if left = 0 then 7 else x.park }
  let keep (l : List Parked) : List Parked :=
    if left = 0 then l.filter fun k => k.slot ≠ n else modWhere (·.slot == n) (fun k => { k with resident := left }) l
  (s.modPort p fun e => { e with parkedTasks := keep e.parkedTasks }, take, d)

/-- Parked tasks of a port, the longest parked first, without one (R207). -/
def State.longestParked (s : State) (p : Nat) (except_ : Nat) : List Nat :=
  (sortBy (fun (a b : Parked) => decide (a.since < b.since))
    ((s.port p).parkedTasks.filter fun k => k.slot ≠ except_)).map (·.slot)

/-- Step 3 of a spill plan from the other parked tasks (R207): the SPILLs and the bytes they take. -/
def State.spillOthers (p : Nat) : List Nat → Nat → State → State × Nat × List SysDesc
  | [], _, s => (s, 0, [])
  | n :: t, want, s =>
    if want = 0 then (s, 0, [])
    else
      let (s, got, d) := s.spillFrom p n want
      let (s, more, ds) := State.spillOthers p t (want - got) s
      (s, got + more, if got = 0 then ds else d :: ds)

/-- Room that an incoming need of N bytes lacks on a port (R206, R207). -/
def State.shortfall (s : State) (p need : Nat) : Nat :=
  need + s.residents p - s.scratch (Cfg.cls (s.portConfig p))

/-- The switch's descriptors up to the next SPILL are written: a DISCARD returns no record, a SPILL occupies the port
until it ends; fuel bounds their number (R211, R212). -/
def State.writeSpills (p : Nat) : Nat → State → State
  | 0, s => s
  | f + 1, s =>
    match (s.port p).sw with
    | none => s
    | some w =>
      match w.spills with
      | [] => s
      | d :: rest =>
        let s := s.putDescriptor p d.word
        if d.op = 1 then s.modPort p fun e => { e with sw := some { w with spilling := true } }
        else
          State.writeSpills p f ((s.bump K.discards).modPort p fun e => { e with sw := some { w with spills := rest } })

/-- The fixed part of a switch's time (R214). -/
def Switch.time (w : Switch) : Nat := 290 + w.bytes / 64 + 64 * w.nRestores

/-- The spill records that a plan changed are updated, but for those freed since (R214 step 4, R216). -/
def State.takePlanned (s : State) (l : List (Nat × SpillRec)) : State :=
  s.each (l.filter fun e => (s.slot e.2.slot).spillRef == e.1) fun s e => s.modSpill e.1 fun _ => e.2

/-- The spills of a switch have all ended: the spill records are updated, the excess is counted, once, and with no
incoming task the switch is over (R214). -/
def State.spillsDone (s : State) (p : Nat) : State :=
  match (s.port p).sw with
  | none => s
  | some w =>
    if !w.spills.isEmpty ∨ w.spilling then s
    else if w.ended then if w.incoming.isNone then s.modPort p fun e => { e with sw := none } else s
    else
      let x := (s.clk.abs - w.start) - (w.time - 64 * w.nRestores - 1)
      let s := (s.takePlanned w.planned).bump K.switchOverrunHc x
      s.modPort p fun e => { e with
        sw := if w.incoming.isNone then none else some { w with excess := x, ended := true, planned := [] } }

/-- A switch begins: its spills are counted and the first descriptors written; the spill records stay as they were
before the plan until its last SPILL has ended (R214). -/
def State.startSwitch (s : State) (p : Nat) (before : Sparse SpillRec) (w : Switch) : State :=
  let planned := s.disp.spill.filter fun e => decide (Sparse.get before {} e.1 ≠ e.2)
  let s := { s with disp := { s.disp with spill := before } }
  let w := { w with start := s.clk.abs, planned := planned }
  let s := (s.bump K.spillBeats (w.bytes / 64)).modPort p fun e => { e with sw := some w }
  (State.writeSpills p (w.spills.length + 1) s).spillsDone p

/-- A port whose stop has been asked for spills each pinned task whole once it holds no task (R30, R207). -/
def State.drainStop (s : State) (p : Nat) : State :=
  let e := s.port p
  if s.disp.unitStopReq.contains p && e.held.isNone && e.sw.isNone && !e.inL1 && !e.parkedTasks.isEmpty then
    let before := s.disp.spill
    let (s, bytes, ds) := State.spillOthers p (s.longestParked p 524288) (2 ^ 40) s
    s.startSwitch p before { spills := ds, bytes := bytes }
  else s

/-- RESTOREs that a task to be resumed takes on a port (R212). -/
def State.restores (s : State) (n : Nat) : List SysDesc :=
  let rec_ := s.spillRec (s.slot n).spillRef
  if !(s.slot n).resume then []
  else if rec_.segs.isEmpty then if rec_.pinned then [s.sysDesc 2 n rec_.park 0 0] else []
  else rec_.segs.map fun g => s.sysDesc 2 n (if rec_.pinned then rec_.park else 7) (g.1 * 64) (g.2 * 64)

/-- Bytes that the task in a slot needs on a port (R207). -/
def State.incomingNeed (s : State) (n : Nat) : Nat :=
  let rec_ := s.spillRec (s.slot n).spillRef
  if (s.slot n).resume then rec_.live - rec_.resident else Tpl.scratch (s.slotTpl n) * 256

/-- A resumed task runs again: its live state is whole, it is no longer parked (R208, R212). -/
def State.unpark (s : State) (p n : Nat) : State :=
  let r := (s.slot n).spillRef
  if r = 0 then s
  else
    let s := s.modPort p fun e => { e with parkedTasks := e.parkedTasks.filter fun k => k.slot ≠ n }
    s.modSpill r fun x => { x with resident := 0, segs := [], pinned := false, park := 7 }

/-- The task in a slot is issued to a free port at a Dispatcher's selection: at once, or at the end of a switch where it
needs a spill or a restore (R207, R214). -/
def State.beginIssue (s : State) (p n : Nat) : State :=
  let want := s.shortfall p (s.incomingNeed n)
  let rs := s.restores n
  let before := s.disp.spill
  let (s, bytes, ds) := State.spillOthers p (s.longestParked p n) want s
  if ds.isEmpty ∧ rs.isEmpty then (s.unpark p n).issueTask p n
  else
    (s.unlist n).startSwitch p before { spills := ds, restores := rs, incoming := some n, bytes := bytes
                                        nRestores := rs.length, inAt := s.readyAt n }

/-- A port's pre-emption request is withdrawn (R90). -/
def EnginePort.lower (e : EnginePort) : EnginePort := { e with preempt := false, preemptSusp := false }

/-- A switch of a port is over without its incoming task, which stands in its Ready List again (R30, R82, R396). -/
def State.dropIncoming (s : State) (p : Nat) : State :=
  match (s.port p).sw with
  | none => s
  | some w =>
    let s := s.modPort p fun e => { e with sw := some { w with incoming := none, restores := [] } }
    s.each w.incoming.toList fun s n => s.relist n w.inAt

/-- The scratchpad of a port is lost: each task parked there, and each task that a spill plan was still taking bytes
of, is freed of its buffer. Answered are the tasks parked, and the others. A task that a switch was bringing in stands
in its Ready List again, a claimant bound again (R205, R215, R396). -/
def State.evict (s : State) (p : Nat) : State × List Nat × List Nat :=
  let e := s.port p
  let parked := uniq (e.parkedTasks.map (·.slot))
  let spilling := ((e.sw.map (·.planned)).getD []).map fun x => x.2.slot
  let others := uniq (spilling.filter fun n => !parked.contains n)
  let claimant := match e.sw with
    | some w => if w.victim.isSome then w.incoming else none
    | none => none
  let s := s.dropIncoming p
  let s := s.modPort p fun e => { e.lower with
    parkedTasks := [], sw := none, discards := [], bound := claimant.or e.bound }
  let s := s.each (parked ++ others) fun s n => (s.freeBuffer n).modSlot n fun q => { q with resume := false }
  (s, parked, others)

/-- The pins and channels of a port in reset (R396, R497). -/
def EnginePort.inReset (e : EnginePort) : EnginePort :=
  { e.lower with held := none, resetN := false, epReady := false, issueTag := true, reads := [], run := none
                 sent := e.sent.filter fun w => (e.run.map (·.id)) ≠ some w.1
                 preemptTag := false, issueData := 0 }

/-- A port is declared failed: its logical engines are remapped, and every task it had runs again on its stand-in
(R97, R215, R396, R409). -/
def State.failPort (s : State) (p : Nat) : State :=
  if (s.port p).failed then s
  else
    let before := s
    let e := s.port p
    let (s, parked, others) := s.evict p
    let tasks := uniq (e.held.toList ++ e.suspects ++ parked ++ others)
    let s := s.modPort p fun e => { e.inReset with
      failed := true, inL1 := false, l1Suspects := false, restoring := false, replaying := false, suspects := []
      guilty := [], bound := none }
    let (s, used) := s.remap p
    let s := s.each used fun s q =>
      (s.raise A.engineSpared).logEvent 0x0002 U.dispatchers (at' p 0 6 + at' q 8 6)
    let s := State.raiseMoved before s
    s.each tasks State.rerun

/-- Suspects in order of latest ISSUE_TIME, the oldest first (R408). -/
def State.byIssue (s : State) (l : List Nat) : List Nat :=
  let age (n : Nat) : Nat := (BitVec.ofNat 32 s.clk.abs - (s.slot n).issueTime).toNat
  sortBy (fun a b => decide (age a > age b)) l

/-- L1 of a port begins (R396): EP_RESET_N is asserted, the port's tasks are no longer held, and the port is declared
failed instead at its ENGINE_L1_LIMIT-th L1 in the window. Suspects replay after an L1 that a task watchdog or an
ENGINE_FAULT started; otherwise the port's tasks run again from their first tile. A stopped port is in reset already
(R30). -/
def State.startL1 (s : State) (p : Nat) (suspects : Bool) : State :=
  let e := s.port p
  if e.inL1 ∨ e.failed ∨ !s.portEnabled p ∨ !s.power.started ∨ s.disp.unitStopped.contains p then s
  else
    let window := s.par K.escalateWindowS * 1000
    let recent := e.l1Times.filter fun t => decide (s.ms - t < window)
    if recent.length + 1 ≥ s.par K.engineL1Limit then (s.modPort p fun e => { e with l1Times := [] }).failPort p
    else
      let (s, parked, others) := s.evict p
      let s := s.modPort p fun e => { e.inReset with inL1 := true, l1Times := recent ++ [s.ms] }
      let s := s.each others State.rerun
      if suspects then
        -- the task held stays ISSUED without a port, a parked one returns to READY and waits for its replay unlisted
        let s := s.each e.held.toList fun s n => s.modSlot n fun q => { q with noPort := true }
        let s := s.each parked fun s n =>
          if s.tearing (s.slot n).ctx then s else (s.unlist n).modSlot n fun q => { q with state := .ready }
        let l := (uniq (e.suspects ++ e.held.toList ++ parked)).filter fun n => !s.tearing (s.slot n).ctx
        s.modPort p fun e => { e with l1Suspects := true, replaying := true, suspects := s.byIssue l }
      else s.each (uniq (e.held.toList ++ parked)) State.rerun

/-- An L1 of a port lies within a reset in progress (R398). -/
def State.absorbsPort (s : State) (p : Nat) : Bool :=
  s.resets.levels.any fun r => decide (r.level ≥ 3) || (r.level == 2 && r.target == Cfg.part (s.portConfig p))

/-- L1 of a port is asked for; a reset in progress of a wider scope absorbs it (R398). -/
def State.requestL1 (s : State) (p : Nat) (suspects : Bool) : State :=
  if s.absorbsPort p then s else s.startL1 p suspects

/-- The suspects of a port that are still to replay (R407, R408). -/
def State.suspectsLeft (s : State) (p : Nat) : List Nat := (s.port p).suspects.filter fun n => !s.tearing (s.slot n).ctx

/-- The next suspect of a replay is issued from its first tile as soon as the port can take it; with none left the port
resumes normal issue (R85, R408, R409, R421). -/
def State.nextSuspect (s : State) (p : Nat) : State :=
  let e := s.port p
  if e.inL1 ∨ e.held.isSome then s
  else
    match s.suspectsLeft p with
    | [] => s.modPort p fun e => { e with replaying := false, l1Suspects := false, suspects := [], guilty := [] }
    | n :: rest =>
      if !s.portTakes p then s
      else
        let s := s.modPort p fun e => { e with suspects := rest }
        let s := s.modSlot n fun q => { q with resume := false }
        ((s.brassTask n p 0x9 0).bump K.suspectReplays).issueTask p n

/-- A port's engine has failed the task it holds: the slot returns to ISSUED without a port, and L1 with suspect replay
starts; in a replay the suspect is guilty (R88, R391, R407, R409). -/
def State.engineFault (s : State) (p : Nat) : State :=
  match (s.port p).held with
  | none => s.requestL1 p true
  | some n =>
    let c := (s.slot n).ctx
    let e := s.port p
    let s := s.modSlot n fun q => { q with noPort := true }
    let s := s.modPort p fun e => { e.lower with held := none }
    -- an L2 in progress absorbs the L1: the task runs again as the tasks of that L2's ports do (R398, R400)
    if s.absorbsPort p then s.rerun n
    else if s.tearing c then s.startL1 p e.replaying
    else if e.replaying then
      let other := e.guilty.any fun g => g ≠ c
      let s := s.modPort p fun e => { e with guilty := if e.guilty.contains c then e.guilty else e.guilty ++ [c] }
      let s := s.startL0 c 0x05
      -- a second guilty suspect, of a different context: the engine is at fault, and the suspects left run on the stand-in
      if other then s.failPort p else s.startL1 p true
    else (s.modPort p fun e => { e with suspects := [n] }).startL1 p true

/-- A port's L1 completes in the hub cycle in which EP_READY rises (R396, R408). -/
def State.finishL1 (s : State) (p : Nat) : State :=
  let s := s.modPort p fun e => { e with inL1 := false, epReady := true, expired := false }
  let s := (s.bump K.resets 1 1).logReset 1 p 0
  if (s.port p).replaying then s.nextSuspect p else s.drainStop p

end Sys2Proof.Machine
end

