-- ==== Sys2Proof/Machine/Matching.lean ====
section
/-! DEFINITION. Windows and templates, operand tokens, resolutions, dispatch, and the engine port protocol
(R52, R64 to R98, R205, R391 to R396, R502). -/
namespace Sys2Proof.Machine

/-- Slots of the Matching Store (R68). -/
def slotCount : Nat := 524288

/-- The lowest aligned run of W free slots, as an index of such runs (R64; log 47): the slots listed are those in use.
-/
def State.freeWindow (s : State) (w : Nat) : Option Nat :=
  let k := s.mat.slots.foldl (fun k e => if e.1 / w = k then k + 1 else k) 0
  if (k + 1) * w ≤ slotCount then some k else none

/-- The slots of a window reserved for an instance (R69). -/
def State.reserveSlots (s : State) (i : Instance) (base : Nat) : State :=
  s.each (List.range i.width) fun s t => s.modSlot (base + t) fun _ =>
    { state := .reserved, ctx := i.ctx, gen := i.gen, inst := i.id, part := i.part }

/-- The instance admitted first that still waits for a window takes one (R64). -/
def windowReserveEff (s : State) : State :=
  match s.loader.instances.find? fun i => i.base.isNone && !s.tearing i.ctx with
  | none => s
  | some i =>
    match s.freeWindow i.width with
    | none => s
    | some k => (s.modInst i.id fun i => { i with base := some (k * i.width) }).reserveSlots i (k * i.width)

/-- WINDOW_RESERVE (R64). -/
def execWindowReserve (s : State) : Host.Outcome State Fault Refusal := runCore windowReserveEff s

/-- The slot of a template as it is instantiated: counter, declared operands of the request, and the identity of the
task (R51, R65, R68, R80). -/
def State.newSlot (s : State) (i : Instance) (t : Nat) : Slot :=
  let img := s.instImage i
  let tpl := s.instTpl i t
  let r := ((s.hold i.hold).map (·.record)).getD 0
  let given := Tpl.instOperands tpl
  let v (k : Nat) : BitVec 64 := if given.getLsbD k then Req.operand r k else 0
  let cls := Tpl.cls tpl
  let logical := ClassEntry.logical (img.cls cls)
  let counter := Tpl.depCount tpl - (if Tpl.prevStep tpl && i.prevDone then 1 else 0)
  { op0 := v 0, op1 := v 1, op2 := v 2, op3 := v 3, present := given, counter := counter, state := .waiting
    ctx := i.ctx, gen := i.gen, inst := i.id, tmpl := t, cls := cls
    home := if cls ≤ 0xB ∧ logical ≠ 0 then t % logical else 0
    tin := Req.tin r, fallback := i.fallback, result := Tpl.result tpl, serial := Tpl.serial tpl
    share := Req.share r, part := i.part }

/-- The next template of an instance is instantiated once its slot's earlier template has retired (R65). -/
def templateInstantiateEff (id : Nat) (s : State) : State :=
  match s.inst id with
  | none => s
  | some i =>
    let n := i.slotOf i.inst
    if i.base.isNone ∨ i.inst ≥ i.count ∨ (s.slot n).state ≠ .reserved ∨ s.tearing i.ctx then s
    else
      let s := if !i.prevDone && s.prevCompleted i then s.creditInst i else s
      let i := (s.inst id).getD i
      let s := s.modSlot n fun _ => s.newSlot i i.inst
      (s.modInst id fun i => { i with inst := i.inst + 1 }).checkInputs n

/-- TEMPLATE_INSTANTIATE (R65). -/
def execTemplateInstantiate (id : Nat) (s : State) : Host.Outcome State Fault Refusal :=
  runCore (templateInstantiateEff id) s

/-- What a bank does with a token (R73). -/
inductive TokenFate where
  | stale | protocol | matched
  deriving DecidableEq, Repr

/-- The checks of R73, in order. -/
def State.tokenFate (s : State) (t : BitVec 128) : TokenFate :=
  let n := Tok.slot t
  let q := s.slot n
  if Tok.gen t ≠ (s.ctx (Tok.ctx t)).gen then .stale
  else if q.ctx ≠ Tok.ctx t ∨ q.state ≠ .waiting then .protocol
  else if Tok.isOperand t then
    let m := mask4 (Tok.operand t)
    if Tpl.operandMask (s.slotTpl n) &&& m = 0 ∨ q.present &&& m ≠ 0 then .protocol else .matched
  else if Tok.count t > q.counter then .protocol
  else .matched

/-- A matched token's effect on its slot (R73). -/
def Slot.take (q : Slot) (t : BitVec 128) : Slot :=
  if Tok.isOperand t then
    let m := mask4 (Tok.operand t)
    { q.setOp (Tok.operand t) (Tok.value t) with
      present := q.present ||| m, empty := if Tok.empty t then q.empty ||| m else q.empty }
  else { q with counter := q.counter - Tok.count t }

/-- A bank checks and applies the first token that waits for it (R72, R73, R74). -/
def tokenMatchEff (bank : Nat) (s : State) : State :=
  let mine (t : BitVec 128) : Bool := Tok.slot t % 16 == bank
  match s.mat.tokens.find? mine with
  | none => s
  | some t =>
    let s := { s with mat := { s.mat with tokens := dropFirst mine s.mat.tokens } }
    match s.tokenFate t with
    | .stale => s.bump K.tokensStaleDropped
    | .protocol => ((s.bump K.tokensProtocolDropped).raise A.matchProtocol).startL0 (Tok.ctx t) 0x04
    | .matched => ((s.modSlot (Tok.slot t) fun q => q.take t).bump K.tokensMatched).checkInputs (Tok.slot t)

/-- TOKEN_MATCH (R73). -/
def execTokenMatch (bank : Nat) (s : State) : Host.Outcome State Fault Refusal := runCore (tokenMatchEff bank) s

/-- A held task that no hold of R70 or R196 keeps any more enters READY; a task that the Signal Unit or the Routing
Engine resolves stays HELD for that unit (R172, R276). A YIELDED task does so once its flow is no longer suspended
(R196). -/
def holdLiftEff (n : Nat) (s : State) : State :=
  let q := s.slot n
  if q.state = .yielded ∧ !s.flowSuspended n ∧ !s.tearing q.ctx then s.promote n
  else if q.state ≠ .held ∨ q.parked ∨ s.holds n ∨ s.tearing q.ctx then s else s.promote n

/-- HOLD_LIFT (R70). -/
def execHoldLift (n : Nat) (s : State) : Host.Outcome State Fault Refusal := runCore (holdLiftEff n) s

/-- Null and skipped tasks find room in their 960 entries of the pending-completion queue (R77). -/
def State.nullRoom (s : State) : Bool :=
  decide ((s.mat.pend.filter fun c => c.port.isNone && !c.data).length < 960)

/-- A ready null task completes without issue (R52, R77). -/
def nullTaskResolveEff (n : Nat) (s : State) : State :=
  let q := s.slot n
  if q.state = .ready ∧ q.cls = 0xF ∧ s.nullRoom ∧ !s.tearing q.ctx then s.accept n .ok [] false none false 0 else s

/-- NULL_TASK_RESOLVE (R52). -/
def execNullTaskResolve (n : Nat) (s : State) : Host.Outcome State Fault Refusal := runCore (nullTaskResolveEff n) s

/-- A task whose edge operands all arrived EMPTY resolves SKIPPED without issue (R75). -/
def taskSkipEff (n : Nat) (s : State) : State :=
  let q := s.slot n
  if q.state = .ready ∧ q.skips (s.slotTpl n) ∧ s.nullRoom ∧ !s.tearing q.ctx then
    (s.bump K.tasksSkipped).accept n .skipped [] true none false 0
  else s

/-- TASK_SKIP (R75). -/
def execTaskSkip (n : Nat) (s : State) : Host.Outcome State Fault Refusal := runCore (taskSkipEff n) s

/-- Operations whose OUTPUT0 is a row count: EXP_RECV and Q_DEQUEUE (R93). -/
def rowCountOp (op : Nat) : Bool := op == Op.expRecv || op == Op.qDequeue

/-- A row-count value for a consumer: PADDED_ROWS to the tile multiple of its class, or VALID_ROWS for class 0xC
(R93). -/
def padRows (v : BitVec 64) (tile : Nat) : BitVec 64 :=
  let rows := fld v.toNat 32 32
  out64 (at' rows 32 32 + at' (if tile = 0 then rows else ceilDiv rows tile * tile) 0 32)

/-- The token of one edge of a completed template (R49, R53, R75, R93). -/
def State.edgeToken (s : State) (i : Instance) (c : PendingCompletion) (e : BitVec 32) : BitVec 128 :=
  let q := s.slot c.slot
  let target := q.tmpl + Edge.span e
  let to_ := i.slotOf target
  let cls := Tpl.cls (s.instTpl i target)
  let v := c.outs.getD (Edge.output e) 0
  let tile := if cls = 0xC then 0 else ClassEntry.tileMultiple ((s.instImage i).cls cls)
  let rows : Bool := q.cls == 0xC && rowCountOp (s.slotOp c.slot) && Edge.output e == 0
  let v := if rows then padRows v tile else v
  -- a row count of zero is sent as an EMPTY operand (R93, R144)
  let empty : Bool := c.empty || (rows && fld v.toNat 32 32 == 0)
  if Edge.isOperand e then
    mkToken (if empty then 0 else v) q.gen q.ctx to_ (Edge.operand e) true empty 0
  else mkToken 0 q.gen q.ctx to_ 0 false false (Edge.count e)

/-- The edges of a template of an instance (R48). -/
def State.edgesOf (s : State) (i : Instance) (t : Nat) : List (BitVec 32) :=
  let tpl := s.instTpl i t
  slice (s.instImage i).edges (Tpl.edgeFirst tpl) (Tpl.edgeCount tpl)

/-- An instance whose last template has retired ends, and its window's slots are FREE (R71). -/
def State.endInstance (s : State) (i : Instance) : State :=
  let s := s.each (List.range i.width) fun s t => s.modSlot (i.base.getD 0 + t) fun _ => {}
  { s with loader := { s.loader with instances := s.loader.instances.filter fun j => j.id ≠ i.id } }

/-- The template in a slot retires (R71). -/
def State.retire (s : State) (n : Nat) : State :=
  let id := (s.slot n).inst
  let s := s.modSlot n fun q => { q with state := .reserved }
  let s := s.modInst id fun i => { i with retired := i.retired + 1 }
  match s.inst id with
  | some i => if i.retired = i.count then s.endInstance i else s
  | none => s

/-- The first accepted completion whose fence is clear has its tokens formed, and its template retires (R71, R76, R78);
a context in teardown forms none (R402). -/
def tokenFormEff (s : State) : State :=
  let ready (c : PendingCompletion) : Bool := !c.fenced && !s.tearing (s.slot c.slot).ctx
  match s.mat.pend.find? ready with
  | none => s
  | some c =>
    let s := { s with mat := { s.mat with pend := dropFirst (· == c) s.mat.pend } }
    match s.inst (s.slot c.slot).inst with
    | none => s
    | some i =>
      let ts := (s.edgesOf i (s.slot c.slot).tmpl).map (s.edgeToken i c)
      let s := { s with mat := { s.mat with tokens := s.mat.tokens ++ ts } }
      s.retire c.slot

/-- TOKEN_FORM (R76). -/
def execTokenForm (s : State) : Host.Outcome State Fault Refusal := runCore tokenFormEff s

/-- Each write fence of a port that has reached zero is seen clear (R78). -/
def writeFenceClearEff (p : Nat) (s : State) : State :=
  let clear (c : PendingCompletion) : PendingCompletion :=
    if c.port == some p && s.writesOf c.slot == 0 then { c with fenced := false } else c
  { s with mat := { s.mat with pend := s.mat.pend.map clear } }

/-- WRITE_FENCE_CLEAR (R78). -/
def execWriteFenceClear (p : Nat) (s : State) : Host.Outcome State Fault Refusal :=
  runPort (s.hasEngine p) (writeFenceClearEff p) s

/-- Listed engine tasks of a band at a port that may be issued (R82, R196). -/
def State.portList (s : State) (p : Nat) (tin : Bool) : List ReadyEntry :=
  s.mat.ready.filter fun e => !e.data && (s.slot e.slot).tin == tin && s.listPort e.slot == some p
    && !s.tearing (s.slot e.slot).ctx && !s.resumeHeld e.slot

/-- Listed data tasks of a band at a Dispatcher (R82). -/
def State.dataList (s : State) (d : Nat) (tin : Bool) : List ReadyEntry :=
  s.mat.ready.filter fun e => e.data && (s.slot e.slot).tin == tin && s.dispatcherOf e.slot == d
    && !s.tearing (s.slot e.slot).ctx

/-- The share pick: the group of least VTIME, the lower number on a tie, and the head of its list (R190). -/
def State.sharePick (s : State) (d : Nat) (tin : Bool) (l : List ReadyEntry) : Option ReadyEntry :=
  let groups := uniq (l.map fun e => (s.slot e.slot).share)
  match argMin2 (s.vtime d tin) id groups with
  | none => none
  | some g => l.find? fun e => (s.slot e.slot).share == g

/-- Balancing is on for the partition of a port (R95). -/
def State.balanced (s : State) (p : Nat) : Bool := bit (s.par K.loadBalanceEnable) (Cfg.part (s.portConfig p))

/-- Ports equivalent to a port (R95). -/
def State.equivalents (s : State) (p : Nat) : List Nat :=
  let c := s.portConfig p
  (List.range s.build.enginePorts).filter fun q => q ≠ p && q / 16 == p / 16 && s.portWorks q
    && Cfg.part (s.portConfig q) == Cfg.part c && Cfg.cls (s.portConfig q) == Cfg.cls c

/-- The first listed task of each share group that is not pinned (R95). -/
def State.offersOf (s : State) (q : Nat) (tin : Bool) : List ReadyEntry :=
  let l := (s.portList q tin).filter fun e => !s.pinned e.slot
  (uniq (l.map fun e => (s.slot e.slot).share)).filterMap fun g => l.find? fun e => (s.slot e.slot).share == g

/-- The task that a free port takes from its equivalents: the offer that entered READY earliest (R95). -/
def State.stealPick (s : State) (d p : Nat) (tin : Bool) : Option ReadyEntry :=
  let offers := (s.equivalents p).filterMap fun q => s.sharePick d tin (s.offersOf q tin)
  argMin2 (·.at_) (·.slot) offers

/-- A claimant issued elsewhere is unbound, and the pre-emption made for it goes on (R205). -/
def State.cancelBound (s : State) (n : Nat) : State :=
  s.each ((List.range s.build.enginePorts).filter fun p => (s.port p).bound == some n) fun s p =>
    (s.modPort p fun e => { e with bound := none }).bump K.boundCancelled

/-- What every issue of a Dispatcher counts and charges (R99, R189). -/
def State.countIssue (s : State) (d n : Nat) : State := (s.charge d n).bump K.dispatched 1 d

/-- An engine task is issued to a port: from its own list, or from an equivalent port's (R83, R95). -/
def State.issueEngine (s : State) (d p : Nat) (e : ReadyEntry) (balanced : Bool) : State :=
  let s := s.countIssue d e.slot
  let s := if balanced then
      (s.brassTask e.slot p 0x1 ((s.listPort e.slot).getD 0)).bump K.balancedIssues
    else s.brassTask e.slot p 0x0 (s.clk.abs - e.at_)
  (s.cancelBound e.slot).beginIssue p e.slot

/-- A data task is handed onto the data-task path for a completion credit (R31, R32, R83). -/
def State.issueData (s : State) (d : Nat) (e : ReadyEntry) : State :=
  let n := e.slot
  let s := (s.countIssue d n).brassTask n 0 0x2 (s.slotOp n)
  let s := { s with mat := { s.mat with credits := s.mat.credits - 1, path := s.mat.path ++ [n] } }
  let s := (s.unlist n).emit (.dataTask (s.descriptor n))
  s.modSlot n fun q => { q with
    state := .issued, noPort := true, issueTime := BitVec.ofNat 32 s.clk.abs, limit := s.watchdogOf n
    unaccepted := 0, out0 := 0, request := 0 }

/-- One source of a Dispatcher in a band issues its item, if it has one (R83). -/
def State.trySource (s : State) (d src : Nat) (tin : Bool) : Option State :=
  if src = 16 then
    if s.mat.credits = 0 then none else (s.sharePick d tin (s.dataList d tin)).map fun e => s.issueData d e
  else
    let p := d * 16 + src
    if !s.portFree p then none
    else
      match s.sharePick d tin (s.portList p tin) with
      | some e => some (s.issueEngine d p e false)
      | none =>
        if s.balanced p then (s.stealPick d p tin).map fun e => s.issueEngine d p e true else none

/-- The round-robin of a band over 17 sources (R83). -/
def State.tryBand (s : State) (d : Nat) (tin : Bool) : Option State :=
  let k := d * 2 + if tin then 1 else 0
  let start := Sparse.get s.disp.last 0 k
  (List.range 17).findSome? fun i =>
    let src := (start + i) % 17
    (s.trySource d src tin).map fun s =>
      { s with disp := { s.disp with last := Sparse.set s.disp.last 0 k ((src + 1) % 17) } }

/-- A bound claimant is issued to its port in the first hub cycle in which that port is free, ahead of the round-robin
(R205). -/
def State.tryBound (s : State) (d : Nat) : Option State :=
  (List.range 16).findSome? fun i =>
    let p := d * 16 + i
    match (s.port p).bound with
    | none => none
    | some n =>
      if s.portFree p ∧ s.mat.ready.any fun e => e.slot == n then
        let s := (s.countIssue d n).brassTask n p 0x3 (s.port p).victim
        let s := s.modPort p fun e => { e with bound := none }
        some (s.beginIssue p n)
      else none

/-- A DISCARD owed to a free port goes out ahead of the round-robin (R216). -/
def State.tryDiscard (s : State) (d : Nat) : Option State :=
  (List.range 16).findSome? fun i =>
    let p := d * 16 + i
    match (s.port p).discards with
    | [] => none
    | x :: rest =>
      if s.portFree p then
        some (((s.putDescriptor p x.word).bump K.discards).modPort p fun e => { e with discards := rest })
      else none

/-- A suspect of a replay whose port could not take it when its turn came goes out once the port can (R85, R408). -/
def State.trySuspect (s : State) (d : Nat) : Option State :=
  (List.range 16).findSome? fun i =>
    let p := d * 16 + i
    if (s.port p).replaying ∧ s.portTakes p ∧ s.suspectsLeft p ≠ [] then some (s.nextSuspect p) else none

/-- A Dispatcher issues at most one item (R83, R205, R216, R408). DESIGN CHOICE (log 131): a DISCARD that is owed goes
before a bound claimant, both of which go before the round-robin. -/
def dispatchEff (d : Nat) (s : State) : State :=
  if d ≥ s.dispatchers then s
  else ((s.tryDiscard d).orElse fun _ => (s.trySuspect d).orElse fun _ => (s.tryBound d).orElse fun _ =>
    (s.tryBand d false).orElse fun _ => s.tryBand d true).getD s

/-- DISPATCH (R83). -/
def execDispatch (d : Nat) (s : State) : Host.Outcome State Fault Refusal := runCore (dispatchEff d) s

/-- Engine time of an accepted completion or yield is charged to the task's share group (R192). -/
def State.chargeEngine (s : State) (n : Nat) : State :=
  s.account K.shareEngineHc (s.slot n).share (BitVec.ofNat 32 s.clk.abs - (s.slot n).issueTime).toNat

/-- A completion that answers a pre-emption request in place of a yield: the buffer is freed (R215). -/
def State.raced (s : State) (p n : Nat) : State :=
  if (s.port p).preempt then
    (((s.brassTask n p 0x7 0).bump K.preemptsRaced).freeBuffer n).modPort p EnginePort.lower
  else s

/-- A port no longer holds its task: a replay goes on with the next suspect, a stop goes on with its spills
(R30, R408). -/
def State.portReleased (s : State) (p : Nat) : State :=
  if (s.port p).replaying then s.nextSuspect p else s.drainStop p

/-- The reads of a task that has completed belong to no task any more: what they answer is recorded against none
(R86). -/
def EnginePort.orphan (e : EnginePort) (n : Nat) : EnginePort :=
  { e with reads := e.reads.map fun r => if r.slot = some n then { r with slot := none } else r }

/-- A DONE completion: accepted with its outputs and its write fence (R78, R88). -/
def State.engineDone (s : State) (p n : Nat) (r : BitVec 320) : State :=
  let fence := s.writesOf n
  let s := s.freeBuffer n
  let s := s.modPort p fun e => { e.orphan n with held := none }
  (s.accept n .ok ((List.range 4).map (Cmpl.output r)) false (some p) false fence).portReleased p

/-- A completion record of an engine (R87, R88, R90, R91, R192, R502), charged to the task's share group whatever its
status: a SPILL's own record is part of SPILL_END, and a record for no task, one after the task's yield among them, is
dropped. -/
def completionRecordEff (p : Nat) (r : BitVec 320) (s : State) : State :=
  let e := s.port p
  if e.expired then s.bump K.completionsLateDropped
  else if e.failed ∨ !e.resetN then s
  else
    match e.held with
    | none => s.raise A.matchProtocol
    | some n =>
      let s := (s.raced p n).chargeEngine n
      if Cmpl.status r = 0 then s.engineDone p n r
      else if Cmpl.status r = 1 then
        let s := (s.freeBuffer n).modPort p fun e => { e.orphan n with held := none }
        ((s.modSlot n fun q => { q with noPort := true }).jobFault n 0x02).portReleased p
      else s.engineFault p

/-- COMPLETION_RECORD (R88). -/
def execCompletionRecord (p : Nat) (r : BitVec 320) (s : State) : Host.Outcome State Fault Refusal :=
  runPort (s.hasEngine p) (completionRecordEff p r) s

/-- An engine raises EP_READY (R396, R98): its L1 completes, or its return to service; at a start it is ready. While the
port's reset is asserted, only the pin's level is seen (R497). -/
def epReadyRiseEff (p : Nat) (s : State) : State :=
  let e := s.port p
  if !e.resetN then s.modPort p fun e => { e with epReady := true }
  else if e.inL1 then s.finishL1 p
  else s.modPort p fun e => { e with epReady := true, restoring := false }

/-- EP_READY_RISE (R396). -/
def execEpReadyRise (p : Nat) (s : State) : Host.Outcome State Fault Refusal :=
  runPort (s.hasEngine p) (epReadyRiseEff p) s

/-- EP_READY falls: outside reset an ENGINE_FAULT of the task held, or L1 of a port that holds none (R497, R502). -/
def epReadyFallEff (p : Nat) (s : State) : State :=
  let e := s.port p
  if !e.epReady then s
  else
    let s := s.modPort p fun e => { e with epReady := false }
    if e.failed ∨ !e.resetN then s
    else if e.held.isSome then s.engineFault p
    else s.requestL1 p false

/-- EP_READY_FALL (R502). -/
def execEpReadyFall (p : Nat) (s : State) : Host.Outcome State Fault Refusal :=
  runPort (s.hasEngine p) (epReadyFallEff p) s

/-- After 64 EPCLK cycles of an L1, EP_RESET_N is released; in Night and in P2 ports stay in reset (R396, R411, R436).
An engine that holds EP_READY high already completes the L1 (log 116). -/
def epResetReleaseEff (p : Nat) (s : State) : State :=
  let e := s.port p
  if e.inL1 ∧ !e.resetN ∧ !s.resets.night ∧ s.power.state ≠ 2 then
    let s := s.modPort p fun e => { e with resetN := true }
    if e.epReady then s.finishL1 p else s
  else s

/-- EP_RESET_RELEASE (R396). -/
def execEpResetRelease (p : Nat) (s : State) : Host.Outcome State Fault Refusal :=
  runPort (s.hasEngine p) (epResetReleaseEff p) s

/-- EP_READY has not risen within 200 µs of the release: the port is declared failed (R396, R98). -/
def engineResetTimeoutEff (p : Nat) (s : State) : State :=
  let e := s.port p
  if (e.inL1 ∧ e.resetN) ∨ e.restoring then s.failPort p else s

/-- ENGINE_RESET_TIMEOUT (R396). -/
def execEngineResetTimeout (p : Nat) (s : State) : Host.Outcome State Fault Refusal :=
  runPort (s.hasEngine p) (engineResetTimeoutEff p) s

/-- The task watchdog of the task a port holds expires, no earlier than four times its declared duration after its
latest issue (R57, R391). -/
def taskWatchdogExpiryEff (p : Nat) (s : State) : State :=
  if ((s.port p).held.map s.overdue).getD false then
    (((s.bump K.taskWatchdogExpiries).raise A.taskWatchdog).engineFault p).modPort p fun e => { e with expired := true }
  else s

/-- TASK_WATCHDOG_EXPIRY (R391). -/
def execTaskWatchdogExpiry (p : Nat) (s : State) : Host.Outcome State Fault Refusal :=
  runPort (s.hasEngine p) (taskWatchdogExpiryEff p) s

/-- The watchdog of a data task handed onto the data-task path expires, no earlier than four times its declared duration
after the hand-over (R57, R393). -/
def dataTaskWatchdogExpiryEff (n : Nat) (s : State) : State :=
  let q := s.slot n
  if q.state = .issued ∧ q.cls = 0xC ∧ s.overdue n ∧ !s.mat.aborts.contains n then
    ((s.bump K.taskWatchdogExpiries).raise A.taskWatchdog).startL0 q.ctx 0x05
  else s

/-- DATA_TASK_WATCHDOG_EXPIRY (R393). -/
def execDataTaskWatchdogExpiry (n : Nat) (s : State) : Host.Outcome State Fault Refusal :=
  runCore (dataTaskWatchdogExpiryEff n) s

/-- A task listed for DISPATCH_PROGRESS_US while its partition maps no working port of its class is starved (R392). -/
def noEngineEff (n : Nat) (s : State) : State :=
  let q := s.slot n
  let mapped := (List.range 64).any fun e => match s.mapPort q.part q.cls e with
    | some p => s.portWorks p
    | none => false
  if (s.mat.ready.any fun e => e.slot == n && !e.data) ∧ !mapped then s.startL0 q.ctx 0x06 else s

/-- NO_ENGINE (R392). -/
def execNoEngine (n : Nat) (s : State) : Host.Outcome State Fault Refusal := runCore (noEngineEff n) s

end Sys2Proof.Machine
end

