-- ==== Sys2Proof/Machine/Preempt.lean ====
section
/-! DEFINITION. Pre-emption: claims, suspensions, yields, spills and switches (R90 to R92, R202 to R215). -/
namespace Sys2Proof.Machine

/-- A port whose task can be pre-empted: it works, holds a Tin task of a class with a scratchpad, and no pre-emption or
replay is under way (R197, R203, R408). -/
def State.preemptible (s : State) (q : Nat) : Bool :=
  let e := s.port q
  s.portWorks q && !e.preempt && !e.replaying && !e.inL1 && e.bound.isNone
  && (match e.held with
    | some n => (s.slot n).tin && decide (s.scratch (s.slot n).cls ≠ 0)
    | none => false)

/-- A port that can offer a claimant its victim: nothing more is issued to a port whose stop has been asked for
(R30, R203). -/
def State.offersVictim (s : State) (q : Nat) : Bool := s.preemptible q && !s.portStopping q

/-- The victim for the claimant of a port: the task of the port itself, or with balancing the one of earliest ISSUE_TIME
among its equivalents too, the lower port on a tie (R203). -/
def State.victimPort (s : State) (p : Nat) : Option Nat :=
  let ports := (p :: if s.balanced p then s.equivalents p else []).filter s.offersVictim
  let age (q : Nat) : Nat :=
    (BitVec.ofNat 32 s.clk.abs - (s.slot ((s.port q).held.getD 0)).issueTime).toNat
  argMin2 (fun q => 2 ^ 32 - age q) id ports

/-- PREEMPT_REQ is raised on a port for the task it holds (R90, R202). -/
def State.raisePreempt (s : State) (q : Nat) (claimant : Option Nat) : State :=
  let n := (s.port q).held.getD 0
  let s := s.modPort q fun e => { e with
    preempt := true, preemptTag := e.issueTag, preemptSusp := claimant.isNone, lateCounted := false
    bound := claimant, victim := n }
  (s.bump K.preemptsRequested).brassTask n q 0x4 (match claimant with
    | some c => c
    | none => 2 ^ 31)

/-- A pre-emption is requested where a buffer is free and the incoming need fits the victim's class; otherwise it is
counted and not requested, and the claimant is not examined again before a buffer frees (R204). -/
def State.requestPreempt (s : State) (q need : Nat) (claimant : Option Nat) : State :=
  let n := (s.port q).held.getD 0
  let refuse (e : ReadyEntry) : ReadyEntry := if claimant = some e.slot then { e with refused := true } else e
  let refused := { s with mat := { s.mat with ready := s.mat.ready.map refuse } }
  let refused := (refused.bump K.preemptNoBuffer).brassTask n q 0x5 (claimant.getD 0)
  if need > s.scratch (s.slot n).cls then refused
  else
    match s.takeBuffer n with
    | none => refused
    | some s => s.raisePreempt q claimant

/-- The claimant of a port: its oldest listed Steel task (R203). -/
def State.claimant (s : State) (p : Nat) : Option ReadyEntry := argMin2 (·.at_) (·.slot) (s.portList p false)

/-- A task is bound to some port (R202). -/
def State.isBound (s : State) (n : Nat) : Bool := s.disp.ports.any fun e => e.2.bound == some n

/-- A claimant that has waited PREEMPT_WAIT_HC pre-empts its victim (R202, R203, R204). -/
def preemptRequestEff (p : Nat) (s : State) : State :=
  match s.claimant p with
  | none => s
  | some c =>
    if !bit (s.par K.preemptEnable) (s.slot c.slot).part ∨ s.isBound c.slot ∨ c.refused
        ∨ s.clk.abs - c.at_ < s.par K.preemptWaitHc then s
    else
      match s.victimPort p with
      | none => s
      | some q => s.requestPreempt q (s.incomingNeed c.slot) (some c.slot)

/-- PREEMPT_REQUEST (R202). -/
def execPreemptRequest (p : Nat) (s : State) : Host.Outcome State Fault Refusal :=
  runPort (s.hasEngine p) (preemptRequestEff p) s

/-- A Tin flow is suspended: every task of it that an engine runs is pre-empted with an incoming need of zero; a task
that is refused a buffer runs to completion (R117, R202, R204). -/
def State.preemptFlow (s : State) (f : Nat) : State :=
  let ofFlow (s : State) (q : Nat) : Bool :=
    match (s.port q).held with
    | some n => let r := s.slotReq n
      Req.flowed r && Req.flowId r == f && bit (s.par K.preemptEnable) (s.slot n).part
    | none => false
  s.each (List.range s.build.enginePorts) fun s q =>
    if ofFlow s q && s.preemptible q then s.requestPreempt q 0 none else s

/-- A DISCARD for a park index; it names no range (R210, R211). -/
def State.discardDesc (s : State) (n park : Nat) : SysDesc :=
  let q := s.slot n
  { op := 3, slot := n, park := park, ctx := q.ctx, gen := q.gen, task := BitVec.ofNat 32 (s.taskId n), home := q.home }

/-- The lowest park index free on a port (R207). -/
def State.freePark (s : State) (p : Nat) : Nat :=
  ((List.range 4).find? fun k => !(s.port p).parkedTasks.any fun x => x.idx == k).getD 0

/-- Step 1 of a spill plan: with all four indices in use, the task parked longest is spilled whole and leaves the map
(R207, R212). -/
def State.evictLongest (s : State) (p : Nat) : State × Nat × List SysDesc :=
  if (s.port p).parkedTasks.length < 4 then (s, 0, [])
  else
    match s.longestParked p slotCount with
    | [] => (s, 0, [])
    | m :: _ =>
      let rec_ := s.spillRec (s.slot m).spillRef
      let (s, got, d) := s.spillFrom p m rec_.resident
      (s, got, [d, s.discardDesc m rec_.park])

/-- The victim is parked with its live state resident (R207, R209). -/
def State.parkVictim (s : State) (p n live : Nat) : State :=
  let k := s.freePark p
  let s := s.modSpill (s.slot n).spillRef fun x => { x with
    live := live, resident := live, segs := [], port := p, park := k, pinned := decide (live > 0) }
  s.modPort p fun e => { e with parkedTasks := e.parkedTasks ++ [Parked.mk k n live s.clk.abs] }

/-- The spill plan of an accepted yield (R207, R212), and the switch it starts (R214). -/
def State.planYield (s : State) (p n live : Nat) (incoming : Option Nat) (inAt : Nat) : State :=
  let before := s.disp.spill
  let (s, b1, d1) := s.evictLongest p
  let s := s.parkVictim p n live
  let x := s.shortfall p ((incoming.map s.incomingNeed).getD 0)
  let (s, b2, d2) := s.spillFrom p n x
  let (s, b3, d3) := State.spillOthers p (s.longestParked p n) (x - b2) s
  s.startSwitch p before
    { spills := d1 ++ [d2] ++ d3, incoming := incoming, bytes := b1 + b2 + b3, victim := some n, inAt := inAt }

/-- What every accepted yield counts and charges (R192, R218). -/
def State.countYield (s : State) (p n live : Nat) : State :=
  ((s.chargeEngine n).bump K.preemptsYielded).brassTask n p 0x6 (live / 64)

/-- A yield of a task whose context is being torn down: no spill plan, one DISCARD with PARK 7, its buffer freed
(R215). -/
def State.yieldTorn (s : State) (p n live : Nat) : State :=
  let s := s.countYield p n live
  let s := (s.modPort p fun e => { e.lower with held := none }).modSlot n fun q => { q with
    state := .yielded, status := .preempted }
  ((s.putDescriptor p (s.discardDesc n 7).word).bump K.discards).freeBuffer n

/-- An accepted yield (R90, R92, R192, R207, R214): the victim is YIELDED and listed again for its resume, unless its
flow is suspended (R196); the claimant still bound to the port comes in at the end of the switch, unless the port's
stop has been asked for: then nothing more is issued to it, and the claimant stays listed (R30). -/
def State.yieldAccepted (s : State) (p n live : Nat) : State :=
  let s := s.countYield p n live
  let claimant := match (s.port p).bound with
    | some c => if !s.portStopping p && s.mat.ready.any fun e => e.slot == c then some c else none
    | none => none
  let inAt := s.readyAt (claimant.getD 0)
  let s := s.modPort p fun e => { e.lower with held := none, bound := none }
  let s := s.modSlot n fun q => { q with state := .yielded, status := .preempted, resume := true }
  let s := s.each claimant.toList fun s c => s.unlist c
  let s := s.planYield p n live claimant inAt
  if s.flowSuspended n then s else s.enterReady n

/-- A yield record of an engine (R90, R91, R207, R502). -/
def yieldRecordEff (p : Nat) (r : BitVec 64) (s : State) : State :=
  let e := s.port p
  if e.expired then s.bump K.completionsLateDropped
  else if e.failed ∨ !e.resetN then s
  else
    match e.held with
    | none => s.raise A.matchProtocol
    | some n =>
      let live := Yield.live r
      if !e.preempt ∨ e.preemptTag ≠ e.issueTag ∨ live % 64 ≠ 0 ∨ live > s.scratch (Cfg.cls (s.portConfig p)) then
        s.engineFault p
      else if s.tearing (s.slot n).ctx then (s.yieldTorn p n live).drainStop p
      else (s.yieldAccepted p n live).drainStop p

/-- YIELD_RECORD (R207). -/
def execYieldRecord (p : Nat) (r : BitVec 64) (s : State) : Host.Outcome State Fault Refusal :=
  runPort (s.hasEngine p) (yieldRecordEff p r) s

/-- An engine does not answer a pre-emption request in time: counted once for the request (R92). -/
def yieldBoundExpiryEff (p : Nat) (s : State) : State :=
  let e := s.port p
  if e.preempt ∧ e.held.isSome ∧ !e.lateCounted then
    (s.bump K.yieldsLate).modPort p fun e => { e with lateCounted := true }
  else s

/-- YIELD_BOUND_EXPIRY (R92). -/
def execYieldBoundExpiry (p : Nat) (s : State) : Host.Outcome State Fault Refusal :=
  runPort (s.hasEngine p) (yieldBoundExpiryEff p) s

/-- A SPILL ends, its completion record and its last write accepted, and the switch goes on (R211, R212, R214). -/
def spillEndEff (p : Nat) (s : State) : State :=
  match (s.port p).sw with
  | none => s
  | some w =>
    if !w.spilling ∨ (((w.spills.head?).map fun d => s.writesOf d.slot).getD 0) ≠ 0 then s
    else
      let s := s.modPort p fun e => { e with sw := some { w with spilling := false, spills := w.spills.drop 1 } }
      ((State.writeSpills p w.spills.length s).spillsDone p).drainStop p

/-- SPILL_END (R211). -/
def execSpillEnd (p : Nat) (s : State) : Host.Outcome State Fault Refusal :=
  runPort (s.hasEngine p) (spillEndEff p) s

/-- The incoming task of a switch may still be issued: its context is not being torn down, and it is not one to be
resumed whose flow has been suspended (R196, R215). -/
def State.comesIn (s : State) (w : Switch) : Bool :=
  match w.incoming with
  | some n => !s.tearing (s.slot n).ctx && !s.resumeHeld n
  | none => false

/-- A RESTORE is written at its hub cycle of the switch (R212, R214). -/
def restoreIssueEff (p : Nat) (s : State) : State :=
  match (s.port p).sw with
  | none => s
  | some w =>
    match w.restores with
    | [] => s
    | d :: rest =>
      if !w.spills.isEmpty ∨ w.spilling ∨ !s.comesIn w then s
      else (s.putDescriptor p d.word).modPort p fun e => { e with sw := some { w with restores := rest } }

/-- RESTORE_ISSUE (R214). -/
def execRestoreIssue (p : Nat) (s : State) : Host.Outcome State Fault Refusal :=
  runPort (s.hasEngine p) (restoreIssueEff p) s

/-- The incoming task of a switch is issued: a claimant is the Dispatcher's item of that cycle (R205); the switch is
charged to its share group (R192). -/
def State.issueIncoming (s : State) (p n : Nat) (w : Switch) : State :=
  let s := match w.victim with
    | some v => (s.countIssue (p / 16) n).brassTask n p 0x3 v
    | none => s
  let t := w.time + w.excess
  let s := (s.brassTask n p 0x8 w.time).account K.shareSwitchHc (s.slot n).share t
  let s := s.modPort p fun e => { e with sw := none }
  (s.unpark p n).issueTask p n

/-- The incoming descriptor of a switch is written at t_switch plus any excess (R214); an incoming task whose context
is being torn down is not issued, and the switch is over; one to be resumed whose flow has been suspended stands in
its Ready List again (R196, R215; log 85). -/
def switchIncomingIssueEff (p : Nat) (s : State) : State :=
  match (s.port p).sw with
  | none => s
  | some w =>
    match w.incoming with
    | none => s
    | some n =>
      if !w.spills.isEmpty ∨ w.spilling then s
      else if s.tearing (s.slot n).ctx then (s.modPort p fun e => { e with sw := none }).drainStop p
      else if s.resumeHeld n then ((s.dropIncoming p).spillsDone p).drainStop p
      else if !w.restores.isEmpty then s
      else s.issueIncoming p n w

/-- SWITCH_INCOMING_ISSUE (R214). -/
def execSwitchIncomingIssue (p : Nat) (s : State) : Host.Outcome State Fault Refusal :=
  runPort (s.hasEngine p) (switchIncomingIssueEff p) s

end Sys2Proof.Machine
end

