-- ==== Sys2Proof/Machine/SignalUnit.lean ====
section
/-! DEFINITION. The Signal Unit: signal objects, hardware barriers, waits and posts, the alignment barrier and the
held-signal buffer (R160 to R187). -/
namespace Sys2Proof.Machine

/-- A signal object is live (R161). -/
def State.objLive (s : State) (o : Nat) : Bool := (s.obj o).open_ && (s.obj o).gen == (s.ctx (s.obj o).ctx).gen

/-- A barrier is live (R161). -/
def State.barrierLive (s : State) (b : Nat) : Bool :=
  (s.barrier b).open_ && (s.barrier b).gen == (s.ctx (s.barrier b).ctx).gen

/-- A held task resolves with a status: it leaves HELD and enters READY, to resolve without being issued (R173). -/
def State.resolve (s : State) (n : Nat) (st : Status) (out0 : BitVec 64 := 0) : State :=
  s.modSlot n fun q => { q with state := .ready, resolved := true, parked := false, status := st, out0 := out0 }

/-- Parked waits of an object are served from the head while COUNT covers them; fuel is the length of the list (R174).
-/
def State.serveWaits (o : Nat) : Nat → State → State
  | 0, s => s
  | f + 1, s =>
    match (s.obj o).waiters with
    | [] => s
    | (n, c) :: rest =>
      if c ≤ (s.obj o).count.toNat then
        let take (x : SigObj) : SigObj := { x with count := x.count - BitVec.ofNat 32 c, waiters := rest }
        State.serveWaits o f ((s.modObj o take).resolve n .ok)
      else s

/-- The list of an object is served after its COUNT rose (R174). -/
def State.serve (s : State) (o : Nat) : State := State.serveWaits o (s.obj o).waiters.length s

/-- A SIGNAL of an amount on a live object (R169). -/
def State.applySignal (s : State) (o amount : Nat) : State :=
  let x := s.obj o
  if x.binary then
    if x.count = 0 then ((s.modObj o fun x => { x with count := 1 }).bump K.signalsApplied).serve o
    else (s.modObj o fun x => { x with overrun := Nat.min 255 (x.overrun + 1) }).bump K.signalsCoalesced
  else if x.count.toNat + amount ≤ 0xFFFFFFFF then
    ((s.modObj o fun x => { x with count := x.count + BitVec.ofNat 32 amount }).bump K.signalsApplied).serve o
  else
    (((s.modObj o fun x => { x with count := 0xFFFFFFFF, sat := true }).bump K.signalsSaturated).raise
      A.signalSaturated).serve o

/-- An arrival at a barrier; the last one of a phase releases every parked arrival in list order (R178). -/
def State.arriveAt (s : State) (b : Nat) : State :=
  let x := s.barrier b
  if x.arrived + 1 < x.parties then s.modBarrier b fun x => { x with arrived := x.arrived + 1 }
  else
    let s := s.modBarrier b fun x => { x with arrived := 0, phase := x.phase + 1, waiters := [] }
    (s.each x.waiters fun s n => s.resolve n .ok).bump K.barrierPhases

/-- A command is dropped at a closed object or barrier; a malformed one raises SIGNAL_PROTOCOL too (R170). -/
def State.dropCommand (s : State) (protocol : Bool) : State :=
  let s := s.bump K.signalsDroppedClosed
  if protocol then s.raise A.signalProtocol else s

/-- The stamp of a command lies later than the current tick (R181). -/
def State.stampLater (s : State) (c : BitVec 64) : Bool := serialLt 16 (s.tick.number.toNat % 2 ^ 16) (Sig.tick c)

/-- A command must be held: a SIGNAL for an aligned object whose stamp lies later (R181). -/
def State.mustHold (s : State) (c : BitVec 64) : Bool :=
  !Sig.bad c && decide (Sig.op c ≠ 1) && s.objLive (Sig.number c) && (s.obj (Sig.number c)).aligned && s.stampLater c

/-- A command that must be held finds the held-signal buffer full: its source waits with it (R181). -/
def State.mustWait (s : State) (c : BitVec 64) : Bool := s.mustHold c && decide (s.sig.held.length ≥ 4096)

/-- A command reaches its object or barrier on this chip, or the held-signal buffer (R169, R170, R178, R181). -/
def State.applyCommand (s : State) (c : SigCmd) : State :=
  let n := Sig.number c.cmd
  if Sig.bad c.cmd then s.dropCommand true
  else if Sig.op c.cmd = 1 then if s.barrierLive n then s.arriveAt n else s.dropCommand false
  else if !s.objLive n then s.dropCommand false
  else if s.mustHold c.cmd then { s with sig := { s.sig with held := s.sig.held ++ [c] } }
  else s.applySignal n (Sig.amount c.cmd)

/-- The path on which a source's commands travel one behind the other (R164). -/
def SigSource.path : SigSource → SigSource
  | .engine p _ _ => .engine p 0 0
  | x => x

/-- A source waits with an earlier command for room in the held-signal buffer (R181). -/
def State.sourceWaits (s : State) (src : SigSource) : Bool := s.sig.waiting.any fun w => w.src.path == src.path

/-- The task whose SIG_POST a command is resolves (R176). -/
def State.posted (s : State) (src : SigSource) : State :=
  match src with
  | .task n => s.resolve n .ok
  | _ => s

/-- A command of a source on this chip goes to its object, or leaves toward its CHIP; it waits on its path behind an
earlier command of its source that waits, or while the held-signal buffer that it must enter is full (R165, R168,
R170, R181). -/
def State.localCommand (s : State) (c : SigCmd) : State :=
  let stale := match c.src with
    | .engine _ ctx gen => decide (gen ≠ (s.ctx ctx).gen)
    | _ => false
  let away := decide (Sig.chip c.cmd ≠ s.chipId)
  if s.sourceWaits c.src || (!stale && !away && s.mustWait c.cmd) then
    { s with sig := { s.sig with waiting := s.sig.waiting ++ [c] } }
  else if stale then s.bump K.signalsStaleDropped
  else if Sig.bad c.cmd then s.dropCommand true
  else if away then
    s.sendRecord (Sig.chip c.cmd) (if Sig.op c.cmd = 1 then 3 else 2) Fam.signal [c.cmd.setWidth 128] .nobody
  else (s.applyCommand c).posted c.src

/-- A command of the host DMA port is an external input: logged in RECORD once the log has room, and taken from the
log in REPLAY (R381, R382, R386). -/
def State.hostCommand (s : State) (c : SigCmd) : State :=
  if s.replaying then s
  else (s.logInput s.nextTick L.hostSignal 0 0 (at' c.cmd.toNat 312 64) []).localCommand c

/-- A command stamped with the current tick by its source (R167). -/
def State.stamped (s : State) (c : BitVec 64) : BitVec 64 := setBits c 0 16 (s.tick.number.toNat % 2 ^ 16)

/-- The source of a command as its port stamps it (R86, R164). -/
def State.sourceOf (s : State) (src : SignalSource) : Option SigSource :=
  match src with
  | .engine p => (s.port p).held.map fun n => .engine p (s.slot n).ctx (s.slot n).gen
  | .hostDma => some .hostDma
  | .queue q => some (.queue q)
  | .link p => some (.link p)

/-- Whether a command handed over is the one a source is named for, its stamp apart. -/
def SigCmd.isFrom (c : SigCmd) (src : SignalSource) (cmd : BitVec 64) : Bool :=
  (c.cmd >>> 16 == cmd >>> 16) && match c.src, src with
    | .engine p _ _, .engine q => p == q
    | .hostDma, .hostDma => true
    | .queue p, .queue q => p == q
    | _, _ => false

/-- Every write that a command is ordered behind has been accepted (R165); writes to this chip's memory are accepted
as they arrive (R303). -/
def State.writesBefore (s : State) (c : SigCmd) : Bool :=
  match c.src with
  | .engine p _ _ => !(s.port p).sent.any fun w => c.behind.contains w.1
  | _ => true

/-- The writes that a command of a source handed over now is ordered behind; an ARRIVE is ordered behind none (R164 to
R166). -/
def State.behindOf (s : State) (src : SigSource) (cmd : BitVec 64) : List Nat :=
  match src with
  | .engine p _ _ => if Sig.op cmd = 1 then [] else (s.port p).sent.map (·.1)
  | _ => []

/-- A command as its source hands it over: stamped, and behind the writes before it (R164 to R167). -/
def State.handed (s : State) (src : SigSource) (cmd : BitVec 64) : SigCmd :=
  { cmd := s.stamped cmd, src := src, behind := s.behindOf src cmd }

/-- A command of the host DMA port finds too little room in the log, and is held until there is more (R382). -/
def State.logHolds (s : State) (c : SigCmd) : Bool := c.src == .hostDma && !s.logRoom

/-- A command of a local source takes effect: one handed over earlier once the writes before it have been accepted, or
one handed over now, which waits for them too (R165, R167), as it does for room in the log (R382). -/
def State.fromSource (s : State) (src : SignalSource) (cmd : BitVec 64) : State :=
  let go (s : State) (c : SigCmd) : State := if c.src = .hostDma then s.hostCommand c else s.localCommand c
  match s.sig.inbound.find? fun c => c.isFrom src cmd with
  | some c =>
    if s.logHolds c then s.logWaits
    else if !s.writesBefore c then s
    else go { s with sig := { s.sig with inbound := dropFirst (· == c) s.sig.inbound } } c
  | none =>
    match s.sourceOf src with
    | none => s
    | some x =>
      let c := s.handed x cmd
      let hold (s : State) : State := { s with sig := { s.sig with inbound := s.sig.inbound ++ [c] } }
      if s.logHolds c then (hold s).logWaits
      else if s.writesBefore c then go s c
      else hold s

/-- A signal record of a port is received: its command reaches the Signal Unit, or stays on its virtual channel while
the held-signal buffer it must enter is full; one for another chip is not forwarded (R170, R181, R340). -/
def State.signalRecord (p : Nat) (d : Delivered) (s : State) : Option Delivered × State :=
  let cmd := (d.slots.headD 0).setWidth 64
  if Sig.chip cmd ≠ s.chipId then (none, s.dropCommand true)
  else if s.mustWait cmd then (some d, s)
  else (none, s.applyCommand { cmd := cmd, src := .link p })

/-- A command received over a link, in its turn behind every earlier record of its stream: SIGNAL on VC 2, ARRIVE on
VC 3 (R165, R170, R339). -/
def State.fromLink (s : State) (p : Nat) (cmd : BitVec 64) : State :=
  let vc := if Sig.op cmd = 1 then 3 else 2
  s.serveRecord { port := some p, src := (s.lport p).partner, vc := vc, family := Fam.signal, slots := [cmd.setWidth 128] }
    (State.signalRecord p)

/-- A SIGNAL or ARRIVE command enters the Signal Unit (R164). -/
def signalEff (src : SignalSource) (cmd : BitVec 64) (s : State) : State :=
  match src with
  | .link p => s.fromLink p cmd
  | _ => s.fromSource src cmd

/-- SIGNAL (R169). -/
def execSignal (src : SignalSource) (cmd : BitVec 64) (s : State) : Host.Outcome State Fault Refusal :=
  runCore (signalEff src cmd) s

/-- ARRIVE (R178). -/
def execArrive (src : SignalSource) (cmd : BitVec 64) (s : State) : Host.Outcome State Fault Refusal :=
  runCore (signalEff src cmd) s

/-- Sources that wait go on, each with its commands in order: those on this chip, then the records held back (R181,
R340). -/
def State.resumeSources (s : State) : State :=
  let waits := s.sig.waiting
  let s := State.each { s with sig := { s.sig with waiting := [] } } waits State.localCommand
  s.each (s.links.inbox.filter fun d => d.held && d.family == Fam.signal) fun s d =>
    s.serveDelivered d (State.signalRecord (d.port.getD 0))

/-- Commands whose stamp is no longer later are applied in arrival order, and sources that waited go on (R181). -/
def heldSignalApplyEff (s : State) : State :=
  let due := s.sig.held.filter fun c => !s.stampLater c.cmd
  let s := { s with sig := { s.sig with held := s.sig.held.filter fun c => s.stampLater c.cmd } }
  (s.each due State.applyCommand).resumeSources

/-- HELD_SIGNAL_APPLY (R181). -/
def execHeldSignalApply (s : State) : Host.Outcome State Fault Refusal := runCore heldSignalApplyEff s

/-- Fields of SIGNAL_OPEN (R162). -/
def Open.initial (v : BitVec 128) : BitVec 32 := BitVec.ofNat 32 (bits v 96 32)
def Open.alignCount (v : BitVec 128) : BitVec 32 := BitVec.ofNat 32 (bits v 64 32)
def Open.period (v : BitVec 128) : Nat := bits v 56 8
def Open.binary (v : BitVec 128) : Bool := bitOf v 55
def Open.ctx (v : BitVec 128) : Nat := bits v 43 12
def Open.parties (v : BitVec 128) : Nat := bits v 27 16

/-- Entries of the aligned table in use (R187). -/
def State.alignedInUse (s : State) : Nat := s.sig.align.length

/-- SIGNAL_OPEN of a selection is refused (R162). DESIGN CHOICE (log 99): a barrier's open is refused for any bit set
outside CONTEXT and PARTIES, the reserved [26:0] among them; R17 by itself would ignore those. -/
def State.openRefused (s : State) (bar : Bool) (n : Nat) (v : BitVec 128) : Bool :=
  (if bar then s.barrierLive n else s.objLive n)
  || !(s.ctx (Open.ctx v)).job
  || (if bar then
      Open.parties v == 0 || decide (Open.initial v ≠ 0) || decide (Open.alignCount v ≠ 0)
        || decide (Open.period v ≠ 0) || Open.binary v || decide (bits v 0 27 ≠ 0)
    else (Open.binary v && decide ((Open.initial v).toNat > 1))
      || (decide (Open.period v > 0) && decide (s.alignedInUse ≥ 65536)))

/-- The aligned entry of an object is freed (R162, R182). -/
def State.freeAlign (s : State) (o : Nat) : State :=
  if (s.obj o).aligned then
    (s.modAlign (s.obj o).alignIndex fun _ => {}).modObj o fun x => { x with aligned := false, alignIndex := 0 }
  else s

/-- The entry of the aligned table that an open takes. DESIGN CHOICE (log 100): the lowest free one; R162 does not
say. -/
def State.nextAlign (s : State) : Nat := s.sig.align.foldl (fun k e => if e.1 = k then k + 1 else k) 0

/-- SIGNAL_OPEN opens the selection for its context (R162). DESIGN CHOICE (log 101): ARRIVED and PHASE of a barrier
start at 0; R162's list of set values does not name them. -/
def State.openSignal (s : State) (bar : Bool) (n : Nat) (v : BitVec 128) : State :=
  let c := Open.ctx v
  let g := (s.ctx c).gen
  if bar then s.modBarrier n fun _ => { parties := Open.parties v, ctx := c, gen := g, open_ := true }
  else
    let s := s.freeAlign n
    let s := s.modObj n fun _ => { count := Open.initial v, ctx := c, gen := g, binary := Open.binary v, open_ := true }
    if Open.period v = 0 then s
    else
      let k := s.nextAlign
      (s.modAlign k fun _ => { alignCount := Open.alignCount v, period := Open.period v, object := n }).modObj n fun x =>
        { x with aligned := true, alignIndex := k }

/-- SIGNAL_CLOSE is refused while waits are parked (R162). -/
def State.closeRefused (s : State) (bar : Bool) (n : Nat) : Bool :=
  if bar then !(s.barrier n).waiters.isEmpty else !(s.obj n).waiters.isEmpty

/-- SIGNAL_CLOSE clears OPEN and frees the aligned entry (R162). -/
def State.closeSignal (s : State) (bar : Bool) (n : Nat) : State :=
  if bar then s.modBarrier n fun x => { x with open_ := false }
  else (s.freeAlign n).modObj n fun x => { x with open_ := false }

/-- A signal object's record (R160). -/
def SigObj.word (x : SigObj) : Nat :=
  at' x.count.toNat 96 32 + at' ((x.waiters.head?.map (·.1)).getD 0) 77 19
  + at' ((x.waiters.getLast?.map (·.1)).getD 0) 58 19 + at' x.ctx 46 12 + at' x.gen.toNat 30 16 + at' x.overrun 22 8
  + at' x.alignIndex 6 16 + flag x.aligned 5 + flag x.binary 4 + flag x.sat 3 + flag (!x.waiters.isEmpty) 2
  + flag x.open_ 1

/-- A barrier's record (R177). -/
def Barrier.word (x : Barrier) : Nat :=
  at' x.parties 112 16 + at' x.arrived 96 16 + at' x.phase.toNat 80 16 + at' (x.waiters.head?.getD 0) 61 19
  + at' (x.waiters.getLast?.getD 0) 42 19 + at' x.ctx 30 12 + at' x.gen.toNat 14 16 + flag (!x.waiters.isEmpty) 13
  + flag x.open_ 12

/-- An aligned entry (R179). -/
def AlignEntry.word (e : AlignEntry) : Nat :=
  at' e.alignCount.toNat 96 32 + at' e.lastDrift.toNat 64 32 + at' e.lastDriftTick.toNat 32 32 + at' e.period 24 8
  + at' e.object 0 18

/-- A task held only for the Signal Unit or the Routing Engine, which examines it now: HELD, not parked, no hold of R70
left (R172, R276). -/
def State.examined (s : State) (n op : Nat) : Bool :=
  let q := s.slot n
  q.state == .held && q.cls == 0xC && s.slotOp n == op && !q.parked && !s.holds n && !s.tearing q.ctx

/-- A SIG_WAIT is checked against its object: it resolves, or parks at the tail (R172, R174). -/
def State.checkWait (s : State) (n o c : Nat) : State :=
  let x := s.obj o
  if !x.open_ ∨ c = 0 ∨ (x.binary ∧ c ≠ 1) then (s.raise A.signalProtocol).resolve n .cancelled
  else if !s.objLive o then s.resolve n .abandoned
  else if x.waiters.isEmpty ∧ c ≤ x.count.toNat then
    ((s.modObj o fun x => { x with count := x.count - BitVec.ofNat 32 c }).bump K.waitsImmediate).resolve n .ok
  else
    ((s.modObj o fun x => { x with waiters := x.waiters ++ [(n, c)] }).bump K.waitsParked).modSlot n fun q =>
      { q with parked := true }

/-- A held SIG_WAIT is checked (R172). -/
def sigWaitEff (n : Nat) (s : State) : State :=
  if s.examined n Op.sigWait then
    let arg := Tpl.arg (s.slotTpl n)
    (s.modSlot n fun q => { q with op0 := out64 arg }).checkWait n (fld arg 30 18) (fld arg 0 30)
  else s

/-- SIG_WAIT (R172). -/
def execSigWait (n : Nat) (s : State) : Host.Outcome State Fault Refusal := runCore (sigWaitEff n) s

/-- A BARRIER_ARRIVE is checked against its barrier, and parks as an arrival (R172, R178). -/
def State.checkArrive (s : State) (n b : Nat) : State :=
  if !(s.barrier b).open_ then (s.raise A.signalProtocol).resolve n .cancelled
  else if !s.barrierLive b then s.resolve n .abandoned
  else
    let s := s.modBarrier b fun x => { x with waiters := x.waiters ++ [n] }
    (s.modSlot n fun q => { q with parked := true }).arriveAt b

/-- A held BARRIER_ARRIVE is checked (R172). -/
def barrierArriveEff (n : Nat) (s : State) : State :=
  if s.examined n Op.barrierArrive then
    let arg := Tpl.arg (s.slotTpl n)
    (s.modSlot n fun q => { q with op0 := out64 arg }).checkArrive n (fld arg 30 12)
  else s

/-- BARRIER_ARRIVE (R172). -/
def execBarrierArrive (n : Nat) (s : State) : Host.Outcome State Fault Refusal := runCore (barrierArriveEff n) s

/-- Whether a record to a chip finds a usable route at its origination (R348). -/
def State.canPlace (s : State) (dst : Nat) : Bool :=
  let e := s.routeOf dst
  dst == s.chipId || (decide (s.par K.linkMaxHops > 0) && Route.valid e
    && (s.linkUp (Route.primary e) || (Route.altValid e && s.linkUp (Route.alternate e))))

/-- A SIG_POST that is not issued applies its command in the hub cycle in which it is READY (R176). -/
def State.postHere (s : State) (n : Nat) : State :=
  let c := sigPostCommand (Tpl.arg (s.slotTpl n)) s.tick.number.toNat
  if Sig.bad c then (s.raise A.signalProtocol).resolve n .cancelled
  else s.localCommand { cmd := c, src := .task n }

/-- A SIG_POST for another chip, issued as a data task, completes once its flit is accepted by the link port, or with
CANCELLED where the flit is dropped at origination (R176). -/
def State.postAway (s : State) (n : Nat) : State :=
  let c := sigPostCommand (Tpl.arg (s.slotTpl n)) s.tick.number.toNat
  let vc := if Sig.op c = 1 then 3 else 2
  let ok := s.canPlace (Sig.chip c)
  let s := s.modSlot n fun q => { q with unaccepted := 1, status := .ok }
  let s := s.sendRecord (Sig.chip c) vc Fam.signal [c.setWidth 128] (.task n)
  if ok then s else s.dataDone n .cancelled []

/-- A SIG_POST posts (R176). -/
def sigPostEff (n : Nat) (s : State) : State :=
  let q := s.slot n
  if q.state = .ready ∧ q.cls = 0xC ∧ !q.resolved ∧ s.postsHere (s.slotTpl n) ∧ !s.tearing q.ctx
      ∧ !s.sourceWaits (.task n) then s.postHere n
  else s.onItem n Op.sigPost fun s => if (s.slot n).unaccepted = 0 then s.postAway n else s

/-- SIG_POST (R176). -/
def execSigPost (n : Nat) (s : State) : Host.Outcome State Fault Refusal := runCore (sigPostEff n) s

/-- Whether a task resolved with a status sends EMPTY on its operand edges: a wait or arrival that was abandoned or
cancelled, an EXP_COLLECT that was cancelled, an EXP_RECV that did not receive (R173, R291). -/
def resolvesEmpty (op : Nat) (st : Status) : Bool :=
  if op = Op.expRecv then st ≠ .ok else st == .abandoned || st == .cancelled

/-- A task resolved by its unit completes without issue, taking an entry of the null and skipped tasks (R173). -/
def waitResolveEff (n : Nat) (s : State) : State :=
  let q := s.slot n
  if q.state = .ready ∧ q.resolved ∧ s.nullRoom ∧ !s.tearing q.ctx then
    s.accept n q.status [q.out0] (resolvesEmpty (s.slotOp n) q.status) none false 0
  else s

/-- WAIT_RESOLVE (R173). -/
def execWaitResolve (n : Nat) (s : State) : Host.Outcome State Fault Refusal := runCore (waitResolveEff n) s

/-- One aligned entry at a boundary (R180): the drift measured from COUNT as it stood at hc 0, or in REPLAY what the log
says (R386). -/
def State.alignOne (s : State) (k : Nat) (e : AlignEntry) (old : BitVec 32) : State :=
  let o := e.object
  if e.period = 0 ∨ s.tick.number.toNat % e.period ≠ 0 ∨ old = e.alignCount then s
  else
    let d : Int := (old.toNat : Int) - e.alignCount.toNat
    let d := if d > 2 ^ 31 - 1 then 2 ^ 31 - 1 else if d < -(2 ^ 31) then -(2 ^ 31) else d
    let drift := ofSigned 32 d
    let s := s.modAlign k fun e => { e with lastDrift := BitVec.ofNat 32 drift, lastDriftTick := s.tick32 }
    let s := s.modObj o fun x => { x with count := e.alignCount }
    let s := (s.bump K.syncDriftEvents).raise A.syncDrift
    let s := s.logEvent 0x0003 U.signalUnit (at' o 0 18 + at' drift 32 32)
    s.logInput s.tick.number L.realign 0 0 (at' o 358 18 + at' e.alignCount.toNat 326 32 + at' drift 294 32) []

/-- A logged realignment: COUNT and LAST_DRIFT take the logged values (R381, R386). -/
def State.alignLogged (s : State) (e : LogEntry) : State :=
  let o := e.arg 358 18
  let drift := e.arg 294 32
  match s.sig.align.find? fun x => x.2.object == o with
  | none => s.diverge e
  | some x =>
    let s := s.modAlign x.1 fun a => { a with lastDrift := BitVec.ofNat 32 drift, lastDriftTick := s.tick32 }
    let s := s.modObj o fun x => { x with count := BitVec.ofNat 32 (e.arg 326 32) }
    let s := (s.bump K.syncDriftEvents).raise A.syncDrift
    let s := s.logEvent 0x0003 U.signalUnit (at' o 0 18 + at' drift 32 32)
    s.reproduced e

/-- The realignments due in a replay (R386). -/
def State.realigns (s : State) : List LogEntry :=
  s.replay.due.filter fun e => e.kind == L.realign && decide (e.tick ≤ s.tick.number.toNat)

/-- Phase 4 of a boundary (R180): every aligned entry is compared with its object's COUNT at hc 0, and where COUNT rose
the parked waits are served afterwards. -/
def State.alignPhase (s at0 : State) : State :=
  let s1 := if s.replaying ∧ s.replay.status ≠ 2 then s.each s.realigns State.alignLogged
    else s.each s.sig.align fun s e => s.alignOne e.1 e.2 (at0.obj e.2.object).count
  let rose := (s.sig.align.map fun e => e.2.object).filter fun o =>
    decide ((s1.obj o).count.toNat > (s.obj o).count.toNat)
  s1.each rose State.serve

/-- A parked task of a torn-down context is unlinked from the object or barrier it waits on, and its SIG_POST does not
go on (R182, R183). -/
def State.unlinkWaits (s : State) (mine : Nat → Bool) : State :=
  let objs := Sparse.mapAll s.sig.objs {} fun _ x => { x with waiters := x.waiters.filter fun w => !mine w.1 }
  let bars := Sparse.mapAll s.sig.barriers {} fun _ x => { x with waiters := x.waiters.filter fun n => !mine n }
  let ours (c : SigCmd) : Bool := match c.src with
    | .task n => mine n
    | _ => false
  { s with sig := { s.sig with objs := objs, barriers := bars, waiting := s.sig.waiting.filter fun c => !ours c } }

/-- When a context's generation is incremented, the tasks of other contexts parked on its objects and barriers resolve
with ABANDONED, in list order (R182). -/
def State.abandonWaits (s : State) (c : Nat) (gen : BitVec 16) : State :=
  let ours (ctx : Nat) (g : BitVec 16) : Bool := ctx == c && g == gen
  let lists := ((s.sig.objs.filter fun e => ours e.2.ctx e.2.gen).flatMap fun e => e.2.waiters.map (·.1))
    ++ ((s.sig.barriers.filter fun e => ours e.2.ctx e.2.gen).flatMap fun e => e.2.waiters)
  let objs := Sparse.mapAll s.sig.objs {} fun _ x => if ours x.ctx x.gen then { x with waiters := [] } else x
  let bars := Sparse.mapAll s.sig.barriers {} fun _ x => if ours x.ctx x.gen then { x with waiters := [] } else x
  let s := { s with sig := { s.sig with objs := objs, barriers := bars } }
  s.each (lists.filter fun n => (s.slot n).ctx ≠ c) fun s n => (s.resolve n .abandoned).bump K.waitsAbandoned

/-- The aligned entries of a context's objects are freed when its generation is incremented (R182). -/
def State.freeAligns (s : State) (c : Nat) (gen : BitVec 16) : State :=
  s.each ((s.sig.objs.filter fun e => e.2.ctx == c && e.2.gen == gen && e.2.aligned).map (·.1)) State.freeAlign

/-- The cleanup walk clears OPEN on every object and barrier of a torn-down context (R182). -/
def State.closeAll (s : State) (c : Nat) : State :=
  let objs := Sparse.mapAll s.sig.objs {} fun _ x => if x.ctx = c then { x with open_ := false } else x
  let bars := Sparse.mapAll s.sig.barriers {} fun _ x => if x.ctx = c then { x with open_ := false } else x
  { s with sig := { s.sig with objs := objs, barriers := bars } }

end Sys2Proof.Machine
end

