-- ==== Sys2Proof/Machine/StripeUnit.lean ====
section
/-! DEFINITION. The Memory Stripe Unit's ports: what is presented on them and what answers do, held requests, offline
periods, rebuild, failing pages, scrubbing and wiping (R300 to R331, R428). -/
namespace Sys2Proof.Machine

/-- The physical page of a port page: its own, or the spare it is retired to or is being retired to (R309, R310, R325,
R326). -/
def State.physPage (s : State) (p row : Nat) : Nat :=
  let x := s.mport p
  match x.ops.find? fun o => o.page == row && (o.phase == .restoring || o.phase == .restored) && o.spare.isSome with
  | some o => s.stripeRows + o.spare.getD 0
  | none =>
    match x.retire.find? fun e => fld e.2 62 2 == 3 && fld e.2 27 25 == row with
    | some e => s.stripeRows + fld e.2 52 10
    | none => row

/-- The block of a port page that holds a data or parity block, or the check block of its code group (R309). -/
def pageBlock (blk : Nat) (chk : Bool) : Nat := blk / 16 * 17 + (if chk then 16 else blk % 16)

/-- The port byte address of a block of a port page (R309). -/
def State.portAddr (s : State) (p row blk : Nat) (chk : Bool := false) : Nat :=
  s.physPage p row * 4352 + pageBlock blk chk * 64

/-- A request header (R300); OP as R300 encodes it. -/
def memHeader (ways addr hint tag op : Nat) : BitVec 96 :=
  BitVec.ofNat 96 (at' ways 64 32 + at' addr 24 37 + at' hint 22 2 + at' tag 12 10 + at' op 10 2)

/-- OP of a request (R300). -/
def MemOp.code : MemOp → Nat
  | .read => 0
  | .verify => 0
  | .write => 1
  | .repair => 2

/-- A request asks for a block to be read (R300). -/
def MemOp.isRead (op : MemOp) : Bool := op == .read || op == .verify

/-- A port in self-refresh, or entering or leaving it, takes no request (R503). -/
def MemPort.quiet (p : MemPort) : Bool := p.selfRefresh || p.ackRefresh

/-- The next free tag of a port (R302). -/
def MemPort.freeTag (p : MemPort) : Option Nat :=
  ((List.range 1024).map fun i => (p.nextTag + i) % 1024).find? fun t => !p.tags.any fun x => x.tag == t

/-- A block of memory, held writes apart. -/
def State.memWord (s : State) (a : Nat) : Block := BitVec.ofNat 512 (ofLe (memBytes s.stripe.mem a 64))

/-- The contents of a data block, or of a parity block: the XOR of the data blocks of its column, or what a scrub that
read other data has made of it (R314, R328). -/
def State.cellWord (s : State) (a : Nat) : Block :=
  if a < 2 ^ 44 then s.memWord a
  else
    let m := s.locate a
    (s.others m).foldl (fun w pos => w ^^^ s.memWord (s.siblingAddr m pos)) (BitVec.ofNat 512 (Sparse.get s.stripe.parity 0 a))

/-- Decodes a block and its check bytes (R311, R312). -/
def decodeBlock (data : Block) (check : BitVec 32) : Decoded :=
  rsDecode ((leBytes 64 data.toNat ++ leBytes 4 check.toNat).map (·.toNat))

/-- The check bytes of a block (R311). -/
def checkOf (data : Block) : BitVec 32 :=
  BitVec.ofNat 32 (ofLe ((rsCheck ((leBytes 64 data.toNat).map (·.toNat))).map (BitVec.ofNat 8)))

/-- The check bytes written for a block: for one written as lost, and for one that does not decode, check bytes that
fail decoding (R311, R322; logs 107 and 110). -/
def State.checkBytes (s : State) (a : Nat) : BitVec 32 :=
  let d := s.cellWord a
  if s.decodes a then checkOf d
  else if decodeBlock d (Config.failingCheck a) = .uncorrectable then Config.failingCheck a
  else checkOf d ^^^ 0x01010101

/-- A check block: the four check bytes of block i of the code group at bytes 4i to 4i + 3 (R311). -/
def State.checkWord (s : State) (head : Nat) : Block :=
  BitVec.ofNat 512 ((List.range 16).map fun i => at' (s.checkBytes (head + 64 * i)).toNat (32 * i) 32).sum

/-- The check bytes of a block in the check block of its code group (R311). -/
def checkIn (check : Block) (a : Nat) : BitVec 32 := check.extractLsb' (32 * (a / 64 % 16)) 32

/-- The beat of a WRITE: what the block is to hold (R300, R316). -/
def State.beatOf (s : State) (t : MemTag) : Option Block :=
  if t.op = .write then some (if t.chk then s.checkWord t.addr else s.cellWord t.addr) else none

/-- What stands for a block among those whose WRITE was answered ERROR (R302). -/
def MemTag.key (t : MemTag) : Nat := t.addr + (if t.chk then 1 else 0)

/-- ADDR of a request (R309, R324). -/
def State.addrOf (s : State) (p : Nat) (t : MemTag) : Nat :=
  if t.op = .repair then s.portAddr p t.addr 0
  else let m := s.locate t.addr; s.portAddr p m.row m.blk t.chk

/-- A request is presented on a memory port; none while no tag is free or the port takes none (R300, R302, R503). -/
def State.sendMem (s : State) (p : Nat) (t : MemTag) : Option State :=
  if (s.mport p).quiet || s.resets.night then none
  else
    match (s.mport p).freeTag with
    | none => none
    | some k =>
      let beat := s.beatOf t
      let t : MemTag := { t with tag := k, port := s.addrOf p t }
      let s := s.modMport p fun x => { x with tags := x.tags ++ [t], nextTag := (k + 1) % 1024 }
      let s := if t.op = .write then
          { s with stripe := { s.stripe with badWrites := s.stripe.badWrites.filter (· ≠ t.key) } }
        else s
      some (s.emit (.memRequest p (memHeader t.ways t.port t.hint k t.op.code) beat))

/-- A request keeps behind those for the same block that are outstanding, where one of the two writes it (R303). -/
def MemPort.maySend (x : MemPort) (t : MemTag) : Bool :=
  !x.tags.any fun y => y.op != .repair && y.addr == t.addr && y.chk == t.chk && (y.op == .write || t.op == .write)

/-- A READ of a check block is on its way or waits to be (R313). -/
def MemPort.checkComing (x : MemPort) (head : Nat) : Bool :=
  (x.tags ++ x.queue).any fun y => y.chk && y.op == .read && y.addr == head

/-- The check block of a block that is being read is read as well, once for a code group (R313). -/
def State.wantCheck (s : State) (p a : Nat) : State :=
  let x := s.mport p
  if x.checkComing (groupHead a) then s
  else
    let t := s.checkReq .read a
    let later := s.modMport p fun x => { x with queue := t :: x.queue }
    if x.maySend t then (s.sendMem p t).getD later else later

/-- A request is presented, with the READ of the check block that a READ needs (R300, R313). -/
def State.present (s : State) (p : Nat) (t : MemTag) : Option State :=
  (s.sendMem p t).map fun s => if t.op.isRead && !t.chk then s.wantCheck p t.addr else s

/-- The oldest request that waits for a port is presented (R300). -/
def State.presentNext (s : State) (p : Nat) : State :=
  match (s.mport p).queue with
  | [] => s
  | t :: rest =>
    if (s.mport p).maySend t then
      ((s.modMport p fun x => { x with queue := rest }).present p t).getD s
    else s

/-- Every port presents the oldest request that waits for it. -/
def State.presentAll (s : State) : State := s.each (List.range s.build.memoryPorts) State.presentNext

/-- The code of a read's status on a data channel (R501, R505). -/
def readCode (st : Status) : Nat := if st = .dataUncorrectable then 1 else if st = .dataUnavailable then 2 else 0

/-- A read is answered to its requester; a failed one carries all ones (R86, R501, R505). -/
def State.answerRead (s : State) (src : MemSource) (st : Status) (data : Block) : State :=
  let data : Block := if st = .ok then data else BitVec.allOnes 512
  match src with
  | .engine p id =>
    match (s.port p).reads.find? fun r => r.id == id with
    | none => s
    | some r =>
      -- the status is that of the task the read was stamped with, wherever that task is by now
      let s := s.each r.slot.toList fun s n => s.recordStatus n st
      let s := s.modPort p fun e => { e with reads := e.reads.filter fun r => r.id ≠ id }
      s.emit (.readData p r.tag (readCode st) data)
  | .hostDma tag => s.emit (.hostResponse tag (readCode st) data)
  | _ => s

/-- A read whose generation has become stale: its data is dropped and counted (R305), and a read tag of an engine
port, which is answered all the same, carries zeros (R501; log 121). -/
def State.dropRead (s : State) (src : MemSource) : State := (s.bump K.memStaleDropped).answerRead src .ok 0

/-- A reader that is not on a port: what it waits for is read again when it runs again (R315). -/
def MemSource.runsAgain : MemSource → Bool
  | .task _ _ => true
  | .serve _ _ => true
  | .loader => true
  | _ => false

/-- A read waits (R315). -/
def State.holdRead (s : State) (h : HeldRead) : State :=
  { s with stripe := { s.stripe with heldReads := s.stripe.heldReads ++ [h] } }

/-- A write of a block, or of its check block, is on its way: held, waiting for its port, or outstanding (R303). -/
def State.inFlight (s : State) (p a : Nat) : Bool :=
  let x := s.mport p
  let ofBlock (t : MemTag) : Bool := t.op == .write && (if t.chk then t.addr == groupHead a else t.addr == a)
  s.stripe.heldWrites.any (fun h => blockOf h.addr == a) || x.tags.any ofBlock || x.queue.any ofBlock

/-- A read is served: from a wipe-pending chunk at once, from its own port by a request, by reconstruction, or it waits
(R312, R315, R428). A READ keeps behind the writes of its block (R303). -/
def State.startRead (s : State) (h : HeldRead) : State :=
  let m := s.locate h.addr
  if h.src.runsAgain then if s.readWaits h.addr then s.holdRead h else s
  else if s.groupWaits m.group then s.holdRead h
  else if decide (h.addr < 2 ^ 44) && s.wipePending h.addr then s.answerRead h.src .ok (s.peekWord h.addr)
  else if !h.uncorr && s.usable m.group m.d m.row then
    let t : MemTag := { op := .read, addr := h.addr, src := h.src, ctx := h.ctx, gen := h.gen, hint := h.hint, ways := h.ways }
    let later := s.enqueue t
    if s.inFlight m.port h.addr then later else (s.present m.port t).getD later
  else if s.stripe.lost.contains h.addr then
    -- the block that does not decode has been counted when it was read
    (if h.uncorr then s else s.bump K.blocksUncorrectable).answerRead h.src .dataUncorrectable 0
  else if s.othersUsable m || (!h.probed && (s.others m).any fun pos => s.usable m.group pos m.row) then
    s.openRecon { addr := h.addr, src := h.src, own := h.uncorr, ctx := h.ctx, gen := h.gen, hint := h.hint, ways := h.ways }
  else s.holdRead h

/-- A read takes its number and is served. -/
def State.numberRead (s : State) (h : HeldRead) : State :=
  { s with stripe := { s.stripe with nextHeld := s.stripe.nextHeld + 1 } }.startRead { h with id := s.stripe.nextHeld }

/-- A read of a block by a requester on a port (R301, R305). -/
def State.requestRead (s : State) (src : MemSource) (addr ctx : Nat) (gen : BitVec 16) (hint ways : Nat) : State :=
  s.numberRead { addr := addr, src := src, ctx := ctx, gen := gen, hint := hint, ways := ways }

/-- A write of a block by a requester on a port: accepted here and now (R303, R316). -/
def State.requestWrite (s : State) (src : MemSource) (addr hint ways : Nat) (data : Block) : State :=
  s.acceptWrite addr (leBytes 64 data.toNat) src hint ways

/-- The data tasks whose work is done complete once none of their writes is held (R78, R242, R316). -/
def State.finishLate (s : State) : State :=
  let l := s.mat.late
  s.each l fun s e =>
    if s.slotWrites e.1 then s
    else ({ s with mat := { s.mat with late := dropFirst (· == e) s.mat.late } }).dataDone e.1 e.2.1 e.2.2

/-- Held writes are performed in order where their rows now allow it (R316). -/
def State.retryWrites (s : State) : State :=
  let go (s : State) (h : HeldWrite) : State :=
    let keep := { s with stripe := { s.stripe with heldWrites := s.stripe.heldWrites ++ [h] } }
    if s.rowHeld h.addr then keep
    else
      match s.writeFate h.addr with
      | .held => keep
      | .wait => keep
      | .put => (s.wipeFirst h.addr).performWrite h.addr h.bytes h.hint h.ways
      | .failed => s.writeSpoilt h.src
  (s.stripe.heldWrites.foldl go { s with stripe := { s.stripe with heldWrites := [] } }).finishLate

/-- Held requests are examined again after a change of a port's state, of a row or of the tags in use (R315, R316). -/
def State.retryHeld (s : State) : State :=
  let s := s.retryWrites
  s.stripe.heldReads.foldl State.startRead { s with stripe := { s.stripe with heldReads := [] } }

/-- Every other port of a port's group is ONLINE (R318, R319). -/
def State.othersOnline (s : State) (p : Nat) : Bool :=
  (s.groupPorts (p / s.groupSize)).all fun q => q == p || (s.mport q).state == .online

/-- A page's entry in a port's retire table: its index and value (R326). -/
def MemPort.retireEntry (x : MemPort) (page : Nat) : Option (Nat × Nat) :=
  x.retire.find? fun e => fld e.2 62 2 ≠ 0 && fld e.2 27 25 == page

/-- Where a page's entry stands or may be made; none while all 1,024 are in use, or are to be written by an operation
under way (R324). -/
def MemPort.retirePlace (x : MemPort) (page : Nat) : Option Nat :=
  match x.retireEntry page with
  | some e => some e.1
  | none => (List.range 1024).find? fun k =>
      !(x.retire.any fun e => e.1 == k && fld e.2 62 2 ≠ 0) && !x.ops.any fun o => o.place == k

/-- The next free spare page of a port (R324, R326). -/
def MemPort.freeSpare (x : MemPort) : Option Nat :=
  (List.range 1024).find? fun k => !(x.retire.any fun e => fld e.2 62 2 == 3 && fld e.2 52 10 == k)
    && !x.ops.any fun o => o.spare == some k

/-- A retire table entry (R326). -/
def retireWord (st spare page : Nat) : Nat := at' st 62 2 + at' spare 52 10 + at' page 27 25

/-- An operation on a page is queued: a repair, or a retirement to a spare; without an entry or a spare there is no
action and RETIRE_FULL is raised (R324). -/
def State.queuePage (s : State) (p page : Nat) (retire : Bool) : State :=
  let x := s.mport p
  match x.retirePlace page with
  | none => s.raise A.retireFull
  | some i =>
    if retire ∧ x.freeSpare.isNone then s.raise A.retireFull
    else
      let o : PageOp := { page := page, spare := if retire then x.freeSpare else none, place := i }
      s.modMport p fun x => { x with ops := x.ops ++ [o] }

/-- A persistent error is a failure of its page (R324). -/
def State.pageFailure (s : State) (p page : Nat) : State :=
  let x := s.mport p
  if x.ops.any fun o => o.page == page then s
  else
    let st := ((x.retireEntry page).map fun e => fld e.2 62 2).getD 0
    s.queuePage p page (decide (st ≥ 2) || s.par K.pprEnable ≠ 1)

/-- Positions whose blocks the work on a row reads: every member for a scrub, the others for a rebuild or a restore
(R321, R325, R328). -/
def State.rowMembers (s : State) (k : RowKind) : List Nat :=
  let all := List.range s.groupSize
  match k with
  | .scrub => all
  | .rebuild p => all.filter (· ≠ p % s.groupSize)
  | .restore p => all.filter (· ≠ p % s.groupSize)

/-- A block of a stripe row by its position and number (R308). -/
def State.rowCell (s : State) (g row pos blk : Nat) : Nat :=
  let q := row % s.groupSize
  s.cellAddr { group := g, row, d := pos, q, port := g * s.groupSize + pos, parity := g * s.groupSize + q, blk } pos

/-- Work on a row is under way. -/
def State.rowWork (s : State) (k : RowKind) (g row : Nat) : Bool :=
  s.stripe.rows.any fun w => w.kind == k && w.group == g && w.row == row

/-- Work on a row begins: the blocks of its members are read (R321, R325, R328). -/
def State.startRow (s : State) (k : RowKind) (g row : Nat) : State :=
  let id := s.stripe.nextHeld
  let members := s.rowMembers k
  let w : RowWork := { id := id, group := g, row := row, kind := k, left := 64 * members.length }
  let s := { s with stripe := { s.stripe with nextHeld := id + 1, rows := s.stripe.rows ++ [w] } }
  s.each members fun s pos => s.each (List.range 64) fun s b =>
    s.enqueue (s.blockReq .read (s.rowCell g row pos b) 1 (.row id pos))

/-- A block that cannot be reconstructed is lost (R322): a data block by its address, a parity block by its number. The
event names the group address; of a parity block, that of the first data page of its row (log 108). -/
def State.loseBlock (s : State) (g pos row blk : Nat) : State :=
  let a := s.rowCell g row pos blk
  let named := if a < 2 ^ 44 then a else s.rowCell g row (if row % s.groupSize = 0 then 1 else 0) blk
  let s := { s with stripe := { s.stripe with
    lost := insertBy (· < ·) a (s.stripe.lost.filter (· ≠ a)), weak := s.stripe.weak.filter (· ≠ a) } }
  (s.raise A.dataLost).logEvent 0x0006 U.stripe (at' named 0 43)

/-- A block's own copy is found not to decode (R302, R312). -/
def State.markWeak (s : State) (addr : Nat) : State :=
  if s.stripe.weak.contains addr then s else { s with stripe := { s.stripe with weak := insertBy (· < ·) addr s.stripe.weak } }

/-- A block's own copy is found, or made, to decode. -/
def State.unmarkWeak (s : State) (addr : Nat) : State :=
  { s with stripe := { s.stripe with weak := s.stripe.weak.filter (· ≠ addr) } }

/-- A block has been reconstructed: it decodes again, and is lost no more; a parity block is the XOR of its data
(R314, R321). -/
def State.goodBlock (s : State) (a : Nat) : State :=
  { s with stripe := { s.stripe with
    weak := s.stripe.weak.filter (· ≠ a), lost := s.stripe.lost.filter (· ≠ a), parity := Sparse.erase s.stripe.parity a } }

/-- A rebuild is done with a row: what could not be reconstructed is lost, and the page is written (R321, R322). -/
def State.rebuildRow (s : State) (p row : Nat) (bad : List Nat) : State :=
  let g := p / s.groupSize
  let pos := p % s.groupSize
  let s := s.each (List.range 64) fun s b =>
    if bad.contains b then s.loseBlock g pos row b
    else (s.goodBlock (s.rowCell g row pos b)).bump K.blocksReconstructed
  ((s.writePage g pos row).bump K.rebuildBlocks 68).modMport p fun x => { x with rebuildRow := x.rebuildRow + 1 }

/-- A restore has read its row: the page is written to its new place (R325); a block that could not be reconstructed
remains one that does not decode (log 110). -/
def State.restoreRow (s : State) (p page : Nat) (bad : List Nat) : State :=
  let g := p / s.groupSize
  let pos := p % s.groupSize
  let s := s.each (List.range 64) fun s b =>
    let a := s.rowCell g page pos b
    if bad.contains b then s.markWeak a else (s.goodBlock a).bump K.blocksReconstructed
  (s.writePage g pos page).modMport p fun x => { x with
    ops := modWhere (fun o => o.page == page) (fun o => { o with phase := .restored }) x.ops }

/-- A corrected or reconstructed block is written back and read again (R312), while its port takes requests. -/
def State.writeBack (s : State) (a : Nat) : State :=
  let s := s.unmarkWeak a
  (((s.enqueue (s.blockReq .write a 1)).enqueue (s.checkReq .read a)).enqueue (s.checkReq .write a)).enqueue
    (s.blockReq .verify a 1)

/-- The scrubber has visited every row of a group; with every group visited a period is complete (R328). -/
def State.scrubPass (s : State) (g : Nat) : State :=
  let done := uniq (s.stripe.scrubDone ++ [g])
  if (List.range s.groups).all done.contains then
    { s with stripe := { s.stripe with scrubDone := [] } }.bump K.scrubPasses
  else { s with stripe := { s.stripe with scrubDone := done } }

/-- A scrub has read its row (R312, R314, R328): a block that is its column's only one not to decode is reconstructed;
a column whose blocks all decode and whose parity does not match has it rewritten from the data. The next row's turn
comes. -/
def State.scrubbed (s : State) (w : RowWork) : State :=
  let g := w.group
  let q := w.row % s.groupSize
  let s := s.each (List.range 64) fun s b =>
    match w.bad.filter fun e => e.1 == b with
    | [e] =>
      let a := s.rowCell g w.row e.2 b
      if s.stripe.lost.contains a then s else ((s.goodBlock a).bump K.blocksReconstructed).writeBack a
    | _ => s
  let off := (List.range 64).filter fun b => !(w.bad.any fun e => e.1 == b) && Sparse.get w.acc 0 b ≠ 0
  let s := if off.isEmpty then s
    else
      let s := (s.raise A.parityMismatch).logEvent 0x0008 U.stripe (at' g 0 2 + at' w.row 8 25)
      s.each off fun s b =>
        let a := s.rowCell g w.row q b
        let s := s.goodBlock a
        -- the XOR of the data blocks as this scrub has read them
        let data := Sparse.get w.acc 0 b ^^^ Sparse.get w.par 0 b
        let s := { s with stripe := { s.stripe with parity := Sparse.set s.stripe.parity 0 a (data ^^^ (s.cellWord a).toNat) } }
        ((s.enqueue (s.blockReq .write a 1)).enqueue (s.checkReq .read a)).enqueue (s.checkReq .write a)
  let next := if w.row + 1 ≥ s.stripeRows then 0 else w.row + 1
  let s := { s with stripe := { s.stripe with scrubRow := Sparse.set s.stripe.scrubRow 0 g next } }
  if next = 0 then s.scrubPass g else s

/-- The work on a row has read every block. -/
def State.endRow (s : State) (w : RowWork) : State :=
  let s := { s with stripe := { s.stripe with rows := s.stripe.rows.filter fun x => x.id ≠ w.id } }
  let bad := uniq (w.bad.map (·.1))
  match w.kind with
  | .scrub => s.scrubbed w
  | .rebuild p => s.rebuildRow p w.row bad
  | .restore p => s.restoreRow p w.row bad

/-- A block read for the work on a row has come: its value, or none where it does not decode (R312, R314). -/
def State.rowBlock (s : State) (id pos a : Nat) (v : Option Block) : State :=
  match s.stripe.rows.find? fun w => w.id == id with
  | none => s
  | some w =>
    let b := fld a 6 6
    let w : RowWork := { w with left := w.left - 1 }
    let w : RowWork := match v with
      | some v => { w with
          acc := Sparse.set w.acc 0 b (Sparse.get w.acc 0 b ^^^ v.toNat)
          par := if pos = w.row % s.groupSize then Sparse.set w.par 0 b v.toNat else w.par }
      | none => { w with bad := w.bad ++ [(b, pos)] }
    let s := { s with stripe := { s.stripe with rows := modWhere (fun x => x.id == id) (fun _ => w) s.stripe.rows } }
    if w.left = 0 then s.endRow w else s


/-- The rebuild of a port goes on with the next row of its first marked chunk (R321): with every other member of the row
usable its blocks are reconstructed, otherwise none can be (R322). -/
def State.pumpRebuild (s : State) (p : Nat) : State :=
  let g := p / s.groupSize
  let x := s.mport p
  if x.state ≠ .rebuilding ∨ !s.rebuildTurn p ∨ s.stripe.rows.any (fun w => w.kind == .rebuild p) then s
  else
    match (s.bitmapOf g).first s.chunks with
    | none => s
    | some k =>
      if x.rebuildRow ≥ s.chunkRows k then s
      else
        let row := k * 256 + x.rebuildRow
        if (s.rowMembers (.rebuild p)).all fun pos => s.usable g pos row then s.startRow (.rebuild p) g row
        else s.rebuildRow p row (List.range 64)

/-- The operations queued on a port's pages proceed while every port of the group is ONLINE: a REPAIR is sent, a page
to be retired is held unusable, and an unusable page's row is read (R324, R325). -/
def State.pumpPages (s : State) (p : Nat) : State :=
  let go (s : State) (o : PageOp) : State :=
    let set (s : State) (ph : PagePhase) : State := s.modMport p fun x => { x with
      ops := modWhere (fun y => y.page == o.page) (fun y => { y with phase := ph }) x.ops }
    let read (s : State) : State := s.startRow (.restore p) (p / s.groupSize) o.page
    match o.phase with
    | .repairWanted =>
      if s.rowWork .scrub (p / s.groupSize) o.page then s
      else if o.spare.isSome then read (set s .restoring)
      else
        match s.sendMem p { op := .repair, addr := o.page, ways := s.waysAt (s.rowCell (p / s.groupSize) o.page
            (p % s.groupSize) 0) } with
        | some s => (set s .repairSent).bump K.pprRequests
        | none => s
    | .restoring => if s.rowWork (.restore p) (p / s.groupSize) o.page then s else read s
    | _ => s
  if s.othersOnline p ∧ (s.mport p).state = .online then s.each (s.mport p).ops go else s

/-- Page operations and rebuilds of every port proceed where they can. -/
def State.pumpAll (s : State) : State :=
  s.each (List.range s.build.memoryPorts) fun s p => (s.pumpPages p).pumpRebuild p

/-- What follows a change of the ports: held requests, waiting page operations and rebuilds are examined again. -/
def State.stripeSettle (s : State) : State := s.pumpAll.retryHeld

/-- One hub cycle of the Memory Stripe Unit: each port presents a request, and work on rows goes on. -/
def State.stripeCycle (s : State) : State := s.presentAll.pumpAll

/-- A rebuild's turn comes: where every chunk is to be rebuilt they are all marked (R320, R321). -/
def State.beginRebuild (s : State) (p : Nat) : State :=
  let g := p / s.groupSize
  let s := if (s.mport p).everyChunk then
      { s with stripe := { s.stripe with bitmap := Sparse.set s.stripe.bitmap {} g { all := true } } }
    else s
  s.modMport p fun x => { x with everyChunk := false, rebuildRow := 0 }

/-- The chunks of either of two sets. -/
def ChunkSet.union (a b : ChunkSet) : ChunkSet :=
  if b.all then
    if a.all then { all := true, except := a.except.filter b.except.contains }
    else { all := true, except := b.except.filter fun k => !a.except.contains k }
  else b.except.foldl ChunkSet.add a

/-- A port is ONLINE again: the bitmap is cleared, but for the chunks marked while other ports of the group that are
still away were away (R320, R323). -/
def State.rebuilt (s : State) (p : Nat) : State :=
  let g := p / s.groupSize
  let s := s.modMport p fun x => { x with
    state := .online, replace := false, bySoftware := false, rebuildRow := 0, missed := {} }
  let away := (s.groupPorts g).filter fun q => decide ((s.mport q).state ≠ .online)
  let map : ChunkSet := away.foldl (fun c q => ChunkSet.union c (s.mport q).missed) { all := false }
  let s := { s with stripe := { s.stripe with bitmap := Sparse.set s.stripe.bitmap {} g map } }
  s.each (away.filter fun q => (s.mport q).state == .rebuilding && s.rebuildTurn q) State.beginRebuild

/-- A port enters REBUILDING (R318, R320, R323). -/
def State.enterRebuild (s : State) (p : Nat) (every : Bool) : State :=
  let n := s.stripe.order
  let s := { s with stripe := { s.stripe with order := n + 1 } }
  let s := s.modMport p fun x => { x with
    state := .rebuilding, grant := false, rebuildAt := n, everyChunk := x.everyChunk || every, rebuildRow := 0 }
  let s := if s.rebuildTurn p then s.beginRebuild p else s
  let s := if s.rebuildTurn p ∧ ((s.bitmapOf (p / s.groupSize)).first s.chunks).isNone then s.rebuilt p else s
  s.stripeSettle

/-- Requests that wait for a given piece of work are taken off every port's queue. -/
def State.dropQueued (s : State) (gone : MemSource → Bool) : State :=
  { s with stripe := { s.stripe with ports := Sparse.mapAll s.stripe.ports {} fun _ x =>
      { x with queue := x.queue.filter fun t => !gone t.src } } }

/-- A reconstruction that a port's blocks are missing for begins again, or waits (R304, R315). -/
def State.againRecon (s : State) (id : Nat) : State :=
  match s.stripe.recons.find? fun r => r.id == id with
  | none => s
  | some r =>
    let s := { s with stripe := { s.stripe with recons := s.stripe.recons.filter fun r => r.id ≠ id } }
    let s := s.dropQueued fun x => match x with
      | .recon i _ => i == id
      | _ => false
    s.numberRead { addr := r.addr, src := r.src, uncorr := r.own, ctx := r.ctx, gen := r.gen, hint := r.hint, ways := r.ways }

/-- Work on the rows of a group ends unfinished: it begins again when its ports allow (R325, R328). -/
def State.dropRows (s : State) (g : Nat) : State :=
  let ids := (s.stripe.rows.filter fun w => w.group == g).map (·.id)
  let s := { s with stripe := { s.stripe with rows := s.stripe.rows.filter fun w => w.group ≠ g } }
  s.dropQueued fun x => match x with
    | .row i _ => ids.contains i
    | _ => false

/-- A request that a port will not answer any more is served as one to a port that is not usable (R304, R315, R320). -/
def State.without (s : State) (t : MemTag) : State :=
  let m := s.locate t.addr
  match t.op with
  | .write => s.markRow m.group m.row
  | .read =>
    if t.chk then s
    else
      match t.src with
      | .recon id _ => s.againRecon id
      | .engine _ _ => s.requestRead t.src t.addr t.ctx t.gen t.hint t.ways
      | .hostDma _ => s.requestRead t.src t.addr t.ctx t.gen t.hint t.ways
      | _ => s
  | _ => s

/-- A port leaves ONLINE or REBUILDING: what waited for it, and what it owed where its tags end with it, is served
without it (R304, R318, R320). -/
def State.leavePort (s : State) (p : Nat) (owed : List MemTag) : State :=
  let x := s.mport p
  let wait := x.arrived.map (·.t)
  let keep := x.arrived.filter fun a => x.tags.any fun y => y.chk && y.addr == groupHead a.t.addr
  let (ends, kept) := if owed.isEmpty then ((wait.filter fun t => !keep.any fun a => a.t == t), keep) else (wait, [])
  let s := s.modMport p fun x => { x with queue := [], arrived := kept }
  let s := s.dropRows (p / s.groupSize)
  s.each (owed ++ ends ++ x.queue) State.without

/-- A port stops answering and is LOST (R304, R317, R323): what it still owed is served without it. -/
def State.losePort (s : State) (p : Nat) : State :=
  if (s.mport p).state = .lost then s
  else
    let double := !s.othersOnline p
    let tags := (s.mport p).tags
    let s := s.modMport p fun x => { x with
      state := .lost, grant := false, tags := [], everyChunk := true, replace := false, bySoftware := false
      ops := x.ops.map fun o => if o.phase = .repairSent then { o with phase := .repairWanted } else o }
    let s := s.raise A.portLost
    let s := if double then s.raise A.stripeDoubleFault else s
    let s := s.leavePort p tags
    let waiting := (s.groupPorts (p / s.groupSize)).filter fun q => (s.mport q).state == .rebuilding && s.rebuildTurn q
    (s.each waiting fun s q => if (s.mport q).everyChunk then s.beginRebuild q else s).stripeSettle

/-- A block as a number of bytes. -/
def blockOfBytes (bs : List Nat) : Block := BitVec.ofNat 512 (ofLe (bs.map (BitVec.ofNat 8)))

/-- The stripe row that a block lies in, a parity block included. -/
def State.tagRow (s : State) (addr : Nat) : Nat := (s.locate addr).row

/-- The generation of a read has become stale (R305). -/
def State.readStale (s : State) (src : MemSource) (ctx : Nat) (gen : BitVec 16) : Bool :=
  match src with
  | .engine _ _ => decide (gen ≠ (s.ctx ctx).gen)
  | .data _ _ => decide (gen ≠ (s.ctx ctx).gen)
  | _ => false

/-- A reconstruction ends without a value: another member's block does not decode (R315, case 2). -/
def State.failRecon (s : State) (id : Nat) : State :=
  match s.stripe.recons.find? fun r => r.id == id with
  | none => s
  | some r =>
    let s := { s with stripe := { s.stripe with recons := s.stripe.recons.filter fun r => r.id ≠ id } }
    let s := s.dropQueued fun x => match x with
      | .recon i _ => i == id
      | _ => false
    if s.readStale r.src r.ctx r.gen then s.dropRead r.src else s.answerRead r.src .dataUncorrectable 0

/-- A member's block of a reconstruction has come; with the last one the XOR is returned, or the bytes accepted
meanwhile, and a block that its own port holds is written back; where a member could not be read the read waits (R303,
R312, R315). -/
def State.reconBlock (s : State) (id pos : Nat) (v : Block) : State :=
  match s.stripe.recons.find? fun r => r.id == id with
  | none => s
  | some r =>
    let r := { r with left := r.left.filter (· ≠ pos), acc := r.acc ^^^ v }
    if !r.left.isEmpty then
      { s with stripe := { s.stripe with recons := modWhere (fun x => x.id == id) (fun _ => r) s.stripe.recons } }
    else
      let s := { s with stripe := { s.stripe with recons := s.stripe.recons.filter fun r => r.id ≠ id } }
      if r.part then
        s.startRead { id := r.id, addr := r.addr, src := r.src, uncorr := r.own, ctx := r.ctx, gen := r.gen, hint := r.hint
                      ways := r.ways, probed := true }
      else
      let s := s.bump K.blocksReconstructed
      let s := if r.own then s.writeBack r.addr else s
      let held : Bool := s.stripe.heldWrites.any fun h => blockOf h.addr == r.addr
      let data := if (r.stale || held) && decide (r.addr < 2 ^ 44) then s.peekWord r.addr else r.acc
      if s.readStale r.src r.ctx r.gen then s.dropRead r.src else s.answerRead r.src .ok data

/-- A write of a block that has been performed is on its way to its port. -/
def State.performedWrite (s : State) (p a : Nat) : Bool :=
  let ofBlock (t : MemTag) : Bool := t.op == .write && !t.chk && t.addr == a
  (s.mport p).tags.any ofBlock || (s.mport p).queue.any ofBlock

/-- A block as a member of its column: what the writes performed leave of it, those still held apart, so that the
column's blocks fit together (R303, R314, R329). -/
def State.memberValue (s : State) (p : Nat) (t : MemTag) (data : Block) : Block :=
  if s.performedWrite p t.addr then s.cellWord t.addr else data

/-- The bytes that a read which decodes returns: the accepted ones where a write of the block is on its way (R303). -/
def State.readValue (s : State) (p : Nat) (t : MemTag) (data : Block) : Block :=
  if s.inFlight p t.addr then (if t.addr < 2 ^ 44 then s.peekWord t.addr else s.cellWord t.addr) else data

/-- A block that decodes is given to what asked for it (R303, R312). -/
def State.giveBlock (s : State) (p : Nat) (t : MemTag) (data : Block) : State :=
  match t.src with
  | .recon id pos => s.reconBlock id pos (s.memberValue p t data)
  | .row id pos => s.rowBlock id pos t.addr (some (s.memberValue p t data))
  | src => s.answerRead src .ok (s.readValue p t data)

/-- What a read that does not decode does: reconstructed, failed, or held (R302, R312, R315). -/
def State.uncorrectable (s : State) (p : Nat) (t : MemTag) : State :=
  let s := (s.bump K.blocksUncorrectable).markWeak t.addr
  if t.op = .verify then s.pageFailure p (s.tagRow t.addr)
  else
    match t.src with
    | .recon id _ => s.failRecon id
    | .row id pos => s.rowBlock id pos t.addr none
    | src => s.numberRead { addr := t.addr, src := src, uncorr := true, ctx := t.ctx, gen := t.gen, hint := t.hint
                            ways := t.ways }

/-- A READ's outcome once its check block is there (R312); an error on reading a block again is persistent (R324). -/
def State.readOutcome (s : State) (p : Nat) (t : MemTag) (d : Decoded) (data : Block) : State :=
  if s.readStale t.src t.ctx t.gen then s.dropRead t.src
  else
    match d with
    | .clean => if t.op = .verify then s else (s.unmarkWeak t.addr).giveBlock p t data
    | .corrected bs =>
      let s := s.bump K.blocksCorrected
      if t.op = .verify then s.pageFailure p (s.tagRow t.addr)
      else
        let again := !s.inFlight p t.addr
        let s := (s.unmarkWeak t.addr).giveBlock p t (blockOfBytes bs)
        if again then s.writeBack t.addr else s
    | .uncorrectable => s.uncorrectable p t

/-- The decode of a block with its check block (R302, R311, R322): a block answered ERROR, whose WRITE was answered
ERROR, or written as lost, does not decode. -/
def State.decodeRead (s : State) (t : MemTag) (data check : Block) (error : Bool) : Decoded :=
  if error || t.bad || s.stripe.badWrites.contains t.addr || s.stripe.lost.contains t.addr then .uncorrectable
  else decodeBlock data (checkIn check t.addr)

/-- STATUS and TAG of a response (R301). -/
def Rsp.status (r : BitVec 16) : Nat := bits r 3 3
def Rsp.tag (r : BitVec 16) : Nat := bits r 6 10

/-- The response with a TAG and a STATUS (R301). -/
def Rsp.word (tag : BitVec 10) (status : BitVec 3) : BitVec 16 := tag.setWidth 16 <<< 6 ||| status.setWidth 16 <<< 3

/-- The outstanding tag that a response answers, if its STATUS is one the request can have (R301, R302; log 50). -/
def State.answered (s : State) (p : Nat) (r : BitVec 16) (ok : MemOp → Nat → Bool) : Option MemTag :=
  (s.mport p).tags.find? fun t => t.tag == Rsp.tag r && ok t.op (Rsp.status r)

/-- A response on a port: ignored while the port is in reset, late from a LOST port, dropped with MEM_PROTOCOL where
it answers nothing, or it completes its tag (R302, R304, R497). -/
def State.onResponse (s : State) (p : Nat) (r : BitVec 16) (ok : MemOp → Nat → Bool)
    (f : MemTag → State → State) : State :=
  if !(s.mport p).resetN then s
  else if (s.mport p).state = .lost then s.bump K.memLateDropped
  else
    match s.answered p r ok with
    | none => s.raise A.memProtocol
    | some t =>
      let s := s.modMport p fun x => { x with tags := x.tags.filter fun y => y.tag ≠ t.tag }
      (f t s).stripeSettle

/-- A check block has come (R311, R313): the blocks of its code group that wait for it are decoded, those still
outstanding keep it. -/
def State.checkArrived (s : State) (p : Nat) (t : MemTag) (check : Block) (error : Bool) : State :=
  let error := error || s.stripe.badWrites.contains t.key
  let mine (x : MemTag) : Bool := groupHead x.addr == t.addr
  let now := (s.mport p).arrived.filter fun a => mine a.t
  let keep (x : MemTag) : MemTag :=
    if x.op.isRead && !x.chk && x.check.isNone && mine x then { x with check := some check, bad := error } else x
  let s := s.modMport p fun x => { x with
    arrived := x.arrived.filter fun a => !mine a.t, tags := x.tags.map keep }
  s.each now fun s a => s.readOutcome p a.t (s.decodeRead { a.t with bad := error } a.data check a.error) a.data

/-- A data or parity block has come: it is decoded if its check block is there, waits for it, or, where the port takes
no request for it any more, is read without the port (R311, R313, R318). -/
def State.blockArrived (s : State) (p : Nat) (t : MemTag) (data : Block) (error : Bool) : State :=
  match t.check with
  | some c => s.readOutcome p t (s.decodeRead t data c error) data
  | none =>
    if (s.mport p).checkComing (groupHead t.addr) || (s.mport p).serves then
      (s.modMport p fun x => { x with arrived := x.arrived ++ [{ t := t, data := data, error := error }] }).wantCheck p t.addr
    else s.without t

/-- A READ response (R301, R302, R305, R311, R312). -/
def memReadResponseEff (p : Nat) (r : BitVec 16) (data : Block) (s : State) : State :=
  s.onResponse p r (fun op st => op.isRead && decide (st ≤ 1)) fun t s =>
    if t.chk then s.checkArrived p t data (Rsp.status r == 1)
    else if s.readStale t.src t.ctx t.gen then s.dropRead t.src
    else s.blockArrived p t data (Rsp.status r == 1)

/-- MEM_READ_RESPONSE (R312). -/
def execMemReadResponse (p : Nat) (tag : BitVec 10) (status : BitVec 3) (data : BitVec 512) (s : State) :
    Host.Outcome State Fault Refusal := runPort (s.hasMemory p) (memReadResponseEff p (Rsp.word tag status) data) s

/-- A WRITE response: an ERROR is counted, and the block is uncorrectable at its next read (R302). -/
def memWriteResponseEff (p : Nat) (r : BitVec 16) (s : State) : State :=
  s.onResponse p r (fun op st => op == .write && decide (st ≤ 1)) fun t s =>
    if Rsp.status r = 1 then
      let s := (s.bump K.memWriteErrors)
      let s := { s with stripe := { s.stripe with badWrites := uniq (s.stripe.badWrites ++ [t.key]) } }
      if t.chk then s else s.markWeak t.addr
    else s

/-- MEM_WRITE_RESPONSE (R302). -/
def execMemWriteResponse (p : Nat) (r : BitVec 16) (s : State) : Host.Outcome State Fault Refusal :=
  runPort (s.hasMemory p) (memWriteResponseEff p r) s

/-- A REPAIR response: the page is restored, or retired to a spare (R324). -/
def repairResponseEff (p : Nat) (r : BitVec 16) (s : State) : State :=
  s.onResponse p r (fun op st => op == .repair && decide (2 ≤ st ∧ st ≤ 4)) fun t s =>
    if Rsp.status r = 2 then s.modMport p fun x => { x with
      ops := modWhere (fun o => o.page == t.addr) (fun o => { o with phase := .restoring }) x.ops }
    else
      (s.modMport p fun x => { x with ops := x.ops.filter fun o => o.page ≠ t.addr }).queuePage p t.addr true

/-- REPAIR_RESPONSE (R324). -/
def execRepairResponse (p : Nat) (r : BitVec 16) (s : State) : Host.Outcome State Fault Refusal :=
  runPort (s.hasMemory p) (repairResponseEff p r) s

/-- A request has been outstanding for MEM_TIMEOUT_US: its port is LOST (R304). -/
def memTimeoutEff (p tag : Nat) (s : State) : State :=
  if (s.mport p).tags.any fun t => t.tag == tag then s.losePort p else s

/-- MEM_TIMEOUT (R304). -/
def execMemTimeout (p tag : Nat) (s : State) : Host.Outcome State Fault Refusal :=
  runPort (s.hasMemory p) (memTimeoutEff p tag) s

/-- A held read has waited MEM_TIMEOUT_US for a member: it fails (R315); a reader that runs again then fails itself. -/
def State.readTimesOut (s : State) (h : HeldRead) : State :=
  let s := { s with stripe := { s.stripe with heldReads := s.stripe.heldReads.filter fun x => x.id ≠ h.id } }
  if h.src.runsAgain then { s with stripe := { s.stripe with expired := uniq (s.stripe.expired ++ [h.src]) } }
  else if h.uncorr then s.answerRead h.src .dataUncorrectable 0
  else (s.bump K.requestsUnavailable).answerRead h.src .dataUnavailable 0

/-- A held write has waited MEM_TIMEOUT_US: it fails as the read that it waits for does, and the block is left unchanged
(R316). -/
def State.writeTimesOut (s : State) (h : HeldWrite) : State :=
  let m := s.place h.addr
  let s := { s with stripe := { s.stripe with heldWrites := s.stripe.heldWrites.filter fun x => x.id ≠ h.id } }
  let s := if s.groupWaits m.group || decide ((s.unusable m.group m.row).length ≥ 2) then
      (s.bump K.requestsUnavailable).writeFailed h.src .dataUnavailable
    else s.writeSpoilt h.src
  s.finishLate.stripeSettle

/-- A held request has waited MEM_TIMEOUT_US for a member (R315, R316); a write that waits for its row's turn, or behind
another, does not time out. -/
def reconstructTimeoutEff (n : Nat) (s : State) : State :=
  match s.stripe.heldReads.find? fun h => h.id == n with
  | some h => s.readTimesOut h
  | none =>
    match s.stripe.heldWrites.find? fun h => h.id == n with
    | none => s
    | some h => if s.writeFate h.addr = .held then s.writeTimesOut h else s

/-- RECONSTRUCT_TIMEOUT (R315). -/
def execReconstructTimeout (n : Nat) (s : State) : Host.Outcome State Fault Refusal :=
  runCore (reconstructTimeoutEff n) s

/-- PORT_OFFLINE rises: the request waits for its grant (R318). -/
def portOfflineRiseEff (p : Nat) (s : State) : State := s.modMport p fun x => { x with offline := true }

/-- PORT_OFFLINE_RISE (R318). -/
def execPortOfflineRise (p : Nat) (s : State) : Host.Outcome State Fault Refusal :=
  runPort (s.hasMemory p) (portOfflineRiseEff p) s

/-- A port asks to leave service: by its pin, while it rebuilds too, or through MEM_PORT_CONTROL (R318, R319, R321). -/
def MemPort.asks (x : MemPort) : Bool :=
  ((x.offline || x.bySoftware) && x.state == .online) || (x.offline && x.state == .rebuilding)

/-- An offline request may be granted (R318, R330, R428, R503): every other port of the group ONLINE, no page being
restored or retired, no chunk wipe-pending, no self-refresh, no lower port asking. -/
def State.mayGrant (s : State) (p : Nat) : Bool :=
  let g := p / s.groupSize
  let ports := s.groupPorts g
  (s.mport p).asks && (s.mport p).state == .online && s.othersOnline p && !(s.mport p).selfRefresh
  && !(ports.any fun q => (s.mport q).ops.any fun o => o.phase == .restoring || o.phase == .restored)
  && !(ports.any fun q => decide ((s.mport q).wipe.size s.chunks > 0))
  && !(ports.any fun q => decide (q < p) && (s.mport q).asks)

/-- A waiting request is granted: the port drains (R318). -/
def portOfflineGrantEff (p : Nat) (s : State) : State :=
  if s.mayGrant p then ((s.modMport p fun x => { x with state := .draining }).leavePort p []).stripeSettle else s

/-- PORT_OFFLINE_GRANT (R318). -/
def execPortOfflineGrant (p : Nat) (s : State) : Host.Outcome State Fault Refusal :=
  runPort (s.hasMemory p) (portOfflineGrantEff p) s

/-- The last outstanding tag of a draining port is answered: the grant is raised, unless the controller has withdrawn
its request meanwhile (R318, R330). -/
def drainCompleteEff (p : Nat) (s : State) : State :=
  let x := s.mport p
  if x.state ≠ .draining ∨ !x.tags.isEmpty then s
  else if !x.offline ∧ !x.bySoftware then s.enterRebuild p false
  else s.modMport p fun x => { x with state := .offline, grant := true }

/-- DRAIN_COMPLETE (R318). -/
def execDrainComplete (p : Nat) (s : State) : Host.Outcome State Fault Refusal :=
  runPort (s.hasMemory p) (drainCompleteEff p) s

/-- The controller lowers PORT_OFFLINE: the port rebuilds (R318, R320, R330); PORT_CONTENT_LOST is sampled with it. -/
def portOfflineFallEff (p : Nat) (lost : Bool) (s : State) : State :=
  let x := s.mport p
  if !x.offline then s
  else
    let s := s.modMport p fun x => { x with offline := false }
    if x.state = .offline ∧ x.grant then s.enterRebuild p (lost || x.replace)
    else if x.state = .draining then
      s.modMport p fun x => { x with everyChunk := x.everyChunk || lost || x.replace, bySoftware := false }
    else s

/-- PORT_OFFLINE_FALL (R318). -/
def execPortOfflineFall (p : Nat) (lost : Bool) (s : State) : Host.Outcome State Fault Refusal :=
  runPort (s.hasMemory p) (portOfflineFallEff p lost) s

/-- MEM_PORT_CONTROL's offline actions are refused (R319). -/
def State.offlineRefused (s : State) (p : Nat) : Bool := (s.mport p).state != .online || !s.othersOnline p

/-- MEM_PORT_CONTROL takes a port offline (R319). -/
def State.softOffline (s : State) (p : Nat) (replace : Bool) : State :=
  s.modMport p fun x => { x with bySoftware := true, replace := replace }

/-- The next marked chunk of a rebuilding port is rebuilt, every row of it having been written; after the last the
port is ONLINE (R321, R322). -/
def rebuildChunkCompleteEff (p : Nat) (s : State) : State :=
  let g := p / s.groupSize
  if (s.mport p).state ≠ .rebuilding ∨ !s.rebuildTurn p then s
  else
    match (s.bitmapOf g).first s.chunks with
    | none => (s.rebuilt p).stripeSettle
    | some k =>
      if (s.mport p).rebuildRow < s.chunkRows k then s
      else
        let map := (s.bitmapOf g).del k
        let s := { s with stripe := { s.stripe with bitmap := Sparse.set s.stripe.bitmap {} g map } }
        let s := s.modMport p fun x => { x with rebuildRow := 0 }
        (if (map.first s.chunks).isNone then s.rebuilt p else s).stripeSettle

/-- REBUILD_CHUNK_COMPLETE (R321). -/
def execRebuildChunkComplete (p : Nat) (s : State) : Host.Outcome State Fault Refusal :=
  runPort (s.hasMemory p) (rebuildChunkCompleteEff p) s

/-- A page's restore or retirement finishes, its blocks having been written (R324, R325). -/
def pageRestoreCompleteEff (p page : Nat) (s : State) : State :=
  let x := s.mport p
  match x.ops.find? fun o => o.page == page && o.phase == .restored with
  | none => s
  | some o =>
    if !s.othersOnline p then s
    else
      let old := ((x.retireEntry page).map fun e => fld e.2 62 2).getD 0
      let e := match o.spare with
        | some k => retireWord 3 k page
        | none => retireWord (old + 1) 0 page
      let s := s.modMport p fun x => { x with
        ops := x.ops.filter fun o => o.page ≠ page, retire := Sparse.set x.retire 0 o.place e }
      let s := match o.spare with
        | some k => ((s.raise A.pageRetired).logEvent 0x0007 U.stripe (at' p 0 5 + at' page 12 25 + at' k 40 10)).bump
            K.pagesRetired
        | none => s
      s.stripeSettle

/-- PAGE_RESTORE_COMPLETE (R325). -/
def execPageRestoreComplete (p page : Nat) (s : State) : Host.Outcome State Fault Refusal :=
  runPort (s.hasMemory p) (pageRestoreCompleteEff p page) s

/-- The scrubber takes the row it has reached in a group, in ascending order: every block of every member is read; a
wipe-pending chunk's row is passed over (R328, R428; log 82), and in Night it stops (R411). A row waits for the writes
of it that are held (R316, R330). -/
def scrubRowEff (g row : Nat) (s : State) : State :=
  let held := s.stripe.heldWrites.any fun h => (s.place h.addr).group == g && (s.place h.addr).row == row
  if s.resets.night then s
  else if row ≠ Sparse.get s.stripe.scrubRow 0 g ∨ s.par K.scrubPeriodH = 0 ∨ g ≥ s.groups
      ∨ (s.groupPorts g).any (fun q => (s.mport q).state != .online)
      ∨ s.stripe.rows.any (fun w => w.kind == .scrub && w.group == g) ∨ !(s.unusable g row).isEmpty then s
  else if s.chunkPending g (row / 256) then s.scrubbed { group := g, row := row }
  else if held then s
  else s.startRow .scrub g row

/-- SCRUB_ROW (R328). -/
def execScrubRow (g row : Nat) (s : State) : Host.Outcome State Fault Refusal := runCore (scrubRowEff g row) s

/-- An ONLINE port writes its next wipe-pending chunk with zeros, in ascending order, but not in Night (R411, R428). -/
def memWipeChunkEff (p k : Nat) (s : State) : State :=
  if !s.resets.night ∧ (s.mport p).state = .online ∧ (s.mport p).wipe.first s.chunks = some k then (s.zeroChunk p k).pumpAll
  else s

/-- MEM_WIPE_CHUNK (R428). -/
def execMemWipeChunk (p k : Nat) (s : State) : Host.Outcome State Fault Refusal :=
  runPort (s.hasMemory p) (memWipeChunkEff p k) s

/-- A wipe begins (R428): device memory reads zero, every chunk of every port is wipe-pending, and what was not
accepted is discarded (R397). -/
def State.wipeMemory (s : State) : State :=
  let ports := List.range s.build.memoryPorts
  let s := { s with stripe := { s.stripe with
    mem := [], weak := [], lost := [], bitmap := [], heldReads := [], heldWrites := [], scrubRow := [], badWrites := []
    recons := [], rows := [], expired := [], parity := [], scrubDone := [] } }
  s.each ports fun s p => s.modMport p fun x => { x with wipe := { all := true } }

end Sys2Proof.Machine
end

