-- ==== Sys2Proof/Machine/Tables.lean ====
section
/-! DEFINITION. Tables, the overlay map and the Hot Row Store: what a reader with a snapshot tick sees of a row, opening
and closing a table, and the table digests (R219 to R225, R246 to R250, R256, R257, R269 to R273). -/
namespace Sys2Proof.Machine

/-- Fields of the table descriptor (R219, R273). -/
def Table.homeBase (t : Table) : Nat := bits t.desc 448 64
def Table.localRows (t : Table) : Nat := bits t.desc 408 40
def Table.globalRows (t : Table) : Nat := bits t.desc 368 40
def Table.shardMapAddr (t : Table) : Nat := bits t.desc 304 64
def Table.shardCount (t : Table) : Nat := bits t.desc 291 13
def Table.byRange (t : Table) : Bool := bitOf t.desc 290
def Table.rowUnits (t : Table) : Nat := bits t.desc 281 9
def Table.dim (t : Table) : Nat := bits t.desc 268 13
def Table.format (t : Table) : Nat := bits t.desc 265 3
def Table.strideLog2 (t : Table) : Nat := bits t.desc 261 4
def Table.part (t : Table) : Nat := bits t.desc 257 4
def Table.altBase (t : Table) : Nat := bits t.desc 192 64
def Table.voxpor (t : Table) : Bool := bitOf t.desc 1
def Table.live (t : Table) : Bool := bitOf t.desc 0

/-- Row stride in bytes (R220). -/
def Table.stride (t : Table) : Nat := 2 ^ t.strideLog2

/-- Stored bytes of a row (R219). -/
def Table.rowBytes (t : Table) : Nat := t.rowUnits * 16

/-- P, the rows of a shard in RANGE mode (R223). -/
def Table.perShard (t : Table) : Nat := ceilDiv t.globalRows t.shardCount

/-- The owner shard of a global row (R223). -/
def Table.ownerShard (t : Table) (r : Nat) : Nat := if t.byRange then r / t.perShard else r % t.shardCount

/-- The local row of a global row (R223). -/
def Table.localRow (t : Table) (r : Nat) : Nat := if t.byRange then r % t.perShard else r / t.shardCount

/-- The global row of a shard's local row (R223). -/
def Table.globalRow (t : Table) (shard i : Nat) : Nat :=
  if t.byRange then shard * t.perShard + i else i * t.shardCount + shard

/-- The rows of a shard (R223). -/
def Table.rowCount (t : Table) (shard : Nat) : Nat :=
  if t.byRange then Nat.min t.perShard (t.globalRows - shard * t.perShard)
  else (t.globalRows + t.shardCount - 1 - shard) / t.shardCount

/-- The shard of a table that this chip owns (R223). -/
def State.myShard (s : State) (t : Table) : Nat := (t.shards.findIdx? (· == s.chipId)).getD t.shards.length

/-- Header and element bytes of a row (R221). -/
def formatBytes (format dim : Nat) : Nat :=
  match format with
  | 0 => 4 * dim
  | 1 => 2 * dim
  | 2 => 2 * dim
  | 3 => dim
  | 4 => dim
  | 5 => 8 + dim
  | _ => 8 + (dim + 1) / 2

/-- The number of doublings by which 1 reaches a number: ceiling of its log2. -/
def ceilLog2 (n : Nat) : Nat := if n ≤ 1 then 0 else (n - 1).log2 + 1

/-- R220 and R221 hold of a descriptor. -/
def Table.geometryOk (t : Table) : Bool :=
  decide (1 ≤ t.rowUnits ∧ t.rowUnits ≤ 256) && t.strideLog2 == ceilLog2 (Nat.max t.rowBytes 16)
    && t.homeBase % t.stride == 0 && decide (formatBytes t.format t.dim ≤ t.rowBytes)

/-- Bytes lie within a partition's windows; no bytes lie anywhere (R199). -/
def State.inWindows (s : State) (part addr n : Nat) : Bool := n == 0 || s.inWindow part addr n

/-- Entries are strictly ascending. -/
def ascending : List Nat → Bool
  | a :: b :: t => decide (a < b) && ascending (b :: t)
  | _ => true

/-- R223 holds of a shard map, and LOCAL_ROWS is the row count of this chip's shard. -/
def State.shardsOk (s : State) (t : Table) : Bool :=
  decide (1 ≤ t.shardCount ∧ t.shardCount ≤ 4096) && decide (1 ≤ t.globalRows)
    && ascending t.shards && t.shards.contains s.chipId && t.localRows == t.rowCount (s.myShard t)

/-- The first failed check of an open, or 0 (R224). -/
def State.openReason (s : State) (old t : Table) : Nat :=
  if old.state ≠ 0 then 1
  else if t.format = 7 ∨ t.dim = 0 ∨ t.dim > 8176 then 2
  else if !t.geometryOk then 3
  else if !s.inWindows t.part t.homeBase (t.localRows * t.stride)
      || !s.inWindows t.part t.shardMapAddr (2 * t.shardCount) then 4
  else if !s.shardsOk t then 5
  else 0

/-- The table that an open would make: its descriptor and shard map as they stand in memory (R224). -/
def State.readTable (s : State) (n : Nat) : Table :=
  let t : Table := { desc := s.peekWord (s.par K.tableDescBase + 64 * n) }
  { t with shards := (List.range (Nat.min t.shardCount 4096)).map fun i =>
      s.peekNat (t.shardMapAddr + 2 * i) 2 % 4096 }

/-- TABLE_RESULT takes the outcome of a check (R224, R245). -/
def State.tableResult (s : State) (n reason : Nat) : State :=
  { s with emb := { s.emb with tableResult := BitVec.ofNat 32 (at' reason 24 8 + at' n 12 12) } }

/-- A closed opening of a table is kept for the lookups that still read it, as the table is opened again (R225, R274);
its migrations and folds, which affect timing only, end (log 109). -/
def State.retireOpening (s : State) (n : Nat) : State :=
  let t := s.table n
  if t.closeTick.isNone then s
  else
    let mine (i : Nat) : Bool := (s.ovl i).table == n
    let mig := s.emb.migrations.filter fun m => m.table == n && !m.published
    let idx := (s.emb.folds.map (·.index)).filter mine
    let s := s.each idx fun s i => s.modOvl i fun e => { e with folding := false }
    { s with emb := { s.emb with
      retired := s.emb.retired ++ [(n, t)]
      hotAllocs := s.emb.hotAllocs.filter fun a => !mig.any fun m => m.off == a.1
      migrations := s.emb.migrations.filter fun m => m.table ≠ n
      folds := s.emb.folds.filter fun f => !mine f.index } }

/-- A table open is checked; with every check passed the table opens in phase 1 of the next boundary (R224, R225). -/
def State.openCheck (s : State) (n : Nat) : State :=
  let t := s.readTable n
  let s := s.keepRead (s.par K.tableDescBase + 64 * n)
  let reason := s.openReason (s.table n) t
  let s := s.tableResult n reason
  if reason = 0 then (s.retireOpening n).modTable n fun _ => { t with state := 1 } else s

/-- A table close is checked; the table closes in phase 1 of the next boundary (R224). -/
def State.closeCheck (s : State) (n : Nat) : State :=
  if (s.table n).state = 2 then (s.tableResult n 0).modTable n fun t => { t with state := 3 }
  else s.tableResult n 1


/-- A 32-bit tick comes after the present one (R16). -/
def State.tickLater (s : State) (t : Nat) : Bool := serialLt 32 s.tick.number.toNat t

/-- The Embedding Engine is stopped: by UNIT_CONTROL, or before START_GO (R30). -/
def State.embStopped (s : State) : Bool := !s.power.started || s.disp.unitStopped.contains 64

/-- LOC as an entry holds it (R248). -/
def Loc.code : Loc → Nat
  | .memory => 0
  | .hot => 1
  | .home => 2

/-- A version record (R248). -/
def Version.word (v : Version) : Nat :=
  at' v.stamp.toNat 64 32 + at' (v.addr / 16) 24 40 + at' v.loc.code 22 2 + 2 ^ 21

/-- An overlay entry as it lies in the map (R248). -/
def Overlay.word (e : Overlay) : Block :=
  let v (i : Nat) : Nat := ((e.versions[i]?).map Version.word).getD 0
  BitVec.ofNat 512 (at' (v 3) 416 96 + at' (v 2) 320 96 + at' (v 1) 224 96 + at' (v 0) 128 96 + at' e.row 88 40
    + at' e.table 76 12 + flag e.inUse 75 + flag e.replica 74 + flag e.replicated 73 + flag e.folding 72
    + flag e.dropped 71 + at' e.idle 55 16 + at' e.dropLimit.toNat 23 32)

/-- Changes an overlay entry, in the Embedding Engine and in the map in memory (R248, R302). -/
def State.putOvl (s : State) (i : Nat) (f : Overlay → Overlay) : State :=
  let s := s.modOvl i f
  s.writeWord (s.par K.overlayMapBase + 64 * i) (s.ovl i).word 2

/-- The map indices that R249 probes for a key. -/
def State.probes (s : State) (table key : Nat) : List Nat :=
  let l := s.par K.overlayMapLog2
  (List.range 16).map fun i => (overlayHash l table key + i) % 2 ^ l

/-- The overlay entry of a row, or of a replica, of the opening of a table at a tick (R249, R274). -/
def State.findOvlOf (s : State) (opening : BitVec 64) (table key : Nat) (replica : Bool) : Option Nat :=
  (s.probes table key).find? fun i =>
    (s.ovl i).inUse && (s.ovl i).table == table && (s.ovl i).row == key && (s.ovl i).replica == replica
      && (s.ovl i).opening == opening

/-- The overlay entry of a row, or of a replica, of a table as it is now (R249). -/
def State.findOvl (s : State) (table key : Nat) (replica : Bool) : Option Nat :=
  s.findOvlOf (s.table table).openTick table key replica

/-- An entry that a row can take: its own, or the first free one that R249 probes. -/
def State.takeableOvl (s : State) (table key : Nat) (replica : Bool) : Option Nat :=
  match s.findOvl table key replica with
  | some i => some i
  | none => (s.probes table key).find? fun i => !(s.ovl i).inUse

/-- OVERLAY_ROWS of a table (R259). -/
def State.overlayRows (s : State) (table : Nat) : Nat :=
  (s.emb.overlay.filter fun e =>
    e.2.inUse && !e.2.replica && e.2.table == table && e.2.opening == (s.table table).openTick).length

/-- The UPDATE_STATE bits of a table (R273). -/
def State.updateState (s : State) (n : Nat) : Nat :=
  let t := s.table n
  at' t.altBase 192 64 + at' t.epoch.toNat 160 32 + at' t.floorTick.toNat 128 32 + at' t.openTick.toNat 96 32
    + at' (s.overlayRows n) 64 32 + flag t.digestValid 4 + flag t.oldBaseBusy 3 + flag t.activeAlt 2
    + flag t.voxpor 1 + flag t.live 0

/-- The UPDATE_STATE bits of an open table's descriptor are brought up to date in memory (R273, R302). -/
def State.syncState (s : State) (n : Nat) : State :=
  if (s.table n).state < 2 then s
  else s.writeBytes (s.par K.tableDescBase + 64 * n) (leBytes 32 (s.updateState n)) 2

/-- The overlay entry of a row is in use from now on. -/
def State.claimOvl (s : State) (i table key : Nat) (replica : Bool) : State :=
  if (s.ovl i).inUse then s
  else
    let e : Overlay :=
      { table := table, opening := (s.table table).openTick, row := key, inUse := true, replica := replica }
    (s.putOvl i fun _ => e).syncState table

/-- An overlay entry is free from now on (R259). -/
def State.freeOvl (s : State) (i : Nat) : State :=
  let n := (s.ovl i).table
  (s.putOvl i fun _ => {}).syncState n

/-- The newest version that a snapshot sees, none for the base version (R246). -/
def Overlay.versionAt (e : Overlay) (snap : Nat) : Option Version :=
  (e.versions.filter fun v => serialLe 32 v.stamp.toNat snap).getLast?

/-- The base that a snapshot reads: a lookup admitted before a swap reads the old base (R268). -/
def Table.baseAt (t : Table) (snap : Nat) : Nat :=
  let old := match t.swapTick with
    | some w => decide (snap < w.toNat)
    | none => false
  if t.activeAlt != old then t.altBase else t.homeBase

/-- The lowest aligned place for n bytes between two bounds that no allocation touches. -/
def allocFit (align lo hi n : Nat) (allocs : List (Nat × Nat)) : Option Nat :=
  let up (x : Nat) : Nat := ceilDiv x align * align
  let free (a : Nat) : Bool := decide (a + n ≤ hi) && allocs.all fun e => decide (e.1 + e.2 ≤ a ∨ a + n ≤ e.1)
  argMin id ((up lo :: allocs.map fun e => up (e.1 + e.2)).filter fun a => decide (lo ≤ a) && free a)

/-- Bytes of the Hot Row Store (R7, R275). -/
def hotBytes : Nat := 25165824

/-- A place in the Hot Row Store for a row of a table. -/
def State.hotFit (s : State) (t : Table) : Option Nat := allocFit t.stride 0 hotBytes t.stride s.emb.hotAllocs

/-- A slot of the Hot Row Store is taken. -/
def State.hotTake (s : State) (off n : Nat) : State :=
  { s with emb := { s.emb with hotAllocs := s.emb.hotAllocs ++ [(off, n)] } }

/-- Bytes written to the Hot Row Store: an uncorrectable word of the slot is gone with a new version (R416). -/
def State.hotWrite (s : State) (off : Nat) (bytes : List Byte) : State :=
  { s with emb := { s.emb with hot := memPut s.emb.hot off bytes }
           resets := { s.resets with hotBad := s.resets.hotBad.filter fun e => e.1 ≠ off } }

/-- A slot of the Hot Row Store or of an update pool is freed (R254, R257). -/
def State.freeSlot (s : State) (loc : Loc) (addr : Nat) : State :=
  match loc with
  | .home => s
  | .memory => { s with emb := { s.emb with poolAllocs := dropFirst (fun e => e.1 == addr) s.emb.poolAllocs } }
  | .hot => { s with emb := { s.emb with hotAllocs := dropFirst (fun e => e.1 == addr) s.emb.hotAllocs }
                     resets := { s.resets with hotBad := s.resets.hotBad.filter fun e => e.1 ≠ addr } }

/-- Bytes of a Hot Row Store slot: free values, and DATA_UNCORRECTABLE, where an SRAM word is lost (R416). -/
def State.hotRead (s : State) (off n : Nat) : State × Status × List Byte :=
  if s.resets.hotBad.any fun e => e.1 == off then
    let (k, s) := s.fresh
    (s, .dataUncorrectable, (List.range n).map fun i => Config.spoiltByte (k + i))
  else (s, .ok, memBytes s.emb.hot off n)

/-- Reads bytes for a data task, or for the engine itself. -/
def State.readFor (s : State) (task : Option Nat) (addr n hint : Nat) : State × Status × List Byte :=
  match task with
  | some k => s.taskRead k addr n hint
  | none => s.readBytes addr n hint

/-- The newest version of an entry is of LOC HOT (R263). -/
def Overlay.hot (e : Overlay) : Bool := (e.versions.getLast?).any fun v => v.loc == .hot

/-- The stored bytes of a row that a snapshot sees (R246), read with a hint (R302); key is the local row, or the
global row of a replica. A read of a row of LOC HOT resets its IDLE, whichever version it reads (R263); bytes in
memory are read as the task's own request (R200). -/
def State.readRow (s : State) (task : Option Nat) (table key : Nat) (replica : Bool) (snap hint : Nat) :
    State × Status × List Byte :=
  let t := s.tableAt table snap
  let home (s : State) : State × Status × List Byte := s.readFor task (t.baseAt snap + key * t.stride) t.rowBytes hint
  match s.findOvlOf t.openTick table key replica with
  | none => home s
  | some i =>
    let version := (s.ovl i).versionAt snap
    let s := if (s.ovl i).hot then s.putOvl i fun e => { e with idle := 0 } else s
    match version with
    | none => home s
    | some v =>
      match v.loc with
      | .home => home s
      | .memory => s.readFor task v.addr t.rowBytes hint
      | .hot => s.hotRead v.addr t.rowBytes

/-- The newest version of a row, seen yet or not (R253). -/
def State.newest (s : State) (table key : Nat) : Option Version :=
  ((s.findOvl table key false).bind fun i => (s.ovl i).versions.getLast?)

/-- The bytes of a row's newest version (R270), read with a hint. -/
def State.newestBytes (s : State) (table key hint : Nat) : State × Status × List Byte :=
  let t := s.table table
  match s.newest table key with
  | none => s.readBytes (t.baseAt s.tick.number.toNat + key * t.stride) t.rowBytes hint
  | some v =>
    match v.loc with
    | .home => s.readBytes (t.homeBase + key * t.stride) t.rowBytes hint
    | .memory => s.readBytes v.addr t.rowBytes hint
    | .hot => s.hotRead v.addr t.rowBytes

/-- Counts a row read in the count-min sketch; a row whose estimate reaches HOT_THRESHOLD becomes a candidate, once in a
tick (R260). -/
def State.countSketch (s : State) (table g : Nat) : State :=
  let ks := (List.range 4).map fun i => i * 65536 + (Config.sketchIndex i table g).toNat
  let sk := ks.foldl (fun m k => Sparse.insert m k (Sparse.get m 0 k + 1)) s.emb.sketch
  let est := ks.foldl (fun a k => Nat.min a (Sparse.get sk 0 k)) (2 ^ 64)
  let s := { s with emb := { s.emb with sketch := sk } }
  if est ≥ s.par K.hotThreshold ∧ !s.emb.listed.contains (table, g) ∧ s.emb.candidates.length < 1024 then
    { s with emb := { s.emb with
      candidates := s.emb.candidates ++ [(table, g)], listed := s.emb.listed ++ [(table, g)] } }
  else s

/-- The hash of a row in a table digest (R269). -/
def rowHash (table row : Nat) (bytes : List Byte) : Nat :=
  ofLe (sha256 (leBytes 2 table ++ leBytes 5 row ++ bytes))

/-- A sum modulo 2^256. -/
def add256 (a b : Nat) : Nat := (a + b) % 2 ^ 256

/-- A difference modulo 2^256. -/
def sub256 (a b : Nat) : Nat := (a % 2 ^ 256 + 2 ^ 256 - b % 2 ^ 256) % 2 ^ 256

/-- A digest record as it lies in memory (R271). -/
def DigestRec.word (r : DigestRec) : Block :=
  BitVec.ofNat 512 (at' r.digest 256 256 + at' r.epoch.toNat 224 32 + at' r.tick.toNat 192 32 + flag r.valid 0)

/-- The update state and the digest records of a table are brought up to date in memory (R219, R271, R273, R302). -/
def State.syncTable (s : State) (n : Nat) : State :=
  let s := s.writeBytes (s.par K.tableDescBase + 64 * n) (leBytes 32 (s.updateState n)) 2
  s.each (s.table n).records fun s r =>
    s.writeWord (s.par K.tableDigestBase + n * 1024 + r.epoch.toNat % 16 * 64) r.word

/-- Raises FLOOR_TICK of a table, in its descriptor too (R257, R258, R273). -/
def State.raiseFloor (s : State) (n : Nat) (stamp : BitVec 32) : State :=
  if serialLt 32 (s.table n).floorTick.toNat stamp.toNat then
    (s.modTable n fun t => { t with floorTick := stamp }).syncState n
  else s

/-- The tick from which a digest scan of a table in progress reads: the opening scan, or that of a swap (R256, R268,
R272). -/
def Table.scans (t : Table) : List Nat :=
  (t.scan.map (·.toNat)).toList ++ ((t.swap.filter fun w => !w.scanned).map (·.start.toNat)).toList

/-- The ticks of the remote records being served: those that wait for a block (R256). -/
def State.servedTicks (s : State) : List Nat :=
  (s.emb.heldRecords.filter fun r => !s.tickLater (bits r.header 96 32)).map fun r => s.tick64 (bits r.header 96 32)

/-- Snapshot ticks of the live readers: admitted steps that have not completed, remote records being served, and digest
scans (R256). -/
def State.readers (s : State) : List Nat :=
  ((s.loader.instances.filter fun i => decide (i.done < i.count)).map fun i => i.admitTick.toNat)
    ++ s.servedTicks ++ s.emb.tables.flatMap fun e => e.2.scans

/-- The oldest reader tick (R256). -/
def State.oldestReader (s : State) : Nat := s.readers.foldl Nat.min s.tick.number.toNat

/-- The retirement condition of R257 for a 32-bit stamp s: the oldest reader is not earlier than s, and
b ≥ s + UPDATE_KEEP_TICKS. -/
def State.retirable (s : State) (stamp : BitVec 32) : Bool :=
  serialLe 32 stamp.toNat s.oldestReader && serialLe 32 (stamp.toNat + s.par K.updateKeepTicks) s.tick.number.toNat

/-- A new epoch of a table begins at a tick: D takes a difference, or a value; its record overwrites that of the epoch
16 before (R270, R271). -/
def State.newEpoch (s : State) (n : Nat) (tick : BitVec 32) (d : Nat) : State :=
  s.modTable n fun t =>
    let e := t.epoch + 1
    let old := t.records.map fun r => if r.epoch = t.epoch then { r with ended := some tick } else r
    let rec' : DigestRec := { epoch := e, tick := tick, digest := d, valid := t.digestValid || t.whole }
    { t with epoch := e, sum := d, records := rec' :: old.filter fun r => r.epoch.toNat % 16 ≠ e.toNat % 16 }

/-- A record still holds an epoch that cannot be retired, in the place of one of the epochs that the changes pending
and those to be published at the ticks given will begin (R253, R271). -/
def Table.digestLacking (t : Table) (ticks : List Nat) : Bool :=
  let new := (uniq (t.pendingDelta.map (·.1.toNat) ++ ticks)).length
  (List.range new).any fun k =>
    t.records.any fun r => r.epoch.toNat % 16 == (t.epoch.toNat + 1 + k) % 16 && !r.retired

/-- D of the rows of this chip's shard from given bytes, none if a row cannot be read (R269). -/
def State.scanRows (s : State) (n : Nat) (read : State → Nat → State × Status × List Byte) : State × Option Nat :=
  let t := s.table n
  let shard := s.myShard t
  (List.range t.localRows).foldl (fun acc i =>
    let (s, st, bytes) := read acc.1 i
    (s, if st = .ok then acc.2.map fun d => add256 d (rowHash n (t.globalRow shard i) bytes) else none)) (s, some 0)

/-- The entries of an opening of a table are freed, and their slots (R274). -/
def State.freeOpening (s : State) (n : Nat) (opening : BitVec 64) : State :=
  let mine := s.emb.overlay.filter fun e => e.2.inUse && e.2.table == n && e.2.opening == opening
  let s := s.each mine fun s e => (s.each e.2.versions fun s v => s.freeSlot v.loc v.addr).freeOvl e.1
  { s with emb := { s.emb with folds := s.emb.folds.filter fun f => !(mine.any fun e => e.1 == f.index) } }

/-- Everything kept of a closed table is freed: its entries, their slots, its digest records (R274). -/
def State.freeTable (s : State) (n : Nat) : State :=
  let s := s.freeOpening n (s.table n).openTick
  let s := s.each (s.emb.migrations.filter fun m => m.table == n && !m.published) fun s m => s.freeSlot .hot m.off
  { s with emb := { s.emb with
    migrations := s.emb.migrations.filter fun m => m.table ≠ n
    tables := Sparse.erase s.emb.tables n } }

end Sys2Proof.Machine
end

