-- ==== Sys2Proof/Machine/Embedding.lean ====
section
/-! DEFINITION. Gather, pooling and score-and-select, and the remote records by which chips serve each other's lookups
(R226 to R245, R266). -/
namespace Sys2Proof.Machine

/-- Opcodes of the lookups (R226). -/
def Op.embGather : Nat := 0x0100
def Op.embPool : Nat := 0x0101
def Op.embScore : Nat := 0x0102

/-- The table that a lookup's request block names (R227, R232). -/
def lookupTable (op : Nat) (req : Block) : Nat := if op = Op.embScore then bits req 260 12 else bits req 180 12

/-- Request fields of a gather or pooling (R227): pooling mode, bags and index entries. -/
def Lookup.pool (l : Lookup) : Nat := if l.op = Op.embGather then 0 else bits l.req 178 2
def Lookup.rows (l : Lookup) : Nat := bits l.req 224 32
def Lookup.bags (l : Lookup) : Nat := if l.op = Op.embGather then l.rows else bits l.req 192 32
/-- Request fields of a score (R232). -/
def Lookup.metric (l : Lookup) : Nat := bits l.req 258 2
def Lookup.queries (l : Lookup) : Nat := bits l.req 272 5
def Lookup.k (l : Lookup) : Nat := bits l.req 277 11
def Lookup.probes (l : Lookup) : Nat := bits l.req 288 32

/-- The snapshot tick of a data task: the boundary that admitted its step (R246). -/
def State.snapshotOf (s : State) (n : Nat) : Nat := ((s.inst (s.slot n).inst).map (·.admitTick.toNat)).getD 0

/-- One element of a pooled vector taken into the accumulator (R230). -/
def poolElem (pool : Nat) (first : Bool) (acc w x : Nat) : Nat :=
  match pool with
  | 3 => if first then x else fMax acc x
  | 2 => if first then fMul w x else fFma w x acc
  | _ => if first then x else fAdd acc x

/-- Reduces rows in canonical order (R230): each entry is (key of the row, global row, weight). -/
def State.poolRows (s : State) (task : Option Nat) (table pool snap : Nat) (replica : Bool) (rows : List (Nat × Nat × Nat)) :
    State × Status × List Nat :=
  let t := s.tableAt table snap
  rows.zipIdx.foldl (fun acc e =>
    let (s, st, v) := acc
    let (s, st', bytes) := s.readRow task table e.1.1 replica snap 0
    let s := (s.countSketch table e.1.2.1).bump K.rowsGathered
    let v := (List.range t.dim).map fun j => poolElem pool (e.2 == 0) (nth v 0 j) e.1.2.2 (rowElement t.format bytes j)
    (s, st.worse st', v)) (s, .ok, [])

/-- A vector as 32-bit words. -/
def toWords (v : List Nat) : List (BitVec 32) := v.map (BitVec.ofNat 32)

/-- A replica is usable at a snapshot (R265). -/
def State.replicaUsable (s : State) (table row snap : Nat) : Bool :=
  match s.findOvlOf (s.tableAt table snap).openTick table row true with
  | none => false
  | some i =>
    let e := s.ovl i
    let lease := Sparse.get s.emb.leases 0 e.owner
    match e.versions.getLast? with
    | none => false
    | some v => serialLe 32 v.stamp.toNat snap && decide (lease > 0) && serialLe 32 snap (lease - 1)
      && (!e.dropped || serialLe 32 snap e.dropLimit.toNat)

/-- Header of a remote record (R238). -/
def remoteHeader (tick tag requester table items k queries mode kind status : Nat) : BitVec 128 :=
  BitVec.ofNat 128 (at' tick 96 32 + at' tag 72 24 + at' requester 60 12 + at' table 48 12 + at' items 28 20
    + at' k 17 11 + at' queries 12 5 + at' mode 10 2 + at' kind 8 2 + at' status 0 8)

/-- Fields of a remote record's header (R238). -/
def Rem.tick (h : BitVec 128) : Nat := bits h 96 32
def Rem.tag (h : BitVec 128) : BitVec 24 := BitVec.ofNat 24 (bits h 72 24)
def Rem.requester (h : BitVec 128) : Nat := bits h 60 12
def Rem.table (h : BitVec 128) : Nat := bits h 48 12
def Rem.items (h : BitVec 128) : Nat := if bits h 28 20 = 0 then 2 ^ 20 else bits h 28 20
def Rem.k (h : BitVec 128) : Nat := bits h 17 11
def Rem.queries (h : BitVec 128) : Nat := if bits h 12 5 = 0 then 16 else bits h 12 5
def Rem.mode (h : BitVec 128) : Nat := bits h 10 2
def Rem.kind (h : BitVec 128) : Nat := bits h 8 2
def Rem.status (h : BitVec 128) : Nat := bits h 0 8

/-- A header with its ITEMS counted as a payload gives them (R238). -/
def Rem.reply (h : BitVec 128) (items kind status : Nat) : BitVec 128 :=
  remoteHeader (Rem.tick h) (Rem.tag h).toNat (Rem.requester h) (Rem.table h) items (Rem.k h) (bits h 12 5) (Rem.mode h)
    kind status

/-- Partial requests enter the pending table while it has room, tagged in sequence; fuel bounds their number (R236). -/
def State.formPartials : Nat → State → State
  | 0, s => s
  | f + 1, s =>
    match s.emb.unformed with
    | [] => s
    | p :: rest =>
      if s.emb.partials.length ≥ 65536 then s
      else
        let tag := s.emb.nextTag
        let h := p.header &&& ~~~ (BitVec.ofNat 128 (at' (2 ^ 24 - 1) 72 24)) ||| BitVec.ofNat 128 (at' tag.toNat 72 24)
        let p := { p with tag := tag, header := h }
        State.formPartials f { s with emb := { s.emb with
          unformed := rest, partials := s.emb.partials ++ [p], nextTag := tag + 1 } }

/-- Every waiting partial request that the pending table has room for enters it. -/
def State.formAll (s : State) : State := State.formPartials s.emb.unformed.length s

/-- The candidate a is better than b (R234). -/
def better (metric : Nat) (a b : TopK) : Bool :=
  let x := a.score.toNat
  let y := b.score.toNat
  if fEq x y then decide (a.row < b.row) else if metric = 1 then fGt y x else fGt x y

/-- A candidate enters a list of the k best (R234). -/
def addBest (metric k : Nat) (l : List TopK) (c : TopK) : List TopK := (insertBy (better metric) c l).take k

/-- A top-k entry that holds a candidate (R235). -/
def TopK.word (c : TopK) : BitVec 128 :=
  BitVec.ofNat 128 (at' c.score.toNat 96 32 + at' c.table 84 12 + at' c.row 44 40 + 1)

/-- The candidate of a top-k entry, if it is VALID (R235). -/
def TopK.ofWord (w : BitVec 128) : Option TopK :=
  if bitOf w 0 then some { score := BitVec.ofNat 32 (bits w 96 32), table := bits w 84 12, row := bits w 44 40 } else none

/-- A list of K entries, those past its candidates all zero (R234). -/
def topWords (k : Nat) (l : List TopK) : List (BitVec 128) := padTo (l.map TopK.word) 0 k

/-- One step of the pairwise tree over a block's terms (R233). -/
def treeStep (t : List Nat) : List Nat :=
  (List.range (t.length / 2)).map fun j => fAdd (nth t 0 (2 * j)) (nth t 0 (2 * j + 1))

/-- The sum of a block of 32 terms by the fixed pairwise tree (R233). -/
def treeSum (t : List Nat) : Nat := nth (treeStep (treeStep (treeStep (treeStep (treeStep t))))) 0 0

/-- The score of a row for a query (R233). -/
def scoreOf (metric dim : Nat) (x q : List Nat) : Nat :=
  let term (e : Nat) : Nat :=
    if e ≥ dim then 0
    else if metric = 1 then
      let d := fSub (nth x 0 e) (nth q 0 e)
      fMul d d
    else fMul (nth q 0 e) (nth x 0 e)
  let block (b : Nat) : Nat := treeSum ((List.range 32).map fun j => term (32 * b + j))
  (List.range ((dim + 31) / 32)).foldl (fun s b => if b = 0 then block 0 else fAdd s (block b)) 0

/-- A query of BF16 elements (R232). -/
def queryOf (dim : Nat) (bytes : List Byte) : List Nat := (List.range dim).map fun e => fOfBf16 (ofLe (slice bytes (2 * e) 2))

/-- A row scored for every query: NaN scores are counted, the others enter the lists (R234). -/
def State.scoreRow (s : State) (t : Table) (table metric k row : Nat) (qs : List (List Nat)) (bytes : List Byte)
    (lists : List (List TopK)) : State × List (List TopK) :=
  let x := (List.range t.dim).map (rowElement t.format bytes)
  let scores := qs.map (scoreOf metric t.dim x)
  let s := (s.bump K.rowsScored).bump K.scoreNan (scores.filter fIsNaN).length
  (s, lists.zipIdx.map fun e =>
    let v := nth scores fNaN e.2
    if fIsNaN v then e.1 else addBest metric k e.1 { score := BitVec.ofNat 32 v, table := table, row := row })

/-- The rows of probes that a shard owns, in order; each probe is (FIRST_ROW, ROW_COUNT) (R232). -/
def Table.probeRows (t : Table) (shard : Nat) (probes : List (Nat × Nat)) : List Nat :=
  probes.flatMap fun p => ((List.range p.2).map (p.1 + ·)).filter fun r => t.ownerShard r == shard

/-- Scores the rows of probes that this chip owns against every query (R233, R234). -/
def State.scoreProbes (s : State) (task : Option Nat) (table metric k snap : Nat) (qs : List (List Nat))
    (probes : List (Nat × Nat)) : State × Status × List (List TopK) :=
  let t := s.tableAt table snap
  (t.probeRows (s.myShard t) probes).foldl (fun acc r =>
    let (s, st, lists) := acc
    let (s, st', bytes) := s.readRow task table (t.localRow r) false snap 1
    let (s, lists) := s.scoreRow t table metric k r qs bytes lists
    (s, st.worse st', lists)) (s, .ok, qs.map fun _ => [])

/-- A probe entry (R232). -/
def probeOf (w : BitVec 128) : Nat × Nat := (bits w 88 40, bits w 48 40)

/-- The lookup of a data task that waits for partials. -/
def State.lookupOf (s : State) (n : Nat) : Option Lookup := s.emb.lookups.find? (·.slot == n)

/-- Changes a lookup that waits for partials. -/
def State.modLookup (s : State) (n : Nat) (f : Lookup → Lookup) : State :=
  { s with emb := { s.emb with lookups := modWhere (fun l => l.slot == n) f s.emb.lookups } }

/-- The combined vector of a bag from its partials, chips ascending (R240). -/
def combineBag (dim pool : Nat) (parts : List PartVal) : List Nat :=
  let ps := sortBy (fun a b => decide (a.chip < b.chip)) parts
  let n := (ps.map (·.n)).sum
  (List.range dim).map fun j =>
    let acc := ps.zipIdx.foldl (fun acc p =>
      let v := (nth p.1.vals 0 j).toNat
      if p.2 = 0 then v else if pool = 3 then fMax acc v else fAdd acc v) 0
    if n = 0 then 0 else if pool = 1 then fDiv acc (fOfNat n) else acc

/-- The output bytes of a bag: its vector, or every bit set where a failure touched it, with zero padding to
OUT_STRIDE (R228, R242). -/
def bagBytes (bf16 failed : Bool) (v : List Nat) : List Byte :=
  let body := v.flatMap fun x =>
    if bf16 then leBytes 2 (if failed then 2 ^ 16 - 1 else fToBf16 x)
    else leBytes 4 (if failed then 2 ^ 32 - 1 else x)
  padTo body 0 (ceilDiv body.length 64 * 64)

/-- The table that a data task's lookup reads: the opening that its snapshot sees (R225). -/
def State.tableOf (s : State) (n table : Nat) : Table := s.tableAt table (s.snapshotOf n)

/-- A pooling whose partials are all present writes its outputs (R228, R240, R242). -/
def State.finishPool (s : State) (l : Lookup) : State :=
  let t := s.tableOf l.slot l.table
  let bf16 := bitOf l.req 177
  let stride := ceilDiv (t.dim * (if bf16 then 2 else 4)) 64 * 64
  let s := s.each (List.range l.bags) fun s b =>
    let v := combineBag t.dim l.pool (l.parts.filter fun p => p.bag == b)
    s.taskWrite l.slot (bits l.req 256 64 + b * stride) (bagBytes bf16 (l.failedBags.contains b) v)
  s.bump K.bagsPooled l.bags

/-- A score whose replies are all present writes its lists, all zero after a failure (R234, R240, R242). -/
def State.finishScore (s : State) (l : Lookup) : State :=
  s.each (List.range l.queries) fun s j =>
    let best := (l.lists.filter fun e => e.1 == j).foldl (fun acc e =>
      e.2.foldl (addBest l.metric l.k) acc) []
    let words := if l.failedBags.isEmpty then topWords l.k best else List.replicate l.k 0
    s.taskWrite l.slot (bits l.req 320 64 + j * l.k * 16) (words.flatMap fun w => leBytes 16 w.toNat)

/-- A lookup none of whose partial requests is outstanding completes (R226, R240, R242). -/
def State.finishLookup (s : State) (n : Nat) : State :=
  if (s.emb.partials ++ s.emb.unformed).any fun p => p.slot == n then s
  else
    match s.lookupOf n with
    | none => s
    | some l =>
      let s := { s with emb := { s.emb with lookups := s.emb.lookups.filter fun l => l.slot ≠ n } }
      let s := if l.op = Op.embScore then s.finishScore l else s.finishPool l
      s.dataDone n l.status [out64 l.count0, out64 l.count1]

/-- A lookup that fails a check of R229 completes with CANCELLED, ranked with the outcomes of its reads, and writes
nothing (R242). -/
def State.cancelLookup (s : State) (n : Nat) (st : Status) : State :=
  (s.bump K.lookupsCancelled).dataDone n (st.worse .cancelled) []

/-- A lookup begins: its own part is done, and its partial requests form. -/
def State.beginLookup (s : State) (l : Lookup) (ps : List Partial) : State :=
  let s := { s with emb := { s.emb with lookups := s.emb.lookups ++ [l], unformed := s.emb.unformed ++ ps } }
  s.formAll.finishLookup l.slot

/-- The rows of a bag that shards own, as POOL_REQ payload entries: (row, weight) (R238). -/
def poolEntry (pool : Nat) (e : Nat × Nat) : BitVec 128 :=
  BitVec.ofNat 128 (at' (if pool = 2 then e.2 else 0) 96 32 + at' e.1 0 40)

/-- One shard's part of a bag (R230, R236, R266): its own rows and usable replicas are reduced here, the others are
asked for. -/
def State.bagShard (l : Lookup) (snap b : Nat) (rows : List (Nat × Nat)) (acc : State × Lookup × List Partial)
    (shard : Nat) : State × Lookup × List Partial :=
  let (s, l', ps) := acc
  let t := s.tableOf l.slot l.table
  let mine := rows.filter fun r => t.ownerShard r.1 == shard
  let own := shard == s.myShard t
  let chip := nth t.shards 0 shard
  if mine.isEmpty then acc
  else if own || mine.all fun r => s.replicaUsable l.table r.1 snap then
    let keyed := mine.map fun r => (if own then t.localRow r.1 else r.1, r.1, r.2)
    let (s, st, v) := s.poolRows (some l.slot) l.table l.pool snap (!own) keyed
    let s := if own then s else s.bump K.replicaPartials
    let p : PartVal := { bag := b, chip := chip, n := mine.length, vals := toWords v }
    (s, { l' with parts := l'.parts ++ [p], status := l'.status.worse st
                  failedBags := if st = .ok then l'.failedBags else b :: l'.failedBags }, ps)
  else
    let h := remoteHeader snap 0 s.chipId l.table mine.length 0 0 l.pool 0 0
    let p : Partial := { slot := l.slot, bag := b, chip := chip, table := l.table, tick := BitVec.ofNat 32 snap
                         items := mine.length, header := h, payload := mine.map (poolEntry l.pool) }
    (s, l', ps ++ [p])

/-- One bag of a pooling: entries that could not be read fail it (R230, R242). -/
def State.bag (l : Lookup) (snap : Nat) (acc : State × Lookup × List Partial) (e : List (Status × Nat × Nat) × Nat) :
    State × Lookup × List Partial :=
  let (s, l', ps) := acc
  let st := e.1.foldl (fun st r => st.worse r.1) .ok
  let l' := if st = .ok then l' else { l' with status := l'.status.worse st, failedBags := e.2 :: l'.failedBags }
  let rows := (e.1.filter fun r => r.1 == .ok).map (·.2)
  (List.range (s.tableOf l.slot l.table).shardCount).foldl (State.bagShard l snap e.2 rows) (s, l', ps)

/-- An array of n-byte numbers read one by one for a data task, each with the status of its read. -/
def State.readArray (s : State) (task addr size n : Nat) : State × List (Status × Nat) :=
  (List.range n).foldl (fun acc i =>
    let (s, st, bytes) := acc.1.taskRead task (addr + i * size) size
    (s, acc.2 ++ [(st, ofLe bytes)])) (s, [])

/-- Offsets that start at 0, do not decrease and end at a number, as far as they could be read (R229, R242). -/
def offsetsOk (rows : Nat) (offs : List (Status × Nat)) : Bool :=
  let at_ (e : Option (Status × Nat)) (v : Nat) : Bool := e.all fun o => o.1 != .ok || o.2 == v
  let known := (offs.filter fun o => o.1 == .ok).map (·.2)
  at_ offs.head? 0 && at_ offs.getLast? rows && (known.all fun o => decide (o ≤ rows))
    && (known.zip (known.drop 1)).all fun p => decide (p.1 ≤ p.2)

/-- A table that a lookup or an update of a task may use (R229, R252): open at its snapshot, in its partition. -/
def State.tableFor (s : State) (n table : Nat) : Bool :=
  (s.tableOf n table).openAt (s.snapshotOf n) && (s.tableOf n table).part == (s.slot n).part

/-- EMB_GATHER and EMB_POOL past the reading of the request block (R226 to R230, R236). -/
def State.poolLookup (s : State) (l : Lookup) : State :=
  let n := l.slot
  let snap := s.snapshotOf n
  let gather := l.op == Op.embGather
  if !s.tableFor n l.table || decide (l.rows > 1048576) || (!gather && decide (l.bags > 65536)) then s.cancelLookup n .ok
  else
    let (s, index) := s.readArray n (bits l.req 448 64) 8 l.rows
    let (s, offs) := if gather then (s, (List.range (l.rows + 1)).map fun i => (Status.ok, i))
      else s.readArray n (bits l.req 384 64) 4 (l.bags + 1)
    let (s, weights) := if l.pool = 2 then s.readArray n (bits l.req 320 64) 4 l.rows
      else (s, List.replicate l.rows (Status.ok, 0))
    let ost := offs.foldl (fun st o => st.worse o.1) Status.ok
    let all := (index ++ weights).foldl (fun st o => st.worse o.1) ost
    let rows := (index.zip weights).map fun e => ((e.1.1.worse e.2.1), e.1.2 % 2 ^ 40, e.2.2)
    let badRow := index.any fun r => r.1 == .ok && decide (r.2 % 2 ^ 40 ≥ (s.tableOf n l.table).globalRows)
    if badRow || !offsetsOk l.rows offs then s.cancelLookup n all
    else
      let spans := (List.range l.bags).map fun b =>
        let (st, first) := nth offs (.ok, 0) b
        let (st', next) := nth offs (.ok, 0) (b + 1)
        if st.worse st' = .ok then slice rows first (next - first) else [(st.worse st', 0, 0)]
      let l := { l with count0 := l.rows, count1 := l.bags, status := all }
      let (s, l', ps) := spans.zipIdx.foldl (State.bag l snap) (s, l, [])
      s.beginLookup l' ps

/-- EMB_SCORE past the reading of the request block (R226, R232 to R236). -/
def State.scoreLookup (s : State) (l : Lookup) : State :=
  let n := l.slot
  let snap := s.snapshotOf n
  let t := s.tableOf n l.table
  let inRange (x lo hi : Nat) : Bool := decide (lo ≤ x ∧ x ≤ hi)
  if !s.tableFor n l.table || !inRange l.probes 1 65536 || !inRange l.k 1 1024 || !inRange l.queries 1 16 || l.metric == 3 then
    s.cancelLookup n .ok
  else
    let qstride := ceilDiv (2 * t.dim) 64 * 64
    let (s, qraw) := (List.range l.queries).foldl (fun acc j =>
      let (s, st, b) := acc.1.taskRead n (bits l.req 448 64 + j * qstride) (2 * t.dim)
      (s, acc.2 ++ [(st, b)])) (s, ([] : List (Status × List Byte)))
    let (s, praw) := s.readArray n (bits l.req 384 64) 16 l.probes
    let st := (praw.map (·.1) ++ qraw.map (·.1)).foldl Status.worse .ok
    let probes := praw.map fun p => probeOf (BitVec.ofNat 128 p.2)
    let bad := (praw.zip probes).any fun p => p.1.1 == .ok
      && (p.2.2 == 0 || decide (p.2.1 + p.2.2 > t.globalRows))
    let total := (probes.map (·.2)).sum
    let l := { l with count0 := total, count1 := l.queries, status := st }
    if bad then s.cancelLookup n st
    else if st ≠ .ok then s.beginLookup { l with failedBags := [0] } []
    else
      let (s, st, lists) := s.scoreProbes (some n) l.table l.metric l.k snap (qraw.map fun q => queryOf t.dim q.2) probes
      let l := { l with lists := (lists.zipIdx.map fun e => (e.2, e.1)), status := l.status.worse st
                        failedBags := if st = .ok then [] else [0] }
      let others := (List.range t.shardCount).filter fun sh => sh ≠ s.myShard t
      let ps := others.filterMap fun sh =>
        let mine := (probes.zip praw).filter fun p => !(t.probeRows sh [p.1]).isEmpty
        if mine.isEmpty then none
        else
          let h := remoteHeader snap 0 s.chipId l.table mine.length l.k (l.queries % 16) l.metric 2 0
          let payload := (qraw.flatMap fun q => byteSlots q.2) ++ mine.map fun p => BitVec.ofNat 128 p.2.2
          let p : Partial := { slot := n, chip := nth t.shards 0 sh, table := l.table, tick := BitVec.ofNat 32 snap
                               items := mine.length, score := true, header := h, payload := payload }
          some p
      s.beginLookup l ps

/-- The lookup data task in a slot runs (R226): its step has touched the table from here on (R375). -/
def State.lookup (s : State) (n op : Nat) : State :=
  if s.embStopped || (s.lookupOf n).isSome then s
  else
    let (s, st, req) := s.requestBlock n
    if st ≠ .ok then s.dataDone n st []
    else
      let t := lookupTable op req
      let s := s.modInst (s.slot n).inst fun i => { i with tables := if i.tables.contains t then i.tables else i.tables ++ [t] }
      let l : Lookup := { slot := n, op := op, req := req, table := t }
      if op = Op.embScore then s.scoreLookup l else s.poolLookup l

/-- EMB_GATHER (R226). -/
def execEmbGather (n : Nat) (s : State) : Host.Outcome State Fault Refusal :=
  runCore (fun s => s.onItem n Op.embGather fun s => s.lookup n Op.embGather) s

/-- EMB_POOL (R226). -/
def execEmbPool (n : Nat) (s : State) : Host.Outcome State Fault Refusal :=
  runCore (fun s => s.onItem n Op.embPool fun s => s.lookup n Op.embPool) s

/-- EMB_SCORE (R226). -/
def execEmbScore (n : Nat) (s : State) : Host.Outcome State Fault Refusal :=
  runCore (fun s => s.onItem n Op.embScore fun s => s.lookup n Op.embScore) s

/-- Sends a remote record (R237, R238). -/
def State.sendRemote (s : State) (dst vc : Nat) (h : BitVec 128) (payload : List (BitVec 128)) : State :=
  (s.sendRecord dst vc Fam.remote (h :: payload) .nobody).bump K.remoteRecordsSent

/-- The exchange point of the frame: every partial request formed since the previous one leaves, batched by owner
(R237). -/
def exchangePointEff (s : State) : State :=
  if !s.tick.frameOpen || s.tick.exchangePointDone then s
  else
    let due := sortBy (fun a b => decide (a.chip < b.chip)) (s.emb.partials.filter fun p => !p.sent)
    let now := s.clk.units
    let leave (p : Partial) : Partial := { p with sent := true, sentAt := now }
    let ps := modWhere (fun p => !p.sent) leave s.emb.partials
    let s := { s with tick := { s.tick with exchangePointDone := true }, emb := { s.emb with partials := ps } }
    s.each due fun s p => s.sendRemote p.chip 0 p.header p.payload

/-- EXCHANGE_POINT (R237). -/
def execExchangePoint (s : State) : Host.Outcome State Fault Refusal := runCore exchangePointEff s

/-- An owner answers a request (R239). -/
def State.replyTo (s : State) (h : BitVec 128) (st : Status) (items : Nat) (payload : List (BitVec 128)) : State :=
  let ok := st == .ok
  let s := s.bump K.remoteRecordsServed
  s.sendRemote (Rem.requester h) 1 (Rem.reply h (if ok then items else bits h 28 20) (Rem.kind h + 1) st.code)
    (if ok then payload else [])

/-- The status with which a request must be refused before any read (R239, R257, R274), or OK: rows are the rows asked
for, owned says whether each is this chip's. -/
def State.serveStatus (s : State) (h : BitVec 128) (owned : Bool) : Status :=
  let t := s.table (Rem.table h)
  if !t.openAt (s.tick64 (Rem.tick h)) then .cancelled
  else if serialLt 32 (Rem.tick h) t.floorTick.toNat then .dataUnavailable
  else if !owned then .cancelled
  else .ok

/-- A row that this chip owns under its own descriptor (R239). -/
def State.ownsRow (s : State) (t : Table) (r : Nat) : Bool := decide (r < t.globalRows) && t.ownerShard r == s.myShard t

/-- Serves a POOL_REQ (R230, R238, R239). -/
def State.servePool (s : State) (r : RemoteRec) : State :=
  let h := r.header
  let n := Rem.table h
  let t := s.table n
  let rows := (r.payload.take (Rem.items h)).map fun w => (bits w 0 40, bits w 96 32)
  let st := s.serveStatus h (rows.all fun e => s.ownsRow t e.1)
  if st ≠ .ok then s.replyTo h st 0 []
  else
    let (s, st, v) := s.poolRows none n (Rem.mode h) (s.tick64 (Rem.tick h)) false
      (rows.map fun e => (t.localRow e.1, e.1, e.2))
    s.replyTo h st rows.length (byteSlots (v.flatMap (leBytes 4)))

/-- Serves a SCORE_REQ (R233, R238, R239): a probe that holds no row of this chip's shard does not belong here. -/
def State.serveScore (s : State) (r : RemoteRec) : State :=
  let h := r.header
  let n := Rem.table h
  let t := s.table n
  let qslots := ceilDiv (2 * t.dim) 16
  let nq := Rem.queries h
  let qs := (List.range nq).map fun j => queryOf t.dim (slotBytes (slice r.payload (j * qslots) qslots))
  let probes := (slice r.payload (nq * qslots) (Rem.items h)).map probeOf
  let owned := probes.all fun p => decide (p.1 + p.2 ≤ t.globalRows) && !(t.probeRows (s.myShard t) [p]).isEmpty
  let st := s.serveStatus h owned
  if st ≠ .ok then s.replyTo h st 0 []
  else
    let (s, st, lists) := s.scoreProbes none n (Rem.mode h) (Rem.k h) (s.tick64 (Rem.tick h)) qs probes
    s.replyTo h st (nq * Rem.k h) (lists.flatMap (topWords (Rem.k h)))

/-- The reader that a remote request is (R256, R315). -/
def RemoteRec.reader (r : RemoteRec) : MemSource := .serve (Rem.requester r.header) (Rem.tag r.header).toNat

/-- Serves a remote request, or holds it until this chip's tick has reached its own, or while a block that it reads
waits for a member (R239, R315). -/
def State.serveRemote (s : State) (r : RemoteRec) : State :=
  let hold (s : State) : State := { s with emb := { s.emb with heldRecords := s.emb.heldRecords ++ [r] } }
  if s.tickLater (Rem.tick r.header) then hold s
  else
    let s := s.patient r.reader fun s => if Rem.kind r.header = 0 then s.servePool r else s.serveScore r
    if s.stripe.heldReads.any fun h => h.src == r.reader then hold s else s

/-- Requests held for a tick that has come, or for a block, are served in arrival order, none in Night (R239, R315,
R411). -/
def State.serveHeld (s : State) : State :=
  let waits (r : RemoteRec) : Bool := s.tickLater (Rem.tick r.header) || s.resets.night
  let due := s.emb.heldRecords.filter fun r => !waits r
  let later := s.emb.heldRecords.filter waits
  let s := { s with emb := { s.emb with heldRecords := later } }
  s.each due State.serveRemote

/-- A remote record of a kind is received: requests on VC 0, replies on VC 1 (R337); while the engine is stopped it is
held on its virtual channel (R30, R340). A STATUS that is no final-result code raises LINK_PROTOCOL (R494). -/
def remoteEff (kind src : Nat) (h : BitVec 128) (payload : List (BitVec 128)) (f : RemoteRec → State → State)
    (s : State) : State :=
  if Rem.kind h ≠ kind then s
  else
    s.serveRecord { src := src, vc := kind % 2, family := Fam.remote, slots := h :: payload }
      (holdsWhile s.embStopped fun s => f { src := src, header := h, payload := payload } (s.checkStatus (Rem.status h)))

/-- POOL_REQ (R239). -/
def execPoolReq (src : Nat) (h : BitVec 128) (payload : List (BitVec 128)) (s : State) : Host.Outcome State Fault Refusal :=
  runCore (remoteEff 0 src h payload fun r s => s.serveRemote r) s

/-- SCORE_REQ (R239). -/
def execScoreReq (src : Nat) (h : BitVec 128) (payload : List (BitVec 128)) (s : State) : Host.Outcome State Fault Refusal :=
  runCore (remoteEff 2 src h payload fun r s => s.serveRemote r) s

/-- The pending entry that a reply answers (R241). -/
def State.pendingFor (s : State) (h : BitVec 128) (score : Bool) : Option Partial :=
  s.emb.partials.find? fun p => p.sent && p.tag == Rem.tag h && p.tick.toNat == Rem.tick h && p.score == score

/-- A pending entry is freed, and a waiting partial request takes its place (R236). -/
def State.freePartial (s : State) (p : Partial) : State :=
  ({ s with emb := { s.emb with partials := dropFirst (fun q => q == p) s.emb.partials } }).formAll

/-- A partial request ends without a partial: its bag, or its score, fails with a status (R241, R242). -/
def State.partialFails (s : State) (p : Partial) (st : Status) : State :=
  let s := s.freePartial p
  (s.modLookup p.slot fun l => { l with status := l.status.worse st, failedBags := p.bag :: l.failedBags }).finishLookup p.slot

/-- A reply of a kind arrives (R240, R241). -/
def State.remoteReply (s : State) (r : RemoteRec) (score : Bool) (take : Partial → Lookup → Lookup) : State :=
  match s.pendingFor r.header score with
  | none => s.bump K.remoteRepliesStale
  | some p =>
    if Rem.status r.header ≠ 0 then s.partialFails p (carriedStatus (Rem.status r.header))
    else ((s.freePartial p).modLookup p.slot (take p)).finishLookup p.slot

/-- The partial that a POOL_REPLY carries (R238, R240). -/
def takePool (r : RemoteRec) (s : State) (p : Partial) (l : Lookup) : Lookup :=
  let bytes := slotBytes r.payload
  let v := (List.range (s.tableOf p.slot p.table).dim).map fun j => ofLe (slice bytes (4 * j) 4)
  let part : PartVal := { bag := p.bag, chip := p.chip, n := Rem.items r.header, vals := toWords v }
  { l with parts := l.parts ++ [part] }

/-- The lists that a SCORE_REPLY carries (R238, R240). -/
def takeScore (r : RemoteRec) (_ : Partial) (l : Lookup) : Lookup :=
  let list (j : Nat) : Nat × List TopK := (j, (slice r.payload (j * l.k) l.k).filterMap TopK.ofWord)
  { l with lists := l.lists ++ (List.range l.queries).map list }

/-- POOL_REPLY (R240, R241). -/
def execPoolReply (src : Nat) (h : BitVec 128) (payload : List (BitVec 128)) (s : State) :
    Host.Outcome State Fault Refusal :=
  runCore (remoteEff 1 src h payload fun r s => s.remoteReply r false (takePool r s)) s

/-- SCORE_REPLY (R240, R241). -/
def execScoreReply (src : Nat) (h : BitVec 128) (payload : List (BitVec 128)) (s : State) :
    Host.Outcome State Fault Refusal :=
  runCore (remoteEff 3 src h payload fun r s => s.remoteReply r true (takeScore r)) s

/-- A partial request was not answered in REMOTE_TIMEOUT_US after it left (R241). -/
def remoteTimeoutEff (tag : Nat) (s : State) : State :=
  match s.emb.partials.find? fun p => p.sent && p.tag.toNat == tag with
  | none => s
  | some p => (s.bump K.remoteTimeouts).partialFails p .timeout

/-- REMOTE_TIMEOUT (R241). -/
def execRemoteTimeout (tag : Nat) (s : State) : Host.Outcome State Fault Refusal := runCore (remoteTimeoutEff tag) s

/-- The lookups of slots, and their pending entries, are freed (R241). -/
def State.freeLookups (s : State) (ofSlot : Nat → Bool) : State :=
  ({ s with emb := { s.emb with
    lookups := s.emb.lookups.filter fun l => !ofSlot l.slot
    partials := s.emb.partials.filter fun p => !ofSlot p.slot
    unformed := s.emb.unformed.filter fun p => !ofSlot p.slot } }).formAll

end Sys2Proof.Machine
end

