-- ==== Sys2Proof/Machine/Updates.lean ====
section
/-! DEFINITION. Live table updates: staging and publishing versions, folds, migrations into the Hot Row Store, replicas on
other chips, Voxpor swaps, and the table epochs (R251 to R275). -/
namespace Sys2Proof.Machine

/-- Opcode of EMB_UPDATE (R251). -/
def Op.embUpdate : Nat := 0x0110

/-- Request fields of EMB_UPDATE (R251). -/
def Upd.src (r : Block) : Nat := bits r 448 64
def Upd.index (r : Block) : Nat := bits r 384 64
def Upd.rows (r : Block) : Nat := bits r 352 32
def Upd.table (r : Block) : Nat := bits r 340 12

/-- The later of two 32-bit ticks (R16). -/
def laterTick (a b : BitVec 32) : BitVec 32 := if serialLt 32 a.toNat b.toNat then b else a

/-- Every version is superseded at the stamp of the next one (R257). -/
def relink (vs : List Version) : List Version :=
  vs.zipIdx.map fun e => { e.1 with superseded := (vs[e.2 + 1]?).map (·.stamp) }

/-- A version takes its place among those of an entry, oldest stamp first. -/
def addVersion (vs : List Version) (v : Version) : List Version :=
  relink (insertBy (fun a b => serialLt 32 a.stamp.toNat b.stamp.toNat) v vs)

/-- An entry has a version record that is neither VALID nor reserved (R253). -/
def Overlay.hasRoom (e : Overlay) : Bool := decide (e.versions.length + e.reserved < 4)

/-- The update that a data task stages. -/
def State.updateOf (s : State) (n : Nat) : Option Update := s.emb.updates.find? (·.slot == n)

/-- Changes the update that a data task stages. -/
def State.modUpdate (s : State) (n : Nat) (f : Update → Update) : State :=
  { s with emb := { s.emb with updates := modWhere (fun u => u.slot == n) f s.emb.updates } }

/-- The update of a data task is no longer staged. -/
def State.endUpdate (s : State) (n : Nat) : State :=
  { s with emb := { s.emb with updates := s.emb.updates.filter fun u => u.slot ≠ n } }

/-- The table of an update has been opened again since the update began: nobody would see its versions (R225, R274). -/
def State.stale (s : State) (u : Update) : Bool := (s.table u.table).openTick != u.opening

/-- A fresh slot for a row of an update: from the Hot Row Store if the newest version is there and it has room,
otherwise from the update pool of the table's partition (R253). -/
def State.freshSlot (s : State) (n row : Nat) : Option (State × Loc × Nat) :=
  let t := s.table n
  let hot := match s.newest n (t.localRow row) with
    | some v => if v.loc = .hot then s.hotFit t else none
    | none => none
  match hot with
  | some off => some (s.hotTake off t.stride, .hot, off)
  | none =>
    let p := s.par K.updatePool t.part
    let lo := fld p 64 64
    (allocFit t.stride lo (lo + fld p 32 32 * 4096) t.stride s.emb.poolAllocs).map fun a =>
      ({ s with emb := { s.emb with poolAllocs := s.emb.poolAllocs ++ [(a, t.stride)] } }, .memory, a)

/-- Bytes that a task copies into a slot (R200, R253). -/
def State.fillSlot (s : State) (task : Nat) (loc : Loc) (addr : Nat) (bytes : List Byte) : State :=
  match loc with
  | .hot => s.hotWrite addr bytes
  | _ => s.taskWrite task addr bytes

/-- A fresh slot is taken for each row, or none at all (R253). -/
def State.takeSlots (s : State) (n : Nat) (rows : List Nat) : Option (State × List StagedRow) :=
  rows.foldl (fun acc r => acc.bind fun a =>
    (State.freshSlot a.1 n r).map fun x => (x.1, a.2 ++ [{ row := r, loc := x.2.1, addr := x.2.2 }])) (some (s, []))

/-- Stage 1 of an update: every row has a fresh slot, into which its source row is copied; a row listed twice comes from
its later entry (R253, R254). A failed read ends the update with its data status. -/
def State.stage1 (s : State) (u : Update) : State :=
  let t := s.table u.table
  let (s0, _, req) := s.requestBlock u.slot
  let (s1, index) := s0.readArray u.slot (Upd.index req) 8 u.count
  let rows := index.map fun e => e.2 % 2 ^ 40
  match s1.takeSlots u.table (uniq rows) with
  | none => s
  | some (s, staged) =>
    let (s, st, src) := s.taskRead u.slot (Upd.src req) (u.count * t.rowBytes)
    if st ≠ .ok then
      let s := s.each staged fun s r => s.freeSlot r.loc r.addr
      (s.endUpdate u.slot).dataDone u.slot st []
    else
      let bytes (r : StagedRow) : List Byte :=
        let i := (rows.zipIdx.foldl (fun a e => if e.1 = r.row then e.2 else a) 0)
        slice src (i * t.rowBytes) t.rowBytes
      let s := s.each staged fun s r => s.fillSlot u.slot r.loc r.addr (bytes r)
      let digest := sha256Nat ((index.flatMap fun e => leBytes 8 e.2) ++ src)
      (s.bump K.rowsStaged u.count).modUpdate u.slot fun u =>
        { u with rows := staged, srcDigest := BitVec.ofNat 256 digest, stage := 1 }

/-- A row's overlay entry and one free version record in it are reserved, if there are such (R253). -/
def State.reserveRow (s : State) (n row : Nat) : Option State :=
  let key := (s.table n).localRow row
  match s.takeableOvl n key false with
  | none => none
  | some i =>
    let s := s.claimOvl i n key false
    if (s.ovl i).hasRoom then some (s.modOvl i fun e => { e with reserved := e.reserved + 1 }) else none

/-- Stage 2 of an update: each row's entry and version record, and the record of the table's next epoch (R253). -/
def State.stage2 (s : State) (u : Update) : State :=
  if (s.table u.table).digestLacking [s.nextTick.toNat] then s
  else
    match u.rows.foldl (fun acc r => acc.bind fun s => s.reserveRow u.table r.row) (some s) with
    | none => s
    | some s => s.modUpdate u.slot fun u => { u with stage := 2 }

/-- An update goes through the stages whose resources are there (R253). -/
def State.advanceUpdate (s : State) (n : Nat) : State :=
  let go (k : Nat) (f : State → Update → State) (s : State) : State :=
    match s.updateOf n with
    | some u => if u.stage = k && !s.stale u then f s u else s
    | none => s
  go 1 State.stage2 (go 0 State.stage1 s)

/-- Every update in progress goes on as far as its resources allow, in order of arrival. -/
def State.advanceUpdates (s : State) : State :=
  s.each (s.emb.updates.map (·.slot)) fun s n =>
    s.patient (.task n (s.slot n).inst) fun s => s.advanceUpdate n


/-- An update that its checks refuse completes with CANCELLED (R252). -/
def State.cancelUpdate (s : State) (n : Nat) : State := (s.bump K.updatesCancelled).dataDone n .cancelled []

/-- EMB_UPDATE: the whole request is checked, then staged (R252, R253). -/
def embUpdateEff (n : Nat) (s : State) : State :=
  if s.embStopped || (s.updateOf n).isSome then s
  else
    let (s, st, req) := s.requestBlock n
    if st ≠ .ok then s.dataDone n st []
    else
      let tn := Upd.table req
      let t := s.tableOf n tn
      let count := Upd.rows req
      if !s.tableFor n tn || t.voxpor || !t.live || s.power.stage == 1 || s.par K.liveUpdateEnable == 0
          || decide (count = 0 ∨ count > 65536) then s.cancelUpdate n
      else
        let (s, index) := s.readArray n (Upd.index req) 8 count
        let st := index.foldl (fun st e => st.worse e.1) .ok
        if index.any fun e => e.1 == .ok && !s.ownsRow t (e.2 % 2 ^ 40) then s.cancelUpdate n
        else if st ≠ .ok then s.dataDone n st []
        else
          let u : Update := { slot := n, table := tn, opening := t.openTick, count := count }
          ({ s with emb := { s.emb with updates := s.emb.updates ++ [u] } }).advanceUpdate n

/-- EMB_UPDATE (R251). -/
def execEmbUpdate (n : Nat) (s : State) : Host.Outcome State Fault Refusal :=
  runCore (fun s => s.onItem n Op.embUpdate (embUpdateEff n)) s

/-- Header of a replica record (R264). -/
def replicaHeader (stamp limit row table kind : Nat) : BitVec 128 :=
  BitVec.ofNat 128 (at' stamp 96 32 + at' limit 64 32 + at' row 24 40 + at' table 12 12 + at' kind 10 2)

/-- Fields of a replica record's header (R264). -/
def Rep.stamp (h : BitVec 128) : BitVec 32 := BitVec.ofNat 32 (bits h 96 32)
def Rep.limit (h : BitVec 128) : BitVec 32 := BitVec.ofNat 32 (bits h 64 32)
def Rep.row (h : BitVec 128) : Nat := bits h 24 40
def Rep.owner (h : BitVec 128) : Nat := bits h 24 12
def Rep.table (h : BitVec 128) : Nat := bits h 12 12
def Rep.kind (h : BitVec 128) : Nat := bits h 10 2

/-- Sends a replica record (R264). -/
def State.sendReplica (s : State) (dst : Nat) (h : BitVec 128) (payload : List (BitVec 128)) : State :=
  s.sendRecord dst 0 Fam.replica (h :: payload) .nobody

/-- The limit that a DROP carries: that of the last lease sent, or with none sent the present tick (R267). -/
def State.dropLimit (s : State) : BitVec 32 := s.emb.lastLease.getD s.tick32

/-- The published and not yet visible migration of a row (R261). -/
def State.migrationOf (s : State) (n key : Nat) : Option Migration :=
  s.emb.migrations.find? fun m => m.table == n && m.row == key && m.published

/-- The stamp of an update's row: the boundary of its acceptance, after the lease of replicas held elsewhere, and not
before a version of the row already published (R254, R267). -/
def State.rowStamp (s : State) (i : Nat) (mig : Option Migration) (n : BitVec 32) : BitVec 32 :=
  let e := s.ovl i
  let n := if e.replicated then laterTick n (s.dropLimit + 1) else n
  let own := e.versions.filter fun v => !(v.loc == .hot && mig.any fun m => m.off == v.addr)
  match own.getLast? with
  | some v => laterTick n v.stamp
  | none => n

/-- A row's replicas are dropped before a new version of it is published (R267). DESIGN CHOICE (log 132): the DROP
goes to every chip that has been sent a replica of any row. -/
def State.dropReplicas (s : State) (i n row : Nat) : State :=
  if (s.ovl i).replicated then
    let h := replicaHeader 0 s.dropLimit.toNat row n 2
    (s.each s.emb.holders fun s c => s.sendReplica c h []).putOvl i fun e => { e with replicated := false }
  else s

/-- An update that carries the stamp of a pending migration of the row is dual-written, and the migration moves one tick
on (R262). -/
def State.dualWrite (s : State) (i : Nat) (mig : Option Migration) (stamp : BitVec 32) (bytes : List Byte) : State :=
  match mig with
  | none => s
  | some m =>
    let isMig (v : Version) : Bool := v.loc == .hot && v.addr == m.off
    match (s.ovl i).versions.find? isMig with
    | none => s
    | some v =>
      if serialLt 32 v.stamp.toNat stamp.toNat then s
      else
        let moved (w : Version) : Version := if w.stamp = stamp then { w with stamp := stamp + 1 } else w
        (s.hotWrite m.off bytes).putOvl i fun e => { e with versions := relink (modWhere isMig moved e.versions) }

/-- A migration whose version is gone is over (R254, R261). -/
def State.dropMigration (s : State) (off : Nat) : State :=
  { s with emb := { s.emb with migrations := s.emb.migrations.filter fun m => !(m.published && m.off == off) } }

/-- A version of an entry's row is published; it replaces one with the same stamp, whose slot is freed (R254). -/
def State.publishVersion (s : State) (i : Nat) (new : Version) : State :=
  match (s.ovl i).versions.find? fun v => v.stamp == new.stamp with
  | none => s.putOvl i fun e => { e with versions := addVersion e.versions new }
  | some v =>
    let s := if v.loc = .hot then s.dropMigration v.addr else s
    ((s.freeSlot v.loc v.addr).bump K.rowsSuperseded).putOvl i fun e =>
      { e with versions := addVersion (e.versions.filter fun w => w.stamp ≠ new.stamp) new }

/-- The 64-bit tick not earlier than the present one that a stamp stands for (R16). -/
def State.stampTick (s : State) (stamp : BitVec 32) : BitVec 64 :=
  s.tick.number + BitVec.ofNat 64 (stamp - s.tick32).toNat

/-- A row of an update is published with a stamp no earlier than n (R253, R254, R262, R267, R270). -/
def State.publishRow (tn : Nat) (n : BitVec 32) (s : State) (r : StagedRow) : State :=
  let t := s.table tn
  let key := t.localRow r.row
  match s.findOvl tn key false with
  | none => s
  | some i =>
    let mig := s.migrationOf tn key
    let stamp := s.rowStamp i mig n
    let (s, _, old) := s.newestBytes tn key 0
    let (s, _, bytes) := if r.loc = .hot then s.hotRead r.addr t.rowBytes else s.readBytes r.addr t.rowBytes
    let s := (s.dropReplicas i tn r.row).dualWrite i mig stamp bytes
    let s := s.publishVersion i { stamp := stamp, loc := r.loc, addr := r.addr }
    let s := s.putOvl i fun e => { e with reserved := e.reserved - 1, folding := false, demote := false }
    let s := { s with emb := { s.emb with folds := s.emb.folds.filter fun f => f.index ≠ i } }
    let delta := sub256 (rowHash tn r.row bytes) (rowHash tn r.row old)
    let due := s.stampTick stamp
    s.modTable tn fun t => { t with pendingDelta := t.pendingDelta ++ [(due, delta)] }

/-- The ticks at which an update published for a boundary changes its table (R254, R267). -/
def State.updateTicks (s : State) (u : Update) (n : BitVec 64) : List Nat :=
  u.rows.map fun r =>
    let key := (s.table u.table).localRow r.row
    match s.findOvl u.table key false with
    | none => n.toNat
    | some i => (s.stampTick (s.rowStamp i (s.migrationOf u.table key) (n.truncate 32))).toNat

/-- An update lacks the digest record of an epoch that its publication would begin (R253, R271). -/
def State.lacksRecord (s : State) (u : Update) : Bool :=
  !s.stale u && (s.table u.table).digestLacking (s.updateTicks u s.nextTick)

/-- The updates that wait for a resource (R253). -/
def State.waitingUpdates (s : State) : Nat :=
  (s.emb.updates.filter fun u => decide (u.stage < 2) || s.lacksRecord u).length

/-- Contents changed at a boundary make a new epoch of a table (R247, R270, R271). -/
def State.commitEpoch (s : State) (tn : Nat) (tick : BitVec 64) : State :=
  let t := s.table tn
  let due := t.pendingDelta.filter fun e => decide (e.1 ≤ tick)
  if due.isEmpty then s
  else
    let d := due.foldl (fun a e => add256 a e.2) t.sum
    (s.newEpoch tn (tick.truncate 32) d).modTable tn fun t =>
      { t with pendingDelta := t.pendingDelta.filter fun e => !decide (e.1 ≤ tick) }

/-- An entry's reservation for an update is given up (R253, R255). -/
def State.unreserve (s : State) (u : Update) (r : StagedRow) : State :=
  match s.findOvlOf u.opening u.table ((s.tableOf u.slot u.table).localRow r.row) false with
  | none => s
  | some i =>
    if (s.ovl i).versions.isEmpty && (s.ovl i).reserved ≤ 1 && !(s.ovl i).replicated then s.freeOvl i
    else s.putOvl i fun e => { e with reserved := e.reserved - 1 }

/-- An update torn down before its publication frees its slots and reservations (R255). -/
def State.freeUpdate (s : State) (u : Update) : State :=
  let s := s.each u.rows fun s r => s.freeSlot r.loc r.addr
  let s := if u.stage < 2 then s else s.each u.rows fun s r => s.unreserve u r
  s.endUpdate u.slot

/-- All rows of an update are published and its task completes (R253); with the table opened again since, nobody would
see the versions and its slots are freed (log 109). -/
def State.publish (s : State) (u : Update) (n : BitVec 64) : State :=
  if s.stale u then (s.freeUpdate u).dataDone u.slot .ok [out64 u.count]
  else
    let s := u.rows.foldl (State.publishRow u.table (n.truncate 32)) s
    let s := if n ≤ s.tick.number then s.commitEpoch u.table n else s
    ((s.syncTable u.table).endUpdate u.slot).dataDone u.slot .ok [out64 u.count]

/-- The log entry of an update (R381). -/
def State.isUpdateEntry (s : State) (u : Update) (e : LogEntry) : Bool :=
  e.kind == L.update && e.ctx == (s.slot u.slot).ctx && e.arg 364 12 == u.table && e.arg 344 20 == u.count

/-- In REPLAY an update whose stamp's boundary has come is published with the logged stamp, or diverges (R386, R387). -/
def State.publishReplay (s : State) (u : Update) : State :=
  match s.dueEntry fun e => s.isUpdateEntry u e && decide (e.tick ≤ s.tick.number.toNat) with
  | none => s
  | some e =>
    if e.body = [digestWord u.srcDigest.toNat] then (s.publish u (BitVec.ofNat 64 e.tick)).reproduced e
    else s.diverge e

/-- An update that has its resources is published: in RECORD once the log has room (R253, R255, R382). -/
def State.tryPublish (s : State) (n : Nat) : State :=
  match s.updateOf n with
  | none => s
  | some u =>
    if (!s.stale u && decide (u.stage < 2)) || s.lacksRecord u then s
    else if s.following then s.publishReplay u
    else if !s.logRoom then s.logWaits
    else
      let q := s.slot n
      let s := if s.recording then
          s.logInput s.nextTick L.update q.ctx q.gen.toNat (at' u.table 364 12 + at' u.count 344 20)
            [digestWord u.srcDigest.toNat]
        else s
      s.publish u s.nextTick

/-- UPDATE_PUBLISH (R253): an update still at an earlier stage first takes what it waits for. -/
def execUpdatePublish (n : Nat) (s : State) : Host.Outcome State Fault Refusal :=
  runCore (fun s => if s.embStopped then s
    else (s.patient (.task n (s.slot n).inst) fun s => s.advanceUpdate n).tryPublish n) s

/-- The updates of slots are freed (R255). -/
def State.freeUpdates (s : State) (ofSlot : Nat → Bool) : State :=
  s.each (s.emb.updates.filter fun u => ofSlot u.slot) State.freeUpdate

/-- An entry that the Spill and Copy DMA may fold, with the version it folds (R258); an entry that a closed opening of
its table has left has no home slot any longer, since the table has been opened again (log 109). -/
def State.foldable (s : State) (i : Nat) : Option Version :=
  let e := s.ovl i
  match e.versions with
  | [v] =>
    if e.inUse && !e.replica && !e.folding && e.opening == (s.table e.table).openTick
        && (v.loc == .memory || (v.loc == .hot && e.demote)) && s.retirable v.stamp then some v
    else none
  | _ => none

/-- A fold starts: FOLDING, the home slot takes the version's bytes, and no snapshot before the version is served any
longer (R258). DESIGN CHOICE (log 125): FLOOR_TICK is raised as the fold starts. -/
def foldStartEff (i : Nat) (s : State) : State :=
  if s.embStopped || s.par K.foldEnable == 0 then s
  else
    match s.foldable i with
    | none => s
    | some v =>
      let e := s.ovl i
      let t := s.table e.table
      let (s', st, bytes) := s.newestBytes e.table e.row 1
      if st ≠ .ok then s
      else
        let s := (s'.raiseFloor e.table v.stamp).writeBytes (t.homeBase + e.row * t.stride) bytes 1
        let s := s.putOvl i fun e => { e with folding := true }
        { s with emb := { s.emb with folds := s.emb.folds ++ [{ index := i, stamp := v.stamp }] } }

/-- FOLD_START (R258). -/
def execFoldStart (i : Nat) (s : State) : Host.Outcome State Fault Refusal := runCore (foldStartEff i) s

/-- A fold's copy is complete: a LOC HOME version is published (R258). -/
def foldCopyCompleteEff (i : Nat) (s : State) : State :=
  let v : Version := { stamp := s.nextTick.truncate 32, loc := .home }
  let room := (s.ovl i).hasRoom || (s.ovl i).versions.any fun w => w.stamp == v.stamp
  if s.embStopped || !(s.emb.folds.any fun f => f.index == i) || !room then s
  else
    let s := (s.publishVersion i v).putOvl i fun e => { e with folding := false, demote := false }
    ({ s with emb := { s.emb with folds := s.emb.folds.filter fun f => f.index ≠ i } }).bump K.rowsFolded

/-- FOLD_COPY_COMPLETE (R258). -/
def execFoldCopyComplete (i : Nat) (s : State) : Host.Outcome State Fault Refusal := runCore (foldCopyCompleteEff i) s

/-- A migration's copy is complete: its LOC HOT version is published for the next boundary, after every version already
published (R261, R262). -/
def migrationCopyCompleteEff (tn key : Nat) (s : State) : State :=
  if s.embStopped then s
  else
    match s.emb.migrations.find? fun m => m.table == tn && m.row == key && !m.published with
    | none => s
    | some m =>
      let (s', st, bytes) := s.newestBytes tn key 1
      if st ≠ .ok then
        let s := s'.freeSlot .hot m.off
        { s with emb := { s.emb with migrations := dropFirst (· == m) s.emb.migrations } }
      else
        match s.takeableOvl tn key false with
        | none => s
        | some i =>
          if (s.ovl i).inUse && !(s.ovl i).hasRoom then s
          else
            let last := ((s.ovl i).versions.getLast?).map (·.stamp + 1)
            let stamp := laterTick (s.nextTick.truncate 32) (last.getD 0)
            let stamp := if last.isNone then s.nextTick.truncate 32 else stamp
            let v : Version := { stamp := stamp, loc := .hot, addr := m.off }
            let s := ((s'.hotWrite m.off bytes).claimOvl i tn key false).putOvl i fun e =>
              { e with versions := addVersion e.versions v, idle := 0 }
            let done (x : Migration) : Migration := { x with published := true }
            ({ s with emb := { s.emb with migrations := modWhere (· == m) done s.emb.migrations } }).bump K.rowsMigrated

/-- MIGRATION_COPY_COMPLETE (R261). -/
def execMigrationCopyComplete (tn key : Nat) (s : State) : Host.Outcome State Fault Refusal :=
  runCore (migrationCopyCompleteEff tn key) s

/-- A row of LOC HOT whose IDLE has reached HOT_IDLE_TICKS is due for demotion (R263). -/
def hotRowDemotionEff (i : Nat) (s : State) : State :=
  let e := s.ovl i
  if e.inUse && !e.replica && e.hot && !e.demote && decide (e.idle ≥ s.par K.hotIdleTicks) then
    (s.modOvl i fun e => { e with demote := true }).bump K.rowsDemoted
  else s

/-- HOT_ROW_DEMOTION (R263). -/
def execHotRowDemotion (i : Nat) (s : State) : Host.Outcome State Fault Refusal := runCore (hotRowDemotionEff i) s

/-- A replica record of a kind is received on VC 0; while the engine is stopped it is held there (R30, R337, R340). -/
def replicaRecEff (kind src : Nat) (h : BitVec 128) (payload : List (BitVec 128)) (f : State → State) (s : State) : State :=
  if Rep.kind h ≠ kind then s
  else
    s.serveRecord { src := src, family := Fam.replica, slots := h :: payload } (holdsWhile s.embStopped f)

/-- A holder stores a replica, in the place of any earlier one of the row (R265). DESIGN CHOICE (log 132): one of a
table that is not open here or is a Voxpor table, or that finds no entry of the map, is discarded. -/
def State.storeReplica (s : State) (src : Nat) (h : BitVec 128) (payload : List (BitVec 128)) : State :=
  let tn := Rep.table h
  let row := Rep.row h
  let t := s.table tn
  if t.state = 0 ∨ t.state = 1 ∨ t.voxpor then s
  else
    match s.takeableOvl tn row true with
    | none => s
    | some i =>
      let s' := s.each (s.ovl i).versions fun s v => s.freeSlot v.loc v.addr
      match s'.hotFit t with
      | none => s
      | some off =>
        let s := (s'.hotTake off t.stride).hotWrite off ((slotBytes payload).take t.rowBytes)
        let v : Version := { stamp := Rep.stamp h, loc := .hot, addr := off }
        let e : Overlay := { table := tn, opening := t.openTick, row := row, inUse := true, replica := true
                             versions := [v], owner := src }
        s.putOvl i fun _ => e

/-- REPLICA (R265). -/
def execReplica (src : Nat) (h : BitVec 128) (payload : List (BitVec 128)) (s : State) : Host.Outcome State Fault Refusal :=
  runCore (replicaRecEff 0 src h payload fun s => s.storeReplica src h payload) s

/-- LEASE (R265). -/
def execLease (src : Nat) (h : BitVec 128) (s : State) : Host.Outcome State Fault Refusal :=
  runCore (replicaRecEff 1 src h [] fun s =>
    { s with emb := { s.emb with leases := Sparse.set s.emb.leases 0 (Rep.owner h) ((Rep.limit h).toNat + 1) } }) s

/-- A replica may be used only through the limit of its DROP (R265, R267). -/
def State.dropReplica (s : State) (h : BitVec 128) : State :=
  match s.findOvl (Rep.table h) (Rep.row h) true with
  | none => s
  | some i => s.putOvl i fun e => { e with dropped := true, dropLimit := Rep.limit h }

/-- DROP (R265, R267). -/
def execDrop (src : Nat) (h : BitVec 128) (s : State) : Host.Outcome State Fault Refusal :=
  runCore (replicaRecEff 2 src h [] fun s => s.dropReplica h) s

/-- The owner of a hot candidate sends its newest version to the other chips of the shard map (R264). DESIGN CHOICE
(log 132): the STAMP of a row that has its base version alone is FLOOR_TICK. -/
def State.replicate (s : State) (tn row : Nat) : State :=
  let t := s.table tn
  let key := t.localRow row
  let staged : Bool := s.emb.updates.any fun u => u.table == tn && u.rows.any fun r => r.row == row
  if s.par K.replicaLeaseTicks = 0 ∨ t.shardCount ≤ 1 ∨ staged then s
  else
    match s.takeableOvl tn key false with
    | none => s
    | some i =>
      let stamp := match s.newest tn key with
        | some v => v.stamp
        | none => t.floorTick
      let (s', st, bytes) := s.newestBytes tn key 0
      if st ≠ .ok then s
      else
        let s := (s'.claimOvl i tn key false).putOvl i fun e => { e with replicated := true }
        let others := t.shards.filter fun c => c ≠ s.chipId
        let s := { s with emb := { s.emb with holders := uniq (s.emb.holders ++ others) } }
        s.each others fun s c => s.sendReplica c (replicaHeader stamp.toNat 0 row tn 0) (byteSlots bytes)

/-- The migration of a hot candidate starts, unless its row is there already; none where the row does not fit (R260,
R261). -/
def State.startMigration (s : State) (tn row : Nat) : Option State :=
  let t := s.table tn
  let key := t.localRow row
  let hot := (s.newest tn key).any fun v => v.loc == .hot
  let pending := s.emb.migrations.any fun m => m.table == tn && m.row == key
  if hot || pending then some s
  else
    (s.hotFit t).map fun off =>
      let m : Migration := { table := tn, row := key, off := off }
      let s := s.hotTake off t.stride
      { s with emb := { s.emb with migrations := s.emb.migrations ++ [m] } }

/-- Folds go before any other copy of a row: an update waits for one of the entries that R249 probes for its own row,
and the row's entry is among them (R253). -/
def State.foldsFirst (s : State) (tn key : Nat) : Bool :=
  let wanted (i : Nat) : Bool := s.emb.updates.any fun u => u.stage == 1 && u.rows.any fun r =>
    let k := (s.table u.table).localRow r.row
    (s.takeableOvl u.table k false).isNone && (s.probes u.table k).contains i
  s.par K.foldEnable != 0 && (s.findOvl tn key false).any wanted

/-- A hot candidate is taken: only rows of open tables that this chip owns and that are not in Voxpor mode; one that
does not fit is passed over (R260), and so is one whose fold goes first (R253). -/
def State.takeCandidate (s : State) (c : Nat × Nat) : State :=
  let t := s.table c.1
  if t.state ≠ 2 ∨ t.voxpor ∨ !s.ownsRow t c.2 ∨ s.foldsFirst c.1 (t.localRow c.2) then s
  else
    match s.startMigration c.1 c.2 with
    | none => s
    | some s => s.replicate c.1 c.2

/-- The candidates of the frame that ended are taken in list order (R260). -/
def State.takeCandidates (s : State) : State :=
  if s.embStopped then s
  else
    let cs := s.emb.candidates
    ({ s with emb := { s.emb with candidates := [] } }).each cs State.takeCandidate

/-- An owner that has replicated rows renews its lease with every chip it has sent replicas to (R265). -/
def State.sendLeases (s : State) : State :=
  if s.par K.replicaLeaseTicks = 0 ∨ !(s.emb.overlay.any fun e => e.2.replicated) then s
  else
    let limit := s.tick32 + BitVec.ofNat 32 (s.par K.replicaLeaseTicks)
    let h := replicaHeader 0 limit.toNat s.chipId 0 1
    let s := s.each s.emb.holders fun s c => s.sendReplica c h []
    { s with emb := { s.emb with lastLease := some limit } }

/-- A Voxpor swap is refused with BUSY (R268). -/
def State.swapRefused (s : State) (tn : Nat) : Bool :=
  let t := s.table tn
  let inactive := if t.activeAlt then t.homeBase else t.altBase
  t.state != 2 || !t.voxpor || t.swap.isSome || t.oldBaseBusy || !s.inWindows t.part inactive (t.localRows * t.stride)

/-- A Voxpor swap is accepted: the scan of the inactive base begins (R268). -/
def State.startSwap (s : State) (tn : Nat) : State :=
  s.modTable tn fun t => { t with swap := some { start := s.tick.number } }

/-- D of the inactive base of a table (R268, R270). -/
def State.scanInactive (s : State) (tn : Nat) : State × Option Nat :=
  let t := s.table tn
  let inactive := if t.activeAlt then t.homeBase else t.altBase
  s.scanRows tn fun s i => s.readBytes (inactive + i * t.stride) t.rowBytes 1

/-- The scan of a pending swap completes (R268). -/
def voxporScanCompleteEff (tn : Nat) (s : State) : State :=
  match (s.table tn).swap with
  | none => s
  | some w =>
    if w.scanned then s
    else
      let (s', d) := s.scanInactive tn
      match d with
      | none => s
      | some d => s'.modTable tn fun t => { t with swap := some { w with scanned := true, digest := d } }

/-- VOXPOR_SCAN_COMPLETE (R268). -/
def execVoxporScanComplete (tn : Nat) (s : State) : Host.Outcome State Fault Refusal :=
  runCore (voxporScanCompleteEff tn) s

/-- The opening scan of a table completes: its sum enters every record since the open, which become VALID (R272); the
records from a swap on already hold D of the swap's own scan (R270). -/
def tableDigestScanCompleteEff (tn : Nat) (s : State) : State :=
  match (s.table tn).scan with
  | none => s
  | some snap =>
    let (s', d) := s.scanRows tn fun s i => s.readRow none tn i false snap.toNat 1
    match d with
    | none => s
    | some d =>
      let whole (r : DigestRec) : DigestRec :=
        if r.valid then r else { r with digest := add256 r.digest d, valid := true }
      (s'.modTable tn fun t => { t with
        scan := none, digestValid := true, whole := false, sum := if t.whole then t.sum else add256 t.sum d
        records := t.records.map whole }).syncTable tn

/-- TABLE_DIGEST_SCAN_COMPLETE (R272). -/
def execTableDigestScanComplete (tn : Nat) (s : State) : Host.Outcome State Fault Refusal :=
  runCore (tableDigestScanCompleteEff tn) s

/-- A table opens at the boundary of a tick (R224, R271 to R273). -/
def Table.opened (t : Table) (tick : BitVec 64) : Table :=
  { desc := t.desc, shards := t.shards, state := 2, openTick := tick, floorTick := tick.truncate 32, scan := some tick
    records := [{ epoch := 0, tick := tick.truncate 32 }] }

/-- The base changes of a Voxpor swap commit (R268). -/
def State.commitSwap (s : State) (tn d : Nat) : State :=
  let s := s.modTable tn fun t => { t with
    activeAlt := !t.activeAlt, oldBaseBusy := true, swap := none, swapTick := some s.tick.number
    whole := !t.digestValid }
  let s := s.newEpoch tn s.tick32 d
  if s.recording then
    s.logInput s.tick.number L.table 0 0 (at' tn 364 12 + at' 3 360 4 + at' (s.table tn).epoch.toNat 328 32) []
  else s

/-- Phase 1 for a table: an open or a close takes effect, a scanned swap commits (R224, R268). -/
def State.tablePhase1 (s : State) (tn : Nat) : State :=
  let t := s.table tn
  match t.state with
  | 1 => (s.modTable tn fun t => t.opened s.tick.number).syncTable tn
  | 3 => (s.modTable tn fun t => { t with state := 0, closeTick := some s.tick.number, scan := none, swap := none }).syncTable tn
  | 2 =>
    match t.swap with
    | some w =>
      if !w.scanned || s.following then s
      else if !s.logRoom then s.logWaits
      else (s.commitSwap tn w.digest).syncTable tn
    | none => s
  | _ => s

/-- Numbers of the tables that are not closed and forgotten. -/
def State.tableNumbers (s : State) : List Nat := s.emb.tables.map (·.1)

/-- Phase 5 for every table: a new epoch where the contents have changed (R106, R247, R271). -/
def State.tablesPhase5 (s : State) : State :=
  s.each s.tableNumbers fun s tn =>
    if ((s.table tn).pendingDelta.any fun e => decide (e.1 ≤ s.tick.number)) then
      (s.commitEpoch tn s.tick.number).syncTable tn
    else s

/-- Versions of an entry that a newer one supersedes are retired, and an entry left with a LOC HOME version, or with
none, is freed (R257, R259). -/
def State.retireEntry (s : State) (i : Nat) : State :=
  let e := s.ovl i
  if !e.inUse || e.replica then s
  else
    let gone := e.versions.filter fun v => v.superseded.any s.retirable
    let now := e.opening == (s.table e.table).openTick
    let s := s.each gone fun s v =>
      let s := (s.freeSlot v.loc v.addr).bump K.versionsRetired
      if now then s.raiseFloor e.table (v.superseded.getD 0) else s
    let left := e.versions.filter fun v => !v.superseded.any s.retirable
    let done := match left with
      | [] => !e.replicated
      | [v] => v.loc == .home
      | _ => false
    if done && e.reserved == 0 then s.freeOvl i
    else if gone.isEmpty then s
    else s.putOvl i fun e => { e with versions := left }

/-- Digest records and the old base of a swap are retired as versions are (R268, R271). -/
def State.retireTable (s : State) (tn : Nat) : State :=
  let mark (r : DigestRec) : DigestRec := if r.ended.any s.retirable then { r with retired := true } else r
  let s := s.modTable tn fun t => { t with records := t.records.map mark }
  let t := s.table tn
  match t.swapTick with
  | some w =>
    if t.oldBaseBusy && s.retirable (w.truncate 32) then
      ((s.modTable tn fun t => { t with oldBaseBusy := false }).raiseFloor tn (w.truncate 32)).syncState tn
    else s
  | none => s

/-- No reader needs a table's opening that closed at a tick any longer (R225, R274). -/
def State.unread (s : State) (t : Table) : Bool :=
  match t.closeTick with
  | some c => s.readers.all fun r => decide (c.toNat ≤ r)
  | none => false

/-- A closed table that no reader needs any longer is forgotten (R225, R274). -/
def State.forgetTable (s : State) (tn : Nat) : State :=
  if (s.table tn).state = 0 ∧ s.unread (s.table tn) then s.freeTable tn else s

/-- The closed openings of tables opened again are forgotten likewise (R225, R274). -/
def State.forgetOpenings (s : State) : State :=
  let gone := s.emb.retired.filter fun e => s.unread e.2
  let s := s.each gone fun s e => s.freeOpening e.1 e.2.openTick
  { s with emb := { s.emb with retired := s.emb.retired.filter fun e => !s.unread e.2 } }

/-- IDLE of an entry whose row is of LOC HOT grows at a boundary, to 65,535 (R263). -/
def State.ageEntry (s : State) (i : Nat) : State :=
  if (s.ovl i).hot then
    s.putOvl i fun e => { e with idle := Nat.min 65535 (e.idle + 1) }
  else s

/-- Migrations whose version has become visible are over (R261). -/
def State.endMigrations (s : State) : State :=
  let ended (m : Migration) : Bool := m.published && (match s.findOvl m.table m.row false with
    | some i => !((s.ovl i).versions.any fun v => v.loc == .hot && v.addr == m.off
        && serialLt 32 s.tick32.toNat v.stamp.toNat)
    | none => true)
  { s with emb := { s.emb with migrations := s.emb.migrations.filter fun m => !ended m } }

/-- The Embedding Engine's upkeep at a boundary (R257, R259, R260, R263, R265, R274). Updates that wait take what has
become free before any candidate does (R253). -/
def State.embUpkeep (s : State) : State :=
  let entries := s.emb.overlay.map (·.1)
  let s := (s.each entries State.ageEntry).endMigrations
  let s := s.each (s.emb.overlay.map (·.1)) State.retireEntry
  let s := (s.each s.tableNumbers fun s tn => ((s.retireTable tn).forgetTable tn)).forgetOpenings
  let s := { s with emb := { s.emb with sketch := [], listed := [] } }
  s.advanceUpdates.takeCandidates.sendLeases.serveHeld

end Sys2Proof.Machine
end

