-- ==== Sys2Proof/Machine/Routing.lean ====
section
/-! DEFINITION. Expert-choice routing: selection, the send list, the token exchange and its records (R276 to R299). -/
namespace Sys2Proof.Machine

/-- Opcodes of the Routing Engine's data tasks that are issued (R276). -/
def Op.expSelect : Nat := 0x0300
def Op.expSend : Nat := 0x0301
def Op.expReturn : Nat := 0x0303

/-- Request fields of EXP_SELECT (R278). -/
def Sel.scoreAddr (r : Block) : Nat := bits r 448 64
def Sel.mapAddr (r : Block) : Nat := bits r 384 64
def Sel.listAddr (r : Block) : Nat := bits r 320 64
def Sel.indexAddr (r : Block) : Nat := bits r 256 64
def Sel.groupAddr (r : Block) : Nat := bits r 192 64
def Sel.minScore (r : Block) : Nat := bits r 160 32
def Sel.tokens (r : Block) : Nat := bits r 143 17
def Sel.experts (r : Block) : Nat := bits r 129 14
def Sel.capacity (r : Block) : Nat := bits r 115 14
def Sel.cap (r : Block) : Nat := bits r 111 4
def Sel.group (r : Block) : Nat := bits r 98 13
def Sel.minEnable (r : Block) : Bool := bitOf r 97
def Sel.bf16 (r : Block) : Bool := bitOf r 96

/-- S, the slots of a token (R281). -/
def Sel.slots (r : Block) : Nat := if Sel.cap r = 0 then 8 else Sel.cap r

/-- Entry fields of an expert map (R277). -/
def MapEntry.expert (e : Nat) : Nat := fld e 0 16
def MapEntry.home (e : Nat) : Nat := fld e 16 12

/-- A group table satisfies R277 on this chip. -/
def State.groupOk (s : State) (group : List Nat) : Bool :=
  ascending group && group.all (fun g => decide (g < 4096)) && group.contains s.chipId

/-- An expert map satisfies R277 with a group. -/
def mapOk (map group : List Nat) : Bool :=
  ascending (map.map MapEntry.expert) && map.all (fun e => decide (e < 2 ^ 28) && group.contains (MapEntry.home e))
    && group.all fun g => decide ((map.filter fun e => MapEntry.home e == g).length ≤ 1024)

/-- The count fields of EXP_SELECT are in range (R278, R279). -/
def Sel.inRange (r : Block) : Bool :=
  let ok (x lo hi : Nat) : Bool := decide (lo ≤ x ∧ x ≤ hi)
  ok (Sel.tokens r) 1 65536 && ok (Sel.experts r) 1 8192 && ok (Sel.capacity r) 1 8192 && ok (Sel.cap r) 0 8
    && ok (Sel.group r) 1 4096 && decide (Sel.experts r * Sel.capacity r ≤ 262144)
    && !(Sel.minEnable r && fIsNaN (Sel.minScore r))

/-- Order of candidates: the higher score first, equal scores by the lower number (R280). -/
def scoreFirst (a b : Nat × Nat) : Bool :=
  if fEq a.1 b.1 then decide (a.2 < b.2) else fGt a.1 b.1

/-- The n best of (score, number) candidates (R280). -/
def bestOf (n : Nat) (l : List (Nat × Nat)) : List (Nat × Nat) :=
  l.foldl (fun acc c => (insertBy scoreFirst c acc).take n) []

/-- The candidates of an expert's column: (score, token), NaN scores left out (R280). -/
def columnCands (minEnable : Bool) (minScore e : Nat) (rows : List (List Nat)) : List (Nat × Nat) :=
  rows.zipIdx.filterMap fun r =>
    let v := nth r.1 fNaN e
    if fIsNaN v || (minEnable && !fGe v minScore) then none else some (v, r.2)

/-- The experts that take a token, as (score, column) (R280). -/
def takersOf (sel : List (List (Nat × Nat))) (t : Nat) : List (Nat × Nat) :=
  sel.zipIdx.filterMap fun e => (e.1.find? fun c => c.2 == t).map fun c => (c.1, e.2)

/-- What a selection gives each token: its (score, column) pairs, columns ascending (R280, R281). -/
def keptOf (cap : Nat) (sel : List (List (Nat × Nat))) (t : Nat) : List (Nat × Nat) :=
  let takers := takersOf sel t
  let keep := if cap = 0 then takers else bestOf cap takers
  sortBy (fun a b => decide (a.2 < b.2)) keep

/-- A number rounded up to a multiple of 64. -/
def up64 (n : Nat) : Nat := ceilDiv n 64 * 64

/-- Entries of the send-list region (R282). -/
def destEntry (assignOff assigns expertOff experts : Nat) : Nat :=
  at' assignOff 96 32 + at' assigns 64 32 + at' expertOff 32 32 + at' experts 0 32
def countEntry (expert count : Nat) : Nat := at' expert 16 16 + at' count 0 14
def assignEntry (expert token slot : Nat) : Nat := at' expert 48 16 + at' token 31 17 + at' slot 28 3

/-- Where the expert count table and the assignment list of a region begin (R282). -/
def countTableAt (list group : Nat) : Nat := up64 (list + 16 * group)
def assignListAt (list group experts : Nat) : Nat := up64 (countTableAt list group + 4 * experts)

/-- Entries of a combine index slot (R281). -/
def combineEntry (score expert : Nat) : Nat := at' score 32 32 + at' expert 16 16 + 1

/-- A data task of the Routing Engine that its checks refuse. -/
def State.cancelRoute (s : State) (n key : Nat) : State := (s.bump key).dataDone n .cancelled []

/-- Numbers written one after the other at an address for a data task. -/
def State.writeArray (s : State) (n addr size : Nat) (vs : List Nat) : State :=
  s.taskWrite n addr (vs.flatMap (leBytes size))

/-- The outputs of a selection: combine index, destination table, expert counts and assignments (R281, R282). -/
def State.writeSelection (s : State) (n : Nat) (r : Block) (map group : List Nat) (kept : List (List (Nat × Nat))) : State :=
  let expertOf (c : Nat) : Nat := MapEntry.expert (nth map 0 c)
  let homeOf (c : Nat) : Nat := MapEntry.home (nth map 0 c)
  let slots := Sel.slots r
  let index := kept.flatMap fun k => padTo (k.map fun e => combineEntry e.1 (expertOf e.2)) 0 slots
  let s := s.writeArray n (Sel.indexAddr r) 8 index
  -- (column, token, slot) of every assignment
  let all := kept.zipIdx.flatMap fun k => k.1.zipIdx.map fun e => (e.1.2, k.2, e.2)
  let columns := List.range map.length
  let ofChip (g : Nat) : List Nat := columns.filter fun c => homeOf c == g
  let ofColumn (c : Nat) : List (Nat × Nat × Nat) := all.filter fun a => a.1 == c
  let perChip := group.map fun g => ((ofChip g).flatMap ofColumn).length
  let table := group.zipIdx.map fun g =>
    destEntry ((perChip.take g.2).sum) (nth perChip 0 g.2) (((group.take g.2).map fun h => (ofChip h).length).sum)
      (ofChip g.1).length
  let s := s.writeArray n (Sel.listAddr r) 16 table
  let order := group.flatMap ofChip
  let s := s.writeArray n (countTableAt (Sel.listAddr r) group.length) 4 (order.map fun c =>
    countEntry (expertOf c) (ofColumn c).length)
  s.writeArray n (assignListAt (Sel.listAddr r) group.length map.length) 8
    ((order.flatMap ofColumn).map fun a => assignEntry (expertOf a.1) a.2.1 a.2.2)

/-- The score rows of EXP_SELECT, converted to FP32 (R278, R280). -/
def State.readScores (s : State) (n : Nat) (r : Block) : State × Status × List (List Nat) :=
  let size := if Sel.bf16 r then 2 else 4
  let len := Sel.experts r * size
  (List.range (Sel.tokens r)).foldl (fun acc t =>
    let (s, st, rows) := acc
    let (s, st', bytes) := s.taskRead n (Sel.scoreAddr r + t * up64 len) len
    let row := (List.range (Sel.experts r)).map fun e =>
      rowElement (if Sel.bf16 r then 1 else 0) bytes e
    (s, st.worse st', rows ++ [row])) (s, .ok, [])

/-- EXP_SELECT (R276, R278 to R283). -/
def expSelectEff (n : Nat) (s : State) : State :=
  let (s, st, r) := s.requestBlock n
  let s := s.bump K.routeSelects
  if st ≠ .ok then s.dataDone n st []
  else if !Sel.inRange r then s.cancelRoute n K.routesCancelled
  else
    let (s, mraw) := s.readArray n (Sel.mapAddr r) 4 (Sel.experts r)
    let (s, graw) := s.readArray n (Sel.groupAddr r) 2 (Sel.group r)
    let st := (mraw ++ graw).foldl (fun st e => st.worse e.1) .ok
    let map := mraw.map (·.2)
    let group := graw.map (·.2)
    if st ≠ .ok then s.dataDone n st []
    else if !s.groupOk group || !mapOk map group then s.cancelRoute n K.routesCancelled
    else
      let (s, st, rows) := s.readScores n r
      if st ≠ .ok then s.dataDone n st []
      else
        let nans := (rows.map fun row => (row.filter fIsNaN).length).sum
        let s := s.bump K.routeNan nans
        let sel := (List.range (Sel.experts r)).map fun e =>
          bestOf (Sel.capacity r) (columnCands (Sel.minEnable r) (Sel.minScore r) e rows)
        let taken := (List.range (Sel.tokens r)).map fun t => (takersOf sel t).length
        if Sel.cap r = 0 ∧ taken.any (fun k => decide (k > 8)) then s.cancelRoute n K.routesCancelled
        else
          let kept := (List.range (Sel.tokens r)).map (keptOf (Sel.cap r) sel)
          let total := (kept.map List.length).sum
          let s := s.bump K.tokensCapped (taken.sum - total)
          let s := s.writeSelection n r map group kept
          let used := (List.range (Sel.experts r)).filter fun c => kept.any fun k => k.any fun e => e.2 == c
          s.dataDone n .ok [out64 total, out64 used.length, out64 (kept.filter fun k => !k.isEmpty).length]

/-- EXP_SELECT (R276). -/
def execExpSelect (n : Nat) (s : State) : Host.Outcome State Fault Refusal :=
  runCore (fun s => s.onItem n Op.expSelect (expSelectEff n)) s

/-- Request fields of EXP_SEND (R285). -/
def Snd.listAddr (r : Block) : Nat := bits r 448 64
def Snd.rowsAddr (r : Block) : Nat := bits r 384 64
def Snd.groupAddr (r : Block) : Nat := bits r 320 64
def Snd.recvAddr (r : Block) : Nat := bits r 256 64
def Snd.combineAddr (r : Block) : Nat := bits r 192 64
def Snd.workAddr (r : Block) : Nat := bits r 128 64
def Snd.tag (r : Block) : BitVec 32 := BitVec.ofNat 32 (bits r 96 32)
def Snd.experts (r : Block) : Nat := bits r 82 14
def Snd.group (r : Block) : Nat := bits r 69 13
def Snd.locals (r : Block) : Nat := bits r 58 11
def Snd.inUnits (r : Block) : Nat := bits r 49 9
def Snd.outUnits (r : Block) : Nat := bits r 40 9
def Snd.slots (r : Block) : Nat := bits r 36 4
def Snd.cls (r : Block) : Nat := bits r 32 4

/-- STREAM and SEQ of a TAG (R284). -/
def tagStream (t : BitVec 32) : Nat := bits t 24 8
def tagSeq (t : BitVec 32) : Nat := bits t 0 24

/-- The newest SEQ opened of a stream (R284). -/
def State.newestSeq (s : State) (stream : Nat) : Nat := Sparse.get s.route.streamSeq 0 stream

/-- A TAG's SEQ comes after the newest one opened of its stream (R284, R286, R289). -/
def State.tagLater (s : State) (t : BitVec 32) : Bool := serialLt 24 (s.newestSeq (tagStream t)) (tagSeq t)

/-- The open exchange of a TAG. -/
def State.exchange (s : State) (t : BitVec 32) : Option Exchange := s.route.exchanges.find? (·.tag == t)

/-- Changes an open exchange. -/
def State.modExchange (s : State) (t : BitVec 32) (f : Exchange → Exchange) : State :=
  { s with route := { s.route with exchanges := modWhere (fun x => x.tag == t) f s.route.exchanges } }

/-- Count fields of EXP_SEND are in range (R285, R286). -/
def Snd.inRange (r : Block) : Bool :=
  let ok (x lo hi : Nat) : Bool := decide (lo ≤ x ∧ x ≤ hi)
  ok (Snd.experts r) 1 8192 && ok (Snd.group r) 1 4096 && ok (Snd.locals r) 0 1024 && ok (Snd.inUnits r) 1 256
    && ok (Snd.outUnits r) 1 256 && ok (Snd.slots r) 1 8 && ok (Snd.cls r) 0 0xB

/-- A destination's run of the send-list region: (first assignment, assignments, first expert, experts) (R282). -/
def destRun (e : Nat) : Nat × Nat × Nat × Nat := (fld e 96 32, fld e 64 32, fld e 32 32, fld e 0 32)

/-- The run of a chip in the send-list region of an exchange, as it lies in memory (R282). -/
def State.runOf (s : State) (x : Exchange) (chip : Nat) : Nat × Nat × Nat × Nat :=
  let i := (x.group.findIdx? (· == chip)).getD 0
  destRun (s.peekNat (Snd.listAddr x.req + 16 * i) 16)

/-- This chip's counts for the experts of a chip, as (expert, count) (R282). -/
def State.sentCounts (s : State) (x : Exchange) (chip : Nat) : List (Nat × Nat) :=
  let (_, _, first, n) := s.runOf x chip
  (List.range n).map fun k =>
    let e := s.peekNat (countTableAt (Snd.listAddr x.req) x.group.length + 4 * (first + k)) 4
    (fld e 16 16, fld e 0 14)

/-- The fields of an entry of the assignment list: (expert, token, slot) (R282). -/
def assignFields (e : Nat) : Nat × Nat × Nat := (fld e 48 16, fld e 31 17, fld e 28 3)

/-- Where the run of a destination, as its entry of the destination table gives it, lies in the assignment list of an
EXP_SEND (R282). -/
def Snd.assignsAt (r : Block) (dest : Nat) : Nat :=
  assignListAt (Snd.listAddr r) (Snd.group r) (Snd.experts r) + 8 * (destRun dest).1

/-- A request outside an exchange's partition's windows: counted, raised, and its context torn down (R200). -/
def State.exchangeViolation (s : State) (x : Exchange) : State :=
  ((s.bump K.partitionViolations).raise A.partitionViolation).startL0 x.ctx 0x03

/-- The assignments of this chip to a chip (R282); what lies outside the partition's windows reads as zeros (R200). -/
def State.assignments (s : State) (x : Exchange) (chip : Nat) : State × List (Nat × Nat × Nat) :=
  let i := (x.group.findIdx? (· == chip)).getD 0
  let dest := s.peekNat (Snd.listAddr x.req + 16 * i) 16
  (List.range (destRun dest).2.1).foldl (fun acc k =>
    let a := Snd.assignsAt x.req dest + 8 * k
    if acc.1.inWindow x.part a 8 then (acc.1, acc.2 ++ [assignFields (acc.1.peekNat a 8)])
    else (acc.1.exchangeViolation x, acc.2 ++ [assignFields 0])) (s, [])

/-- An entry of the receive table (R286). -/
def recvEntry (v : Nat) : ExpertRecv :=
  { expert := fld v 112 16, inAddr := fld v 192 64, outAddr := fld v 128 64, maxRows := fld v 64 32 }

/-- Header of an exchange record (R287). -/
def exchHeader (tag : BitVec 32) (source kind expert index items status : Nat) : BitVec 128 :=
  BitVec.ofNat 128 (at' tag.toNat 96 32 + at' source 84 12 + at' kind 81 3 + at' expert 65 16 + at' index 48 17
    + at' items 37 11 + at' status 29 8)

/-- Fields of an exchange record's header (R287). -/
def Exc.tag (h : BitVec 128) : BitVec 32 := BitVec.ofNat 32 (bits h 96 32)
def Exc.source (h : BitVec 128) : Nat := bits h 84 12
def Exc.kind (h : BitVec 128) : Nat := bits h 81 3
def Exc.expert (h : BitVec 128) : Nat := bits h 65 16
def Exc.index (h : BitVec 128) : Nat := bits h 48 17
def Exc.items (h : BitVec 128) : Nat := bits h 37 11
def Exc.status (h : BitVec 128) : Nat := bits h 29 8

/-- The records of an exchange in the early buffer (R289). -/
def State.earlyOf (s : State) (t : BitVec 32) : List RemoteRec := s.route.early.filter fun e => Exc.tag e.header == t

/-- They leave the early buffer. -/
def State.dropEarly (s : State) (t : BitVec 32) : State :=
  { s with route := { s.route with early := s.route.early.filter fun e => Exc.tag e.header ≠ t } }

/-- Records that a data task sends, each waiting for its acceptance (R288, R293): (chip, VC, header, payload). -/
def State.sendExchange (s : State) (n : Nat) (l : List (Nat × Nat × BitVec 128 × List (BitVec 128))) : State :=
  let s := s.modSlot n fun q => { q with unaccepted := l.length, status := .ok, out0 := 0 }
  let s := s.bump K.exchangeRecordsSent l.length
  s.each l fun s r => s.sendRecord r.1 r.2.1 Fam.exchange (r.2.2.1 :: r.2.2.2) (.task n)

/-- The payload slots of a COUNT record (R282, R287). -/
def countSlots (cs : List (Nat × Nat)) : List (BitVec 128) := byteSlots (cs.flatMap fun c => leBytes 4 (countEntry c.1 c.2))

/-- A row read for a record, with the hint DISCARD_AFTER_USE: its bytes, or all ones with the status of the failed read
(R295, R302). -/
def State.rowRecord (s : State) (n addr bytes : Nat) : State × Status × List (BitVec 128) :=
  let (s, st, b) := s.taskRead n addr bytes 3
  (s, st, byteSlots (if st = .ok then b else List.replicate bytes 0xFF#8))

/-- How often a value stands before a place of a list: INDEX of a row among those of its expert (R287). -/
def countBefore (l : List Nat) (i v : Nat) : Nat := ((l.take i).filter (· == v)).length

/-- The records of an EXP_SEND (R288, R295); runs holds each destination with its assignments, in group order. -/
def State.sendRecords (s : State) (n : Nat) (x : Exchange) (runs : List (Nat × List (Nat × Nat × Nat))) :
    State × Status × List (Nat × Nat × BitVec 128 × List (BitVec 128)) :=
  let me := s.chipId
  let counts := x.group.map fun g =>
    let cs := s.sentCounts x g
    (g, 3, exchHeader x.tag me 0 0 0 cs.length 0, countSlots cs)
  runs.foldl (fun acc run =>
    run.2.zipIdx.foldl (fun acc a =>
      let (s, st, l) := acc
      let bytes := Snd.inUnits x.req * 64
      let (s, st', p) := s.rowRecord n (Snd.rowsAddr x.req + a.1.2.1 * bytes) bytes
      let j := countBefore (run.2.map (·.1)) a.2 a.1.1
      (s, st.worse st', l ++ [(run.1, 2, exchHeader x.tag me 1 a.1.1 j 0 st'.code, p)])) acc) (s, .ok, counts)

/-- Every SEND_COUNT of the group has been processed: the placement of its rows is known (R290). -/
def Exchange.placed (x : Exchange) : Bool := x.group.all fun g => x.countFrom.contains g

/-- N(e), the rows of an expert (R290). -/
def Exchange.total (x : Exchange) (e : Nat) : Nat := ((x.counts.filter fun c => c.2.1 == e).map fun c => c.2.2).sum

/-- P(s, e), the rows of an expert from chips with IDs below s (R290). -/
def Exchange.prefix_ (x : Exchange) (source e : Nat) : Nat :=
  ((x.counts.filter fun c => c.2.1 == e && decide (c.1 < source)).map fun c => c.2.2).sum

/-- The rows that a chip sends to an expert (R290). -/
def Exchange.countOf (x : Exchange) (source e : Nat) : Nat :=
  ((x.counts.filter fun c => c.2.1 == e && c.1 == source).map fun c => c.2.2).sum

/-- N(e) raised to the tile multiple (R291). -/
def Exchange.padded (x : Exchange) (e : Nat) : Nat := ceilDiv (x.total e) (Nat.max 1 x.tm) * Nat.max 1 x.tm

/-- An expert of an exchange, if it is in the receive table. -/
def Exchange.expert (x : Exchange) (e : Nat) : Option ExpertRecv := x.experts.find? (·.expert == e)

/-- Changes an expert of an exchange. -/
def Exchange.modExpert (x : Exchange) (e : Nat) (f : ExpertRecv → ExpertRecv) : Exchange :=
  { x with experts := modWhere (fun r => r.expert == e) f x.experts }

/-- Bytes written for an exchange, block by block: what lies outside its partition's windows is discarded and the job
is torn down (R200). -/
def State.exchangeWrite (s : State) (x : Exchange) (addr : Nat) (bytes : List Byte) : State :=
  s.each (blockPieces (bytes.length + 1) addr bytes) fun s p =>
    if s.inWindow x.part p.1 p.2.length then s.writePart p.1 p.2 .unit 0 else s.exchangeViolation x

/-- How the receive of an expert resolves, if it does (R291). -/
def Exchange.recvOutcome (x : Exchange) (e : Nat) : Option Status :=
  match x.expert e with
  | none => some .cancelled
  | some r =>
    if !x.placed then (if x.timedOut then some .timeout else none)
    else if x.padded e > r.maxRows then some .cancelled
    else if x.total e = 0 then some .skipped
    else if r.arrived ≥ x.total e && r.padded then some .ok
    else if x.timedOut then some .timeout
    else none

/-- What a resolution of an EXP_RECV counts and raises (R291). -/
def State.countRecv (s : State) (st : Status) : State :=
  if st = .cancelled then s.raise A.exchangeProtocol
  else if st = .skipped then s.bump K.expertsSkipped
  else if st = .timeout then s.bump K.exchangeTimeouts
  else s

/-- An EXP_RECV resolves: its row count, or no value (R291, R293). -/
def State.resolveRecv (s : State) (tag : BitVec 32) (n e : Nat) (st : Status) : State :=
  let rows := ((s.exchange tag).map fun x => x.total e).getD 0
  let mark (x : Exchange) : Exchange :=
    let x := { x with recvParked := x.recvParked.filter fun p => p.1 ≠ n }
    if st = .ok then x.modExpert e fun r => { r with ok := true } else x
  ((s.countRecv st).modExchange tag mark).resolve n st (if st = .ok then out64 (at' rows 32 32) else 0)

/-- Parked EXP_RECVs of an exchange that can resolve do (R291). -/
def State.serveRecvs (s : State) (tag : BitVec 32) : State :=
  match s.exchange tag with
  | none => s
  | some x => s.each x.recvParked fun s p =>
      match (s.exchange tag).bind fun x => x.recvOutcome p.2 with
      | some st => s.resolveRecv tag p.1 p.2 st
      | none => s

/-- Whether the returns of an exchange are complete (R294). -/
def Exchange.returnsIn (x : Exchange) : Bool :=
  (x.group.all fun g => x.retFrom.contains g) && decide (x.retRows ≥ x.retExpected)

/-- How the EXP_COLLECT of an exchange resolves, if it does (R294, R295). -/
def Exchange.collectOutcome (x : Exchange) : Option Status :=
  let base := x.status.worse (if x.retBad then .cancelled else .ok)
  if x.returnsIn then some base else if x.timedOut then some (base.worse .timeout) else none

/-- An EXP_COLLECT resolves; the exchange closes if its EXP_RETURN has completed (R284, R294). -/
def State.resolveCollect (s : State) (tag : BitVec 32) (n : Nat) (st : Status) : State :=
  match s.exchange tag with
  | none => s
  | some x =>
    let s := if x.retBad then s.raise A.exchangeProtocol else s
    let s := if x.timedOut && !x.returnsIn then s.bump K.exchangeTimeouts else s
    let s := s.resolve n st (out64 x.retRows)
    let s := s.modExchange tag fun x => { x with collected := true, collectParked := none }
    { s with route := { s.route with exchanges := s.route.exchanges.filter fun x => !(x.returned && x.collected) } }

/-- The parked EXP_COLLECT of an exchange resolves if it can (R294). -/
def State.serveCollect (s : State) (tag : BitVec 32) : State :=
  match (s.exchange tag).bind fun x => x.collectParked.bind fun n => x.collectOutcome.map fun st => (n, st) with
  | some (n, st) => s.resolveCollect tag n st
  | none => s

/-- The pad rows of an expert all of whose rows are there are written as zero (R94, R291). -/
def State.padExpert (tag : BitVec 32) (s : State) (e : Nat) : State :=
  match s.exchange tag with
  | none => s
  | some x =>
    match x.expert e with
    | none => s
    | some r =>
      if x.placed && !r.padded && decide (x.total e ≤ r.arrived) && decide (0 < x.total e) && decide (x.padded e ≤ r.maxRows) then
        let w := Snd.inUnits x.req * 64
        let n := (x.padded e - x.total e) * w
        let s := if n = 0 then s else s.exchangeWrite x (r.inAddr + x.total e * w) (List.replicate n 0)
        s.modExchange tag fun x => x.modExpert e fun r => { r with padded := true }
      else s

/-- A SEND_ROW whose placement is known is written; rows of an expert that overflows are discarded (R290, R291). -/
def State.placeRow (tag : BitVec 32) (s : State) (rec' : RemoteRec) : State :=
  let h := rec'.header
  let e := Exc.expert h
  match s.exchange tag with
  | none => s
  | some x =>
    match x.expert e with
    | none => s
    | some r =>
      if x.padded e > r.maxRows then s
      else
        let w := Snd.inUnits x.req * 64
        let bytes := if Exc.status h = 0 then (slotBytes rec'.payload).take w else List.replicate w 0xFF#8
        let s := s.exchangeWrite x (r.inAddr + (x.prefix_ (Exc.source h) e + Exc.index h) * w) bytes
        let s := s.modExchange tag fun x => x.modExpert e fun r => { r with arrived := r.arrived + 1 }
        s.padExpert tag e

/-- The entries of a COUNT record (R282, R287). -/
def countsOf (r : RemoteRec) : List (Nat × Nat) :=
  let bytes := slotBytes r.payload
  (List.range (Exc.items r.header)).map fun i =>
    let e := ofLe (slice bytes (4 * i) 4)
    (fld e 16 16, fld e 0 14)

/-- A SEND_COUNT of an open exchange: its count entries are stored, and with the last one the rows that wait in the row
buffer, or for room in it, find their places (R289, R290). -/
def State.takeSendCount (s : State) (x : Exchange) (r : RemoteRec) : State :=
  let src := Exc.source r.header
  if !x.group.contains src || x.countFrom.contains src then s
  else
    let cs := countsOf r
    let i := (x.group.findIdx? (· == src)).getD 0
    let s := s.each cs.zipIdx fun s c =>
      s.exchangeWrite x (Snd.workAddr x.req + (i * Snd.locals x.req + c.2) * 4) (leBytes 4 (countEntry c.1.1 c.1.2))
    let s := s.modExchange x.tag fun x => { x with
      countFrom := x.countFrom ++ [src], counts := x.counts ++ cs.map fun c => (src, c.1, c.2) }
    if ((s.exchange x.tag).map Exchange.placed).getD false then
      let held := x.rowsHeld ++ s.earlyOf x.tag
      let s := (s.dropEarly x.tag).modExchange x.tag fun x => { x with rowsHeld := [] }
      ((s.each held (State.placeRow x.tag)).each (x.experts.map (·.expert)) (State.padExpert x.tag)).serveRecvs x.tag
    else s

/-- Beats that a record takes in a buffer. -/
def recordBeats (r : RemoteRec) : Nat := ceilDiv (r.payload.length + 1) 4

/-- A SEND_ROW of an open exchange: it is written, or waits for its placement (R289, R290). -/
def State.takeSendRow (s : State) (x : Exchange) (r : RemoteRec) : State :=
  if x.placed then (s.placeRow x.tag r).serveRecvs x.tag
  else s.modExchange x.tag fun x => { x with rowsHeld := x.rowsHeld ++ [r] }

/-- A RETURN_COUNT of an open exchange is compared with what this chip sent (R294). -/
def State.takeReturnCount (s : State) (x : Exchange) (r : RemoteRec) : State :=
  let src := Exc.source r.header
  if !x.group.contains src || x.retFrom.contains src then s
  else
    let cs := countsOf r
    let bad := cs != s.sentCounts x src
    (s.modExchange x.tag fun x => { x with
      retFrom := x.retFrom ++ [src], retBad := x.retBad || bad, retExpected := x.retExpected + (cs.map (·.2)).sum }).serveCollect
        x.tag

/-- A RETURN_ROW of an open exchange is written to its token's combine slot (R294, R295). -/
def State.takeReturnRow (s : State) (x : Exchange) (r : RemoteRec) : State :=
  let h := r.header
  let (s, run) := s.assignments x (Exc.source h)
  match (run.filter fun a => a.1 == Exc.expert h)[Exc.index h]? with
  | none => s
  | some a =>
    let w := Snd.outUnits x.req * 64
    let st := carriedStatus (Exc.status h)
    let s := s.exchangeWrite x (Snd.combineAddr x.req + (a.2.1 * Snd.slots x.req + a.2.2) * w) ((slotBytes r.payload).take w)
    (s.modExchange x.tag fun x => { x with retRows := x.retRows + 1, status := x.status.worse st }).serveCollect x.tag

/-- A record of an open exchange is processed (R289). -/
def State.exchangeRecord (s : State) (r : RemoteRec) : State :=
  match s.exchange (Exc.tag r.header) with
  | none => s.bump K.exchangeRecordsStale
  | some x =>
    match Exc.kind r.header with
    | 0 => s.takeSendCount x r
    | 1 => s.takeSendRow x r
    | 2 => s.takeReturnCount x r
    | 3 => s.takeReturnRow x r
    | _ => s

/-- A record finds the early buffer or the row buffer full: it stays on its virtual channel (R289). -/
def State.recordHeld (s : State) (r : RemoteRec) : Bool :=
  let beats (l : List RemoteRec) : Nat := (l.map recordBeats).sum
  match s.exchange (Exc.tag r.header) with
  | some x => Exc.kind r.header == 1 && !x.placed
      && decide (beats (s.route.exchanges.flatMap (·.rowsHeld)) + recordBeats r > 2048)
  | none => s.tagLater (Exc.tag r.header) && decide (beats s.route.early + recordBeats r > 4096)

/-- An exchange record is taken: processed, early, or stale (R289). -/
def State.takeExchange (s : State) (r : RemoteRec) : State :=
  if (s.exchange (Exc.tag r.header)).isNone && s.tagLater (Exc.tag r.header) then
    { s with route := { s.route with early := s.route.early ++ [r] } }
  else s.exchangeRecord r

/-- The records that a record of the early buffer stands for once its exchange is open: before that, the length of a ROW
record is not known, and those packed behind it are part of it (R289, R337; log 43). -/
def State.unpacked (s : State) (r : RemoteRec) : List RemoteRec :=
  let l := r.header :: r.payload
  (s.cutRecords Fam.exchange true l.length l).1.filterMap fun c =>
    match c with
    | [] => none
    | h :: t => some { src := r.src, header := h, payload := t }

/-- An early record is processed as its exchange opens: a SEND_ROW that the row buffer has no room for waits on, a
record behind it of another exchange is handled by its own TAG (R289). -/
def State.earlyRecord (s : State) (r : RemoteRec) : State :=
  if s.recordHeld r then { s with route := { s.route with early := s.route.early ++ [r] } } else s.takeExchange r

/-- The early records of an exchange that has opened are processed in arrival order (R289). -/
def State.processEarly (s : State) (tag : BitVec 32) : State :=
  (s.dropEarly tag).each (s.earlyOf tag) fun s r =>
    let l := s.unpacked r
    (s.each (l.drop 1) fun s p => s.checkStatus (Exc.status p.header)).each l State.earlyRecord

/-- An exchange record of a kind arrives, ROW kinds on VC 2 and COUNT kinds on VC 3; while its buffer is full it is held
there (R289, R337, R340). A STATUS that is no final-result code raises LINK_PROTOCOL (R494). -/
def exchangeEff (kind src : Nat) (h : BitVec 128) (payload : List (BitVec 128)) (s : State) : State :=
  let r : RemoteRec := { src := src, header := h, payload := payload }
  if Exc.kind h ≠ kind then s
  else
    s.serveRecord { src := src, vc := 3 - kind % 2, family := Fam.exchange, slots := h :: payload }
      (holdsWhile (s.recordHeld r) fun s => (s.checkStatus (Exc.status h)).takeExchange r)

/-- SEND_COUNT (R290). -/
def execSendCount (src : Nat) (h : BitVec 128) (payload : List (BitVec 128)) (s : State) : Host.Outcome State Fault Refusal :=
  runCore (exchangeEff 0 src h payload) s

/-- SEND_ROW (R290). -/
def execSendRow (src : Nat) (h : BitVec 128) (payload : List (BitVec 128)) (s : State) : Host.Outcome State Fault Refusal :=
  runCore (exchangeEff 1 src h payload) s

/-- RETURN_COUNT (R294). -/
def execReturnCount (src : Nat) (h : BitVec 128) (payload : List (BitVec 128)) (s : State) :
    Host.Outcome State Fault Refusal := runCore (exchangeEff 2 src h payload) s

/-- RETURN_ROW (R294). -/
def execReturnRow (src : Nat) (h : BitVec 128) (payload : List (BitVec 128)) (s : State) : Host.Outcome State Fault Refusal :=
  runCore (exchangeEff 3 src h payload) s

/-- The checks of R286 on an EXP_SEND whose tables read so. -/
def State.sendOk (s : State) (r : Block) (group dest counts : List Nat) (recv : List ExpertRecv) : Bool :=
  let i := (group.findIdx? (· == s.chipId)).getD 0
  let (_, _, first, n) := destRun (nth dest 0 i)
  s.tagLater (Snd.tag r) && Snd.inRange r && s.groupOk group && ascending (recv.map (·.expert))
    && recv.map (·.expert) == (slice counts first n).map fun e => fld e 16 16

/-- EXP_SEND opens its exchange, processes its early records, and sends its own (R284 to R289). -/
def State.openExchange (s : State) (n : Nat) : State :=
  let (s, st, r) := s.requestBlock n
  if st ≠ .ok then s.dataDone n st []
  else if !Snd.inRange r then s.cancelRoute n K.exchangesCancelled
  else
    let (s, graw) := s.readArray n (Snd.groupAddr r) 2 (Snd.group r)
    let (s, draw) := s.readArray n (Snd.listAddr r) 16 (Snd.group r)
    let (s, craw) := s.readArray n (countTableAt (Snd.listAddr r) (Snd.group r)) 4 (Snd.experts r)
    let (s, rraw) := s.readArray n (Snd.recvAddr r) 32 (Snd.locals r)
    let st := (graw ++ draw ++ craw ++ rraw).foldl (fun st e => st.worse e.1) .ok
    let recv := rraw.map fun e => recvEntry e.2
    let group := graw.map (·.2)
    if st ≠ .ok then s.dataDone n st []
    else if !s.sendOk r group (draw.map (·.2)) (craw.map (·.2)) recv then s.cancelRoute n K.exchangesCancelled
    else
      let (s, araw) := draw.foldl (fun acc d =>
        let (s, l) := acc.1.readArray n (Snd.assignsAt r d.2) 8 (destRun d.2).2.1
        (s, acc.2 ++ [l])) (s, [])
      let st := araw.flatten.foldl (fun st e => st.worse e.1) .ok
      if st ≠ .ok then s.dataDone n st [] else
      let q := s.slot n
      let tag := Snd.tag r
      let x : Exchange := { tag := tag, ctx := q.ctx, gen := q.gen, part := q.part, tm := s.slotTile n (Snd.cls r)
                            req := r, group := group, experts := recv, openAt := s.clk.units }
      let route : Routing := { s.route with
        exchanges := s.route.exchanges ++ [x]
        streamSeq := Sparse.set s.route.streamSeq 0 (tagStream tag) (tagSeq tag)
        sendWaits := s.route.sendWaits.filter fun k => k ≠ n }
      let s := { s with route := route }
      let kept (e : RemoteRec) : Bool := s.tagLater (Exc.tag e.header) || (s.exchange (Exc.tag e.header)).isSome
      let stale := (s.route.early.filter fun e => !kept e).length
      let s := { s with route := { s.route with early := s.route.early.filter kept } }
      let s := (s.bump K.exchangeRecordsStale stale).processEarly tag
      let (s, st, l) := s.sendRecords n x (group.zip (araw.map fun l => l.map fun e => assignFields e.2))
      (s.modExchange tag fun x => { x with status := x.status.worse st }).sendExchange n l

/-- EXP_SEND (R284): with 8 exchanges open it waits. -/
def expSendEff (n : Nat) (s : State) : State :=
  if (s.slot n).unaccepted > 0 ∨ s.route.sendWaits.contains n then s
  else if s.route.exchanges.length ≥ 8 then
    { s with route := { s.route with sendWaits := s.route.sendWaits ++ [n] } }
  else s.openExchange n

/-- EXP_SEND (R276). -/
def execExpSend (n : Nat) (s : State) : Host.Outcome State Fault Refusal :=
  runCore (fun s => s.onItem n Op.expSend (expSendEff n)) s

/-- A waiting EXP_SEND opens its exchange, in the order in which they began to wait (R284). -/
def exchangeOpenEff (n : Nat) (s : State) : State :=
  if s.route.sendWaits.head? = some n ∧ s.route.exchanges.length < 8 ∧ s.isItem n Op.expSend then
    State.openExchange { s with route := { s.route with sendWaits := s.route.sendWaits.drop 1 } } n
  else s

/-- EXCHANGE_OPEN (R284). -/
def execExchangeOpen (n : Nat) (s : State) : Host.Outcome State Fault Refusal := runCore (exchangeOpenEff n) s

/-- TAG and expert of an EXP_RECV, EXP_RETURN or EXP_COLLECT (R276). -/
def State.argTag (s : State) (n : Nat) : BitVec 32 := BitVec.ofNat 32 (fld (Tpl.arg (s.slotTpl n)) 16 32)
def State.argExpert (s : State) (n : Nat) : Nat := fld (Tpl.arg (s.slotTpl n)) 0 16

/-- The records of an EXP_RETURN (R293, R295). -/
def State.returnRecords (s : State) (n : Nat) (x : Exchange) : State × List (Nat × Nat × BitVec 128 × List (BitVec 128)) :=
  let me := s.chipId
  let rows (src : Nat) (e : ExpertRecv) : Nat := if e.ok then x.countOf src e.expert else 0
  let counts := x.group.map fun g =>
    (g, 3, exchHeader x.tag me 2 0 0 x.experts.length 0, countSlots (x.experts.map fun e => (e.expert, rows g e)))
  let w := Snd.outUnits x.req * 64
  x.experts.foldl (fun acc e => x.group.foldl (fun acc g => (List.range (rows g e)).foldl (fun acc j =>
    let (s, st, p) := acc.1.rowRecord n (e.outAddr + (x.prefix_ g e.expert + j) * w) w
    (s, acc.2 ++ [(g, 2, exchHeader x.tag me 3 e.expert j 0 st.code, p)])) acc) acc) (s, counts)

/-- EXP_RETURN (R293). -/
def expReturnEff (n : Nat) (s : State) : State :=
  if (s.slot n).unaccepted > 0 then s
  else
    match s.exchange (s.argTag n) with
    | none => (s.raise A.exchangeProtocol).dataDone n .cancelled []
    | some x =>
      let (s, l) := s.returnRecords n x
      (s.modExchange x.tag fun x => { x with returnTask := some n }).sendExchange n l

/-- EXP_RETURN (R276). -/
def execExpReturn (n : Nat) (s : State) : Host.Outcome State Fault Refusal :=
  runCore (fun s => s.onItem n Op.expReturn (expReturnEff n)) s

/-- EXP_RECV is checked: it resolves, or is parked until its expert's receive is complete (R276, R291). -/
def expRecvEff (n : Nat) (s : State) : State :=
  if !s.examined n Op.expRecv then s
  else
    let tag := s.argTag n
    let e := s.argExpert n
    match s.exchange tag with
    | none => (s.countRecv .cancelled).resolve n .cancelled
    | some x =>
      match x.recvOutcome e with
      | some st => s.resolveRecv tag n e st
      | none => (s.modSlot n fun q => { q with parked := true }).modExchange tag fun x =>
          { x with recvParked := x.recvParked ++ [(n, e)] }

/-- EXP_RECV (R291). -/
def execExpRecv (n : Nat) (s : State) : Host.Outcome State Fault Refusal := runCore (expRecvEff n) s

/-- EXP_COLLECT is checked: it resolves, or is parked until the returns are complete (R276, R294). -/
def expCollectEff (n : Nat) (s : State) : State :=
  if !s.examined n Op.expCollect then s
  else
    let tag := s.argTag n
    match s.exchange tag with
    | none => (s.raise A.exchangeProtocol).resolve n .cancelled
    | some x =>
      match x.collectOutcome with
      | some st => s.resolveCollect tag n st
      | none => (s.modSlot n fun q => { q with parked := true }).modExchange tag fun x => { x with collectParked := some n }

/-- EXP_COLLECT (R294). -/
def execExpCollect (n : Nat) (s : State) : Host.Outcome State Fault Refusal := runCore (expCollectEff n) s

/-- EXCHANGE_TIMEOUT_US has passed since an exchange opened: its waits resolve with TIMEOUT (R291, R294). -/
def exchangeTimeoutEff (tag : BitVec 32) (s : State) : State :=
  ((s.modExchange tag fun x => { x with timedOut := true }).serveRecvs tag).serveCollect tag

/-- EXCHANGE_TIMEOUT (R291). -/
def execExchangeTimeout (tag : BitVec 32) (s : State) : Host.Outcome State Fault Refusal :=
  runCore (exchangeTimeoutEff tag) s

/-- A context's exchanges close when its generation is incremented (R284, R297). -/
def State.closeExchanges (s : State) (c : Nat) : State :=
  { s with route := { s.route with
    exchanges := s.route.exchanges.filter fun x => x.ctx ≠ c
    sendWaits := s.route.sendWaits.filter fun n => (s.slot n).ctx ≠ c } }

end Sys2Proof.Machine
end

