-- ==== Sys2Proof/Machine/DataTasks.lean ====
section
/-! DEFINITION. The data tasks of the Spill and Copy DMA and of the Digest Engine (R217, R378). -/
namespace Sys2Proof.Machine

/-- Opcodes of the Spill and Copy DMA and of the Digest Engine (R217, R378). -/
def Op.dmaCopy : Nat := 0x0400
def Op.dmaFill : Nat := 0x0401
def Op.digest : Nat := 0x0500

/-- Request fields of DMA_COPY and DMA_FILL (R217). -/
def Dma.src (r : Block) : Nat := bits r 448 64
def Dma.dst (r : Block) : Nat := bits r 384 64
def Dma.bytes (r : Block) : Nat := bits r 320 64
def Dma.pattern (r : Block) : Nat := bits r 256 64

/-- The checks of R217 that both operations share. -/
def Dma.shapeOk (r : Block) : Bool :=
  Dma.bytes r % 64 == 0 && decide (64 ≤ Dma.bytes r ∧ Dma.bytes r ≤ 2 ^ 40) && Dma.dst r % 64 == 0
    && Dma.src r % 64 == 0 && bits r 0 256 == 0

/-- The checks of R217 on a copy: a zero PATTERN and ranges that do not overlap. -/
def Dma.copyOk (r : Block) : Bool :=
  Dma.shapeOk r && Dma.pattern r == 0
    && decide (Dma.src r + Dma.bytes r ≤ Dma.dst r ∨ Dma.dst r + Dma.bytes r ≤ Dma.src r)

/-- The checks of R217 on a fill: a zero SRC_ADDR. -/
def Dma.fillOk (r : Block) : Bool := Dma.shapeOk r && Dma.src r == 0

/-- One block of a copy: what cannot be read is written as all ones (R217). -/
def State.copyBlock (n src dst : Nat) (acc : State × Status) (i : Nat) : State × Status :=
  let (s, st) := acc
  let (s, st', b) := s.taskRead n (src + 64 * i) 64
  (s.taskWrite n (dst + 64 * i) (if st' = .ok then b else List.replicate 64 0xFF#8), st.worse st')

/-- DMA_COPY (R217). -/
def dmaCopyEff (n : Nat) (s : State) : State :=
  let (s, st, r) := s.requestBlock n
  if st ≠ .ok then s.dataDone n st []
  else if !Dma.copyOk r then s.dataDone n .cancelled []
  else
    let k := Dma.bytes r / 64
    let (s, st) := (List.range k).foldl (State.copyBlock n (Dma.src r) (Dma.dst r)) (s, .ok)
    s.dataDone n st [out64 k]

/-- DMA_COPY (R217). -/
def execDmaCopy (n : Nat) (s : State) : Host.Outcome State Fault Refusal :=
  runCore (fun s => s.onItem n Op.dmaCopy (dmaCopyEff n)) s

/-- A block whose every 8-byte word is a pattern (R217). -/
def patternBlock (p : Nat) : List Byte := (List.range 8).flatMap fun _ => leBytes 8 p

/-- DMA_FILL (R217). -/
def dmaFillEff (n : Nat) (s : State) : State :=
  let (s, st, r) := s.requestBlock n
  if st ≠ .ok then s.dataDone n st []
  else if !Dma.fillOk r then s.dataDone n .cancelled []
  else
    let k := Dma.bytes r / 64
    let s := s.each (List.range k) fun s i => s.taskWrite n (Dma.dst r + 64 * i) (patternBlock (Dma.pattern r))
    s.dataDone n .ok [out64 k]

/-- DMA_FILL (R217). -/
def execDmaFill (n : Nat) (s : State) : Host.Outcome State Fault Refusal :=
  runCore (fun s => s.onItem n Op.dmaFill (dmaFillEff n)) s

/-- The checks of R378 on a digest request: BYTES from 0 to 2^40, OUT_ADDR aligned, reserved bits zero. -/
def digestOk (r : Block) : Bool :=
  bits r 0 320 == 0 && decide (bits r 384 64 ≤ 2 ^ 40) && bits r 320 64 % 64 == 0

/-- DIGEST (R378). -/
def digestEff (n : Nat) (s : State) : State :=
  let (s, st, r) := s.requestBlock n
  if st ≠ .ok then s.dataDone n st []
  else if !digestOk r then s.dataDone n .cancelled []
  else
    let (s, st, b) := s.taskRead n (bits r 448 64) (bits r 384 64)
    if st ≠ .ok then s.dataDone n st []
    else
      let d := sha256 b
      let s := s.taskWrite n (bits r 320 64) (d ++ List.replicate 32 0)
      s.dataDone n .ok ((List.range 4).map fun i => out64 (ofLe (slice d (8 * i) 8)))

/-- DIGEST (R378). -/
def execDigest (n : Nat) (s : State) : Host.Outcome State Fault Refusal :=
  runCore (fun s => s.onItem n Op.digest (digestEff n)) s

end Sys2Proof.Machine
end

