-- ==== Sys2Proof/Machine/Doorbells.lean ====
section
/-! DEFINITION. Doorbells and the records they accept, apertures, queue control and configuration, and the release of
results (R132 to R137, R141 to R143, R147 to R159, R187, R382, R386). -/
namespace Sys2Proof.Machine

/-- A request that a closed service refuses: in Night, while work drains for P2 or P3, and in P2 (R411, R438, R455). -/
def State.doorbellsClosed (s : State) : Bool :=
  s.resets.night || s.power.draining || decide (s.power.state ≥ 2)

/-- A queue is configured as a RESULT queue of a partition; it need not be enabled (R152). -/
def State.isResultQueue (s : State) (n part : Nat) : Bool :=
  (s.queue n).kind == kindResult && (s.queue n).part == part

/-- The queue that a JOB_OPEN names for the results of its unflowed requests (R152). -/
def Req.openQueue (r : Block) : Nat := fld (Req.operand r 0).toNat 0 14

/-- The partition that a record's PARTITION is held against: that of the context's job, and for a JOB_OPEN of a context
without one the load partition of the image it names (R62, R150). -/
def State.recordPart (s : State) (kind : Nat) (w : Block) : Option Nat :=
  let c := s.ctx (Req.ctx w)
  if c.job then some c.part
  else if kind = kindRequest ∧ Req.command w = cmdJobOpen then (s.image (Req.image w)).map (·.part)
  else none

/-- Whether the image that a record names is resident with its partition (R62). -/
def State.imageFits (s : State) (w : Block) : Bool :=
  match s.image (Req.image w) with
  | some i => i.part == Req.part w
  | none => false

/-- A context has a flow that is not FREE. -/
def State.hasFlow (s : State) (c : Nat) : Bool :=
  s.adm.flows.any fun e => e.2.ctx == c && s.flowState e.1 != .free

/-- The tests of a request record that R150 calls request_valid (R62, R63, R152, R402). -/
def State.requestValid (s : State) (w : Block) : Bool :=
  let c := s.ctx (Req.ctx w)
  if Req.command w = cmdStep then
    c.job && s.imageFits w && Req.image w == c.image
    && decide (Req.step w < ((s.image (Req.image w)).map (·.steps.length)).getD 0)
  else if Req.command w = cmdJobOpen then
    !Req.flowed w && !c.job && !c.openPending && c.tearing == .none && s.imageFits w
    && s.isResultQueue (Req.openQueue w) (Req.part w)
  else if Req.command w = cmdJobClose then !Req.flowed w && c.job && !s.hasFlow (Req.ctx w)
  else false

/-- Results outstanding of a flow: ACCEPT_SEQ less RELEASE_SEQ (R149). -/
def Flow.outstanding (f : Flow) : Nat := (f.acc - f.rel).toNat

/-- A step request continues its flow (R149, R150). -/
def State.flowAccepts (s : State) (w : Block) : Bool :=
  let f := s.flow (Req.flowId w)
  let st := s.flowState (Req.flowId w)
  (st == .joining || st == .joined || st == .suspended) && f.ctx == Req.ctx w && f.tin == Req.tin w
    && Req.flowSeq w == f.acc && decide (f.outstanding < 16)

/-- A hold entry is free (R149). -/
def State.holdRoom (s : State) : Bool := decide (s.adm.holds.length < 32768)

/-- Whether the doorbell accepts a record of a REQUEST or FLOW queue that has passed the tests before (R150). -/
def State.recordOk (s : State) (kind : Nat) (w : Block) : Bool :=
  if kind = kindRequest then s.requestValid w && (!Req.flowed w || s.flowAccepts w) && s.holdRoom
  else if Req.command w = cmdJoin then
    s.flowState (Req.flowId w) == .free && s.isResultQueue (FlowRec.resultQueue w) (Req.part w)
  else if Req.command w = cmdLeave then
    let f := s.flow (Req.flowId w)
    let st := s.flowState (Req.flowId w)
    (st == .joined || st == .suspended) && f.ctx == Req.ctx w && decide (f.outstanding < 16) && s.holdRoom
  else false

/-- The entry of a flow that a JOIN opens (R148, R150). -/
def FlowRec.entry (w : Block) (order : Nat) : Flow :=
  { state := .joining, ctx := Req.ctx w, gen := Req.gen w, tin := Req.tin w, rel := FlowRec.firstSeq w,
    acc := FlowRec.firstSeq w, resultQueue := FlowRec.resultQueue w, part := Req.part w,
    delay := FlowRec.delay w, resv := FlowRec.reservation w, first := FlowRec.firstSeq w, at_ := order }

/-- What the acceptance of a record does outside its queue: a hold entry, and the state of its flow or context; the
number of the hold entry, or of the flow that a JOIN opens (R149, R150). -/
def State.registerRecord (s : State) (w : Block) : Nat × State :=
  let f := Req.flowId w
  let n := Sparse.freeKey s.adm.holds
  let c := Req.command w
  let x := s.ctx (Req.ctx w)
  let h : Hold := { record := storeImage w, at_ := s.adm.order, step := Req.step w, prevAt := x.lastStep }
  if c = cmdJoin then (f, s.modFlow f fun _ => FlowRec.entry w s.adm.order)
  else
    let s := s.putHold n h
    if c = cmdLeave then
      (n, s.modFlow f fun e =>
        { e with state := .leavePending, prev := e.state, leaveAt := s.adm.order, leaveHold := some n })
    else if c = cmdJobOpen then (n, s.modCtx (Req.ctx w) fun x => { x with openPending := true })
    else if c = cmdStep then
      let s := s.modCtx (Req.ctx w) fun x => { x with lastStep := some s.adm.order }
      (n, if Req.flowed w then s.modFlow f fun e => { e with acc := e.acc + 1 } else s)
    else (n, s)

/-- A record is accepted: its acceptance order, its place in the queue, its RECORD entry in the log (R111, R150,
R381). -/
def State.acceptRecord (s : State) (n : Nat) (w : Block) : State :=
  let order := s.adm.order
  let (id, s) := s.registerRecord w
  let s := (s.append n w).modQueue n fun q => { q with accepted := q.accepted ++ [(order, id)] }
  let s := { s with adm := { s.adm with order := order + 1 } }
  let s := s.logInput s.nextTick L.record (Req.ctx w) (Req.gen w).toNat
    (at' n 362 14 + at' s.replay.acceptPos 330 32) [storeImage w]
  let s := { s with replay := { s.replay with acceptPos := s.replay.acceptPos + 1 } }
  s.bump K.recordsAccepted

/-- A DATA word of the host: taken, or refused with BUSY, with QUEUE_PROTOCOL where it breaks the sequence (R141). -/
def State.hostWord (s : State) (n : Nat) (w : Block) : Status × State :=
  match (s.queue n).offer {} w with
  | .taken =>
    let s := s.logInput s.nextTick L.hostData 0 0 (at' n 362 14) [storeImage w]
    (.ok, s.enqueueData n {} w)
  | .protocol => (.busy, s.raise A.queueProtocol)
  | .full => (.queueFull, s)
  | .otherPacket => (.busy, s)

/-- A word offered to a queue: the tests of R150 in their order; live tells a doorbell from a word of the log (R150,
R382, R386). -/
def State.offerTo (s : State) (n : Nat) (w : Block) (live : Bool) : Status × State :=
  let q := s.queue n
  if live && (s.doorbellsClosed || s.replaying) then (.busy, s)
  else if !q.enable || !(q.kind == kindRequest || q.kind == kindFlow || q.kind == kindData) then (.busy, s)
  else if q.isFull || !s.logRoom then (.queueFull, s)
  else if q.kind = kindData then s.hostWord n w
  else if Req.gen w ≠ (s.ctx (Req.ctx w)).gen then (.staleGen, s)
  else if Req.ctx w ≠ q.ctx ∨ s.recordPart q.kind w ≠ some (Req.part w) then (.busy, s)
  else if s.recordOk q.kind w then (.ok, s.acceptRecord n w)
  else (.busy, s)

/-- The counter of a doorbell's answer (R159). -/
def State.countAnswer (s : State) (st : Status) : State :=
  match st with
  | .queueFull => s.bump K.doorbellQueueFull
  | .staleGen => s.bump K.doorbellStaleGen
  | .busy => s.bump K.doorbellBusy
  | _ => s

/-- Changes the status of a doorbell aperture (R134). -/
def State.modDoorbell (s : State) (a : Nat) (f : Doorbell → Doorbell) : State :=
  { s with qs := { s.qs with doorbells := Sparse.set s.qs.doorbells {} a (f (Sparse.get s.qs.doorbells {} a)) } }

/-- A write of another size or alignment, or to an unbound aperture, is discarded (R133). -/
def State.doorbellMalformed (s : State) (a : Nat) : State :=
  (s.bump K.doorbellMalformed).modDoorbell a fun d => { d with last := .busy }

/-- A 64-byte aligned write to a doorbell aperture (R133, R150). -/
def State.doorbellWord (s : State) (a : Nat) (w : Block) : State :=
  let b := s.par K.doorbellBind a
  if a ≥ 2048 then s
  else if !bit b 15 then s.doorbellMalformed a
  else
    let (st, s) := s.offerTo (fld b 0 14) w true
    let ok := if st = .ok then 1 else 0
    (s.countAnswer st).modDoorbell a fun d => { d with accepted := d.accepted + ok, last := st }

/-- A control-port write of a word to a doorbell aperture, with its response (R133, R150, R504). -/
def doorbellEff (a : Nat) (w : Block) (s : State) : State := (s.doorbellWord a w).emit (.controlResponse 0)

/-- STEP (R63, R150). -/
def execStep (a : Nat) (w : BitVec 512) (s : State) : Host.Outcome State Fault Refusal := runCore (doorbellEff a w) s
/-- JOB_OPEN (R150, R152). -/
def execJobOpen (a : Nat) (w : BitVec 512) (s : State) : Host.Outcome State Fault Refusal :=
  runCore (doorbellEff a w) s
/-- JOB_CLOSE (R63, R150). -/
def execJobClose (a : Nat) (w : BitVec 512) (s : State) : Host.Outcome State Fault Refusal :=
  runCore (doorbellEff a w) s
/-- JOIN (R147, R150). -/
def execJoin (a : Nat) (w : BitVec 512) (s : State) : Host.Outcome State Fault Refusal := runCore (doorbellEff a w) s
/-- LEAVE (R147, R150). -/
def execLeave (a : Nat) (w : BitVec 512) (s : State) : Host.Outcome State Fault Refusal := runCore (doorbellEff a w) s
/-- DOORBELL_DATA_WORD (R141). -/
def execDoorbellDataWord (a : Nat) (w : BitVec 512) (s : State) : Host.Outcome State Fault Refusal :=
  runCore (doorbellEff a w) s

/-- A doorbell aperture's status (R134). -/
def State.doorbellStatus (s : State) (a : Nat) : Nat :=
  if bit (s.par K.doorbellBind a) 15 then
    let d : Doorbell := Sparse.get s.qs.doorbells {} a
    at' d.accepted.toNat 32 32 + d.last.code
  else 0

/-- The queue whose words a read aperture returns, where a word is visible (R135, R159, R455). -/
def State.apertureQueue (s : State) (a : Nat) : Option Nat :=
  let b := s.par K.readBind a
  let n := fld b 0 14
  let q := s.queue n
  if bit b 15 && q.enable && decide (q.kind ≥ 2) && decide (q.shown > 0) && decide (s.power.state < 2) then some n
  else none

/-- The word at HEAD leaves its queue; records that wait for room in a RESULT queue are posted (R135, R155). -/
def State.consumeWord (s : State) (n : Nat) : State := (s.takeWord n).postWaiting

/-- A 64-byte read of a read aperture (R135). -/
def readApertureEff (a : Nat) (s : State) : State :=
  match s.apertureQueue a with
  | none => s.emit (.controlResponse 0)
  | some n => (s.emit (.controlResponse (s.headWord n))).consumeWord n

/-- READ_APERTURE_READ (R135). -/
def execReadApertureRead (a : Nat) (s : State) : Host.Outcome State Fault Refusal := runCore (readApertureEff a) s

/-- Another aperture of the same direction is bound to a queue (R132). -/
def State.boundElsewhere (s : State) (key a n : Nat) : Bool :=
  s.dict.inForce.any fun e => e.1 / 2 ^ 20 == key && decide (e.1 % 2 ^ 20 ≠ a) && bit e.2 15 && fld e.2 0 14 == n

/-- A binding that R132 refuses. -/
def State.bindRefused (s : State) (read : Bool) (a v : Nat) : Bool :=
  let k := (s.queue (fld v 0 14)).kind
  let wrong := if read then decide (k ≤ 1) else k == kindResult || k == kindTelemetry
  bit v 15 && (wrong || s.boundElsewhere (if read then K.readBind else K.doorbellBind) a (fld v 0 14))

/-- A doorbell aperture newly bound counts its accepted words from 0 (R134). -/
def State.bindEffect (s : State) (read : Bool) (a : Nat) : State :=
  if read then s else s.modDoorbell a fun d => { d with accepted := 0 }

/-- A queue's ring may go into service (R159, R187). DESIGN CHOICE (log 94): one that was never configured, its
SIZE_LOG2 below 6, may not, and its enable is refused with BUSY; R159's list does not name it. -/
def State.enableOk (s : State) (n : Nat) : Bool :=
  let q := s.queue n
  let bytes := q.size * 64
  decide (q.sizeLog2 ≥ 6) && decide (q.base % bytes = 0) && s.inWindow q.part q.base bytes && decide (q.cut ≤ q.size)
    && (q.kind == kindData || !bit (s.par K.queueSignalBind n) 31)

/-- A QUEUE_CONTROL write that is refused with BUSY (R159). -/
def State.controlRefused (s : State) (action n : Nat) : Bool :=
  action == 1 && !(s.queue n).enable && !s.enableOk n

/-- A waiting record without a hold entry is the JOIN of the flow it names, which is still joining (R149, R156). -/
def State.joinOf (s : State) (e : Nat × Nat) : Bool := s.flowState e.2 == .joining && (s.flow e.2).at_ == e.1

/-- The hold entry of a record waiting in a queue, unless it has gone already (R150). -/
def State.waitingHold (s : State) (e : Nat × Nat) : Option Hold :=
  match s.hold e.2 with
  | some h => if h.at_ = e.1 ∧ h.phase = .queued then some h else none
  | none => none

/-- A JOIN discarded by a flush makes its flow LEAVING without a reservation, and cancels its accepted steps (R156). -/
def State.cancelJoin (s : State) (f : Nat) : State :=
  if s.flowState f ≠ .joining then s
  else
    let s := s.modFlow f fun e => { e with state := .leaving, resv := 0, resValid := false, leaveAt := s.adm.order }
    let mine (h : Hold) : Bool := Req.flowed h.record && Req.flowId h.record == f && Req.gen h.record == (s.flow f).gen
      && Req.ctx h.record == (s.flow f).ctx && (h.phase == .queued || h.phase == .carried)
    let ids := (s.adm.holds.filter fun e => mine e.2).map (·.1)
    let kept := s.adm.carried.filter fun c => !(c.kind == .request && ids.contains c.id)
    { s with adm := { s.adm with carried := kept } }.each ids State.cancelRequest

/-- A record discarded by a flush of its queue; in a FLOW queue a record without a hold entry is a JOIN (R149, R156). -/
def State.discardRecord (kind : Nat) (s : State) (e : Nat × Nat) : State :=
  match s.waitingHold e with
  | none => if kind = kindFlow ∧ s.joinOf e then s.cancelJoin e.2 else s
  | some h =>
    let r := h.record
    let done (st : State) (p : HoldPhase) : State :=
      (st.freeAdmitTick e.2).modHold e.2 fun h => { h with cancelled := true, phase := p, completeTick := s.tick.number }
    if Req.command r = cmdStep then s.cancelRequest e.2
    else if Req.command r = cmdJobOpen then
      ((done s .complete).modCtx (Req.ctx r) fun x => { x with openPending := false }).postOrWait (Req.openQueue r) e.2
    else if Req.command r = cmdLeave then
      let f := Req.flowId r
      let acc := (s.flow f).acc
      let s := s.modFlow f fun x => { x with state := x.prev, prev := .free, leaveHold := none }
      let s := (done s .admitted).modHold e.2 fun h => { h with
        record := setBits h.record 168 24 acc.toNat }
      s.offerLeaves f
    else (done s .complete).postOrWait (s.ctx (Req.ctx r)).resultQueue e.2

/-- Every word of a queue is discarded, with what R156 gives for its records. -/
def State.flushQueue (s : State) (n : Nat) : State :=
  let q := s.queue n
  ((s.modQueue n fun q => { q with accepted := [] }).flushNow n).each q.accepted (State.discardRecord q.kind)

/-- The FLUSH entry of the log (R381). -/
def State.logFlush (s : State) (tick : BitVec 64) (n : Nat) : State := s.logInput tick L.flush 0 0 (at' n 362 14) []

/-- A QUEUE_CONTROL write takes effect, or waits for its boundary (R143, R159). -/
def State.queueControl (s : State) (action n : Nat) : State :=
  let q := s.queue n
  let atTick := decide (q.kind ≤ 1)
  if action = 3 then
    if atTick then s.modQueue n fun q => { q with flushTick := true }
    else
      let s := s.logFlush s.nextTick n
      if q.packetOpen || q.readOpen then s.modQueue n fun q => { q with flushPending := true } else s.flushNow n
  else if atTick then s.modQueue n fun q => { q with control := some (action == 1) }
  else if action = 1 then
    (s.modQueue n fun q => { q with enable := true, control := none }).postWaiting
  else if q.enable then s.modQueue n fun q => Queue.settled { q with control := some false }
  else s

/-- Phase 1: flushes, enables and disables of REQUEST and FLOW queues (R143, R159); in RECORD a flush without room in
the log is held (R382). DESIGN CHOICE (log 128): an enable whose conditions no longer hold at the boundary has no
effect. -/
def State.queuePhase1 (s : State) : State :=
  s.each (s.qs.queues.filter fun e => e.2.flushTick || (e.2.control.isSome && decide (e.2.kind ≤ 1))) fun s e =>
    let n := e.1
    let s := if !(s.queue n).flushTick then s
      else if s.logRoom then
        ((s.logFlush s.tick.number n).flushQueue n).modQueue n fun q => { q with flushTick := false }
      else s.logWaits
    match (s.queue n).control with
    | none => s
    | some on =>
      let on' := if (s.queue n).enable then on else on && s.enableOk n
      if (s.queue n).kind ≤ 1 then s.modQueue n fun q => { q with enable := on', control := none } else s

/-- A QUEUE_CONFIG write of a disabled queue: its words are discarded, and its descriptor starts from the new
configuration (R159). DESIGN CHOICE (log 95): an enable or flush of a REQUEST or FLOW queue that still waits for its
tick boundary is dropped with the descriptor it was written for; the spec does not say. -/
def State.queueConfig (s : State) (n v : Nat) : State :=
  let q := s.queue n
  let s := s.modQueue n fun _ => { base := fld v 64 64, sizeLog2 := fld v 59 5, kind := fld v 56 3, part := fld v 52 4,
                                   ctx := fld v 40 12, cut := fld v 32 8, waiting := q.waiting }
  (s.bump K.queueWordsFlushed q.len).each q.accepted (State.discardRecord q.kind)

/-- A pending flush takes effect once both sides are at packet boundaries (R143). -/
def queueFlushEff (n : Nat) (s : State) : State :=
  let q := s.queue n
  if q.flushPending && !q.packetOpen && !q.readOpen then s.flushNow n else s

/-- QUEUE_FLUSH_EFFECT (R143). -/
def execQueueFlushEffect (n : Nat) (s : State) : Host.Outcome State Fault Refusal := runCore (queueFlushEff n) s

/-- Fields of a queue task's request block (R145). -/
def QReq.addr (b : Block) : Nat := bits b 448 64
def QReq.queue (b : Block) : Nat := bits b 434 14
def QReq.words (b : Block) : Nat := bits b 418 16
def QReq.maxPackets (b : Block) : Nat := bits b 402 16
def QReq.cls (b : Block) : Nat := bits b 398 4
def QReq.reserved (b : Block) : Nat := bits b 0 398

/-- What R145 refuses of a request block, for both operations. -/
def State.queueReqBad (s : State) (n : Nat) (b : Block) (enq : Bool) : Bool :=
  let q := s.queue (QReq.queue b)
  let c := QReq.cls b
  let fields := if enq then decide (QReq.maxPackets b ≠ 0) || decide (c ≠ 0)
    else QReq.maxPackets b == 0 || decide (c > 0xC) || (decide (c ≤ 0xB) && s.slotTile n c == 0)
  !q.enable || decide (q.kind ≠ kindData) || decide (q.part ≠ (s.slot n).part) || QReq.words b == 0
    || decide (QReq.addr b % 64 ≠ 0) || decide (QReq.reserved b ≠ 0) || fields

/-- A queue task completes with CANCELLED, and QUEUE_PROTOCOL is raised (R141, R145). -/
def State.queueRefuse (s : State) (n : Nat) : State := (s.raise A.queueProtocol).dataDone n .cancelled []

/-- The producer that a data task is. -/
def taskProducer (n : Nat) : Producer := { kind := .task, id := n }

/-- Words and packets that a Q_ENQUEUE has enqueued, kept while it waits. -/
def qProgress (words packets : Nat) : BitVec 64 := out64 (at' packets 32 32 + at' words 0 32)

/-- Outputs of a Q_ENQUEUE (R145). -/
def qOutputs (words packets : Nat) : List (BitVec 64) := [out64 words, out64 packets]

/-- A Q_ENQUEUE enqueues its words from word i on, until one must wait, breaks the sequence or cannot be read; left is
the number of words to go (R137, R141, R513). DESIGN CHOICE (log 96): a packet that its last word leaves open stays open
with the slot as its producer, so that a later task of that slot may go on with it; the spec does not say who may. -/
def State.enqueueRun (n : Nat) (b : Block) : Nat → Nat → Nat → State → State
  | 0, i, k, s => s.dataDone n .ok (qOutputs i k)
  | left + 1, i, k, s =>
    let q := QReq.queue b
    let (s, st, bs) := s.taskRead n (QReq.addr b + 64 * i) 64
    let w : Block := BitVec.ofNat 512 (ofLe bs)
    let p := taskProducer n
    if st.isData then
      let s := if (s.queue q).packetOpen && (s.queue q).opener == p then s.cutPacket q else s
      s.dataDone n st (qOutputs i k)
    else
      match (s.queue q).offer p w with
      | .taken => State.enqueueRun n b left (i + 1) (k + if wordLast w then 1 else 0) (s.enqueueData q p w)
      | .protocol => (s.raise A.queueProtocol).dataDone n .cancelled (qOutputs i k)
      | _ =>
        let s := s.modSlot n fun x => { x with out0 := qProgress i k }
        s.modQueue q fun q => { q with waiting := q.waiting ++ [(p, w)] }

/-- A data task waits for room in some queue. -/
def State.taskWaits (s : State) (n : Nat) : Bool :=
  s.qs.queues.any fun e => e.2.waiting.any fun w => w.1 == taskProducer n

/-- A Q_ENQUEUE under way goes on from where it stands, under the request block that it began with (R145). -/
def State.enqueueRest (n : Nat) (s : State) : State :=
  let p := (s.slot n).out0.toNat
  let b := (s.slot n).request
  State.enqueueRun n b (QReq.words b - fld p 0 32) (fld p 0 32) (fld p 32 32) s

/-- Q_ENQUEUE: reads its request block, once, and enqueues as far as it can (R145). -/
def qEnqueueEff (n : Nat) (s : State) : State :=
  if s.taskWaits n then s
  else if (s.slot n).request ≠ 0 then s.enqueueRest n
  else
    let (s, st, b) := s.requestBlock n
    if st.isData then s.dataDone n st []
    else if s.queueReqBad n b true then s.queueRefuse n
    else (s.modSlot n fun x => { x with request := b, out0 := 0 }).enqueueRest n

/-- Q_ENQUEUE (R145, R513). -/
def execQEnqueue (n : Nat) (s : State) : Host.Outcome State Fault Refusal :=
  runCore (fun s => s.onItem n Op.qEnqueue (qEnqueueEff n)) s

/-- The word at a place of a queue, counted from HEAD. -/
def State.queueWord (s : State) (q i : Nat) : Block :=
  readImage (s.peekWord ((s.queue q).ringAddr ((s.queue q).head + BitVec.ofNat 32 i)))

/-- Just past the end of the packet that begins at place o, if its last word is visible: its LAST word, or where it was
cut short (R142, R513); fuel bounds its length. -/
def State.packetEnd (s : State) (q : Nat) : Nat → Nat → Option Nat
  | 0, _ => none
  | f + 1, o =>
    let x := s.queue q
    if o ≥ x.shown then none
    else if wordLast (s.queueWord q o) || x.endsAt (x.head + BitVec.ofNat 32 (o + 1)) then some (o + 1)
    else s.packetEnd q f (o + 1)

/-- Words and packets that a Q_DEQUEUE takes with limits on both (R145); fuel is the limit on packets. -/
def State.takeSpan (s : State) (q words : Nat) : Nat → Nat → Nat → Nat × Nat
  | 0, o, k => (o, k)
  | f + 1, o, k =>
    match s.packetEnd q ((s.queue q).shown - o) o with
    | none => (o, k)
    | some e => if e > words then (o, k) else s.takeSpan q words f e (k + 1)

/-- The packet at HEAD is longer than the buffer (R145): its visible words end beyond it, or, while its LAST word is not
visible yet, its FIRST word says so. -/
def State.headTooLong (s : State) (q words : Nat) : Bool :=
  match s.packetEnd q (s.queue q).shown 0 with
  | some e => decide (e > words)
  | none => decide ((s.queue q).shown > 0) && wordFirst (s.queueWord q 0) && decide (wordLength (s.queueWord q 0) > words)

/-- An entry of the replay log that stands for a Q_DEQUEUE that was CANCELLED: it has no body (R146; log 97). -/
def LogEntry.refused (e : LogEntry) : Bool := e.body.isEmpty

/-- The words at the head of a queue. -/
def State.headWords (s : State) (q n : Nat) : List Block := (List.range n).map (s.queueWord q)

/-- A Q_DEQUEUE moves its packets: words with VALID set, then pad rows of zeros (R94, R145). -/
def State.moveWords (s : State) (n : Nat) (b : Block) (words packets : Nat) : State :=
  let q := QReq.queue b
  let tm := if QReq.cls b = 0xC then 1 else s.slotTile n (QReq.cls b)
  let ws := s.headWords q words
  let pad := ceilDiv words tm * tm - words
  let bytes := ws.flatMap (fun w => leBytes 64 w.toNat) ++ List.replicate (pad * 64) 0
  let s := s.each (List.range words) fun s _ => s.takeWord q
  let s := s.taskWrite n (QReq.addr b) bytes
  s.dataDone n .ok [out64 (at' words 32 32), out64 packets]

/-- The REQUEST_NO of the request that the task in a slot runs for (R121). -/
def State.slotReqNo (s : State) (n : Nat) : Nat :=
  match s.inst (s.slot n).inst with
  | some i => ((s.hold i.hold).map (·.reqNo)).getD 0
  | none => 0

/-- The DEQUEUE entry of a Q_DEQUEUE with a body (R146, R381). -/
def State.logDequeueWith (s : State) (n q words packets : Nat) (body : List Block) : State :=
  let x := s.slot n
  s.logInput s.nextTick L.dequeue x.ctx x.gen.toNat
    (at' q 362 14 + at' packets 346 16 + at' words 330 16 + at' (s.taskId n) 298 32 + at' (s.slotReqNo n) 278 20) body

/-- The DEQUEUE entry of a Q_DEQUEUE that moves its words (R381). -/
def State.logDequeue (s : State) (n q words packets : Nat) : State :=
  s.logDequeueWith n q words packets [digestWord (wordsDigest (s.headWords q words))]

/-- The DEQUEUE entry that stands for the Q_DEQUEUE in a slot (R386). -/
def State.isDequeue (s : State) (n : Nat) (e : LogEntry) : Bool :=
  e.kind == L.dequeue && e.ctx == (s.slot n).ctx && e.arg 298 32 == s.taskId n && e.arg 278 20 == s.slotReqNo n

/-- A Q_DEQUEUE that moves nothing, because it cannot be served, ends: logged as such in RECORD, and held against its
entry in REPLAY (R146, R386, R387; log 97). -/
def State.dequeueRefused (s : State) (n q : Nat) (done : State → State) : State :=
  if s.following then
    let s := s.loadLog
    match s.dueEntry (s.isDequeue n) with
    | none => s
    | some e =>
      let s := done (s.reproduced e)
      if e.refused then s else s.diverge e
  else done (s.logDequeueWith n q 0 0 [])

/-- A Q_DEQUEUE in REPLAY waits for its logged entry and for the packets it names, and moves exactly those (R146,
R386, R387). -/
def State.replayDequeue (s : State) (n : Nat) (b : Block) : State :=
  let s := s.loadLog
  let q := QReq.queue b
  match s.dueEntry (s.isDequeue n) with
  | none => s
  | some e =>
    let packets := e.arg 346 16
    let (words, k) := s.takeSpan q (s.queue q).shown packets 0 0
    if e.refused then (s.reproduced e).queueRefuse n
    else if k < packets then s
    else
      let same := e.body == [digestWord (wordsDigest (s.headWords q words))]
      let s := (s.reproduced e).moveWords n b words packets
      if same then s else s.diverge e

/-- Q_DEQUEUE (R144, R145, R146). -/
def qDequeueEff (n : Nat) (s : State) : State :=
  let (s', st, b) := s.requestBlock n
  let q := QReq.queue b
  if !s'.following && !s'.logRoom then s.logWaits
  else if st.isData then s'.dequeueRefused n 0 fun s => s.dataDone n st []
  else if s'.queueReqBad n b false then s'.dequeueRefused n q fun s => s.queueRefuse n
  else if s'.following then s'.replayDequeue n b
  else if s'.headTooLong q (QReq.words b) then s'.dequeueRefused n q fun s => s.queueRefuse n
  else
    let (words, packets) := s'.takeSpan (QReq.queue b) (QReq.words b) (QReq.maxPackets b) 0 0
    (s'.logDequeue n (QReq.queue b) words packets).moveWords n b words packets

/-- Q_DEQUEUE (R145). -/
def execQDequeue (n : Nat) (s : State) : Host.Outcome State Fault Refusal :=
  runCore (fun s => s.onItem n Op.qDequeue (qDequeueEff n)) s

/-- A waiting task whose word has been taken goes on with its next word; a word whose block waits under R315 is waited
for (R513). -/
def State.taskResumed (s : State) (n : Nat) (w : Block) : State :=
  let p := (s.slot n).out0.toNat
  let s := s.modSlot n fun x => { x with
    out0 := qProgress (fld p 0 32 + 1) (fld p 32 32 + if wordLast w then 1 else 0) }
  s.patient (.task n (s.slot n).inst) (State.enqueueRest n)

/-- A waiting task ends with CANCELLED: its word breaks the sequence, or its queue is disabled (R141, R159). -/
def State.taskStopped (s : State) (n : Nat) : State :=
  let p := (s.slot n).out0.toNat
  s.dataDone n .cancelled (qOutputs (fld p 0 32) (fld p 32 32))

/-- The record of a link that is held back at a queue goes on with its next word (R340). -/
def State.resumeRecord (s : State) (n : Nat) (p : Producer) : State :=
  match s.links.inbox.find? fun d => d.held && d.family == Fam.queue && d.producer == p
      && bits (d.slots.headD 0) 114 14 == n with
  | none => s
  | some d => s.serveDelivered d State.queueRecord

/-- Producers waiting at a queue are served in the order in which they began to wait (R514); a queue taken out of
service refuses them (R159, R338). -/
def queueResumeEff (n : Nat) (s : State) : State :=
  let q := s.queue n
  let gone := !q.enable || decide (q.kind ≠ kindData)
  match q.waiting.find? fun e => gone || q.serves e with
  | none => s
  | some e =>
    let s := s.modQueue n fun q => { q with waiting := dropFirst (· == e) q.waiting }
    if e.1.kind = .link then s.resumeRecord n e.1
    else if gone then s.taskStopped e.1.id
    else if q.admits e.1 e.2 = .taken then (s.enqueueData n e.1 e.2).taskResumed e.1.id e.2
    else (s.raise A.queueProtocol).taskStopped e.1.id

/-- QUEUE_PRODUCER_RESUME (R514). -/
def execQueueProducerResume (n : Nat) (s : State) : Host.Outcome State Fault Refusal := runCore (queueResumeEff n) s

/-- Results of a flow leave in order while they may; a flow has at most 16 outstanding (R149, R155). -/
def resultReleaseEff (f : Nat) (s : State) : State := State.releaseFlow f 17 s.postWaiting

/-- RESULT_RELEASE (R155). -/
def execResultRelease (f : Nat) (s : State) : Host.Outcome State Fault Refusal := runCore (resultReleaseEff f) s

/-- Every request of a context accepted before a JOB_CLOSE has completed (R63). -/
def State.earlierDone (s : State) (h : Hold) : Bool :=
  s.adm.holds.all fun e => decide (Req.ctx e.2.record ≠ Req.ctx h.record) || decide (e.2.at_ ≥ h.at_)
    || e.2.phase == .complete

/-- The next admitted JOB_CLOSE of a context, if any. -/
def State.nextClose (s : State) (c : Nat) : Option Nat :=
  (s.adm.holds.find? fun e => Req.command e.2.record == cmdJobClose && Req.ctx e.2.record == c
    && e.2.phase == .admitted).map (·.1)

/-- A JOB_CLOSE takes effect once every earlier request of its context has completed (R63). -/
def jobCloseEff (c : Nat) (s : State) : State :=
  match (s.ctx c).closeHold with
  | none => s
  | some n =>
    match s.hold n with
    | none => s
    | some h =>
      if s.earlierDone h then
        let s := s.completeRequest n
        let next := s.nextClose c
        s.modCtx c fun x => { x with job := false, closePending := next.isSome, closeHold := next }
      else s

/-- JOB_CLOSE_EFFECT (R63). -/
def execJobCloseEffect (c : Nat) (s : State) : Host.Outcome State Fault Refusal := runCore (jobCloseEff c) s

end Sys2Proof.Machine
end

