-- ==== Sys2Proof/Machine/Loader.lean ====
section
/-! DEFINITION. Loading and unloading graph images: the checks of R60 in their order, and what makes an image resident
(R45 to R52, R60, R61, R515, R516). -/
namespace Sys2Proof.Machine

/-- Reason codes of a load (R60). -/
def Load.loaded : Nat := 0x00
def Load.magic : Nat := 0x01
def Load.release : Nat := 0x02
def Load.bounds : Nat := 0x03
def Load.digest : Nat := 0x04
def Load.partition : Nat := 0x05
def Load.engines : Nat := 0x06
def Load.openChoice : Nat := 0x07
def Load.window : Nat := 0x08
def Load.span : Nat := 0x09
def Load.count : Nat := 0x0A
def Load.operand : Nat := 0x0B
def Load.duration : Nat := 0x0C
def Load.summary : Nat := 0x0D
def Load.slotBusy : Nat := 0x0E

/-- Header fields (R45); offsets in bytes. -/
def Hdr.u (h : List Byte) (off n : Nat) : Nat := ofLe (slice h off n)
def Hdr.magic (h : List Byte) : Nat := Hdr.u h 0 4
def Hdr.release (h : List Byte) : Nat := Hdr.u h 4 4
def Hdr.bytes (h : List Byte) : Nat := Hdr.u h 8 4
def Hdr.stepCount (h : List Byte) : Nat := Hdr.u h 12 2
def Hdr.digest (h : List Byte) : Nat := Hdr.u h 16 32
def Hdr.classes (h : List Byte) : List (BitVec 32) := (List.range 12).map fun c => BitVec.ofNat 32 (Hdr.u h (48 + 4 * c) 4)
def Hdr.stepOffset (h : List Byte) : Nat := Hdr.u h 96 8
def Hdr.templateOffset (h : List Byte) : Nat := Hdr.u h 104 8
def Hdr.edgeOffset (h : List Byte) : Nat := Hdr.u h 112 8
def Hdr.reserved (h : List Byte) : Nat := Hdr.u h 14 2 + Hdr.u h 120 8

/-- Bytes of a stripe group's memory (R306, R309). -/
def State.groupBytes (s : State) : Nat := s.groupPages * 4096

/-- Bytes at an address lie within the capacity of one stripe group (R60, R306). -/
def State.inGroup (s : State) (addr n : Nat) : Bool :=
  decide (addr < 2 ^ 43) && decide (fld addr 41 2 < s.groups) && decide (fld addr 0 41 + n ≤ s.groupBytes)

/-- A graph of a step: its first template, its templates and its window as log2 of slots (R47). -/
structure Graph where
  first : Nat
  count : Nat
  wlog : Nat

/-- The full graph of a step. -/
def StepEntry.full (e : Block) : Graph := ⟨StepEntry.fullFirst e, StepEntry.fullCount e, StepEntry.fullWindow e⟩
/-- The fallback graph of a step. -/
def StepEntry.fallback (e : Block) : Graph :=
  ⟨StepEntry.fallbackFirst e, StepEntry.fallbackCount e, StepEntry.fallbackWindow e⟩

/-- The graphs of an image, of every step the full one and then the fallback one. -/
def Image.graphs (i : Image) : List Graph := i.steps.flatMap fun e => [StepEntry.full e, StepEntry.fallback e]

/-- Largest element of a list, 0 for none. -/
def listMax (l : List Nat) : Nat := l.foldl Nat.max 0

/-- Words of n bytes at a place of the image's bytes, as numbers. -/
def wordsAt (bs : List Byte) (off n k : Nat) : List Nat := (List.range k).map fun i => ofLe (slice bs (off + n * i) n)

/-- Indices of the templates that a step names. DESIGN CHOICE (log 103): templates of the section that no step names
are left out of the template checks of R60; the spec does not say whether they are checked. -/
def Image.used (i : Image) : List Nat := uniq (i.graphs.flatMap fun g => (List.range g.count).map (g.first + ·))

/-- The image that its bytes spell; the sections run to the last template and edge that a step names (R45 to R49). -/
def parseImage (bs : List Byte) (part : Nat) : Image :=
  let steps := (wordsAt bs (Hdr.stepOffset bs) 64 (Hdr.stepCount bs)).map (BitVec.ofNat 512)
  let i : Image := { digest := BitVec.ofNat 256 (Hdr.digest bs), part := part, classes := Hdr.classes bs, steps := steps }
  let nt := listMax (i.graphs.map fun g => if g.count = 0 then 0 else g.first + g.count)
  let i : Image := { i with templates := (wordsAt bs (Hdr.templateOffset bs) 32 nt).map (BitVec.ofNat 256) }
  let ne := listMax (i.used.map fun t =>
    if Tpl.edgeCount (i.tpl t) = 0 then 0 else Tpl.edgeFirst (i.tpl t) + Tpl.edgeCount (i.tpl t))
  { i with edges := (wordsAt bs (Hdr.edgeOffset bs) 4 ne).map (BitVec.ofNat 32) }

/-- Sections, steps, templates and edges lie inside the image (R60 BOUNDS). -/
def sectionsInside (bs : List Byte) : Bool :=
  let n := Hdr.bytes bs
  decide (Hdr.stepOffset bs + 64 * Hdr.stepCount bs ≤ n) && (
    let i := parseImage bs 0
    decide (Hdr.templateOffset bs + 32 * i.templates.length ≤ n)
    && decide (Hdr.edgeOffset bs + 4 * i.edges.length ≤ n))

/-- Template t of a graph. -/
def Image.at_ (i : Image) (g : Graph) (t : Nat) : BitVec 256 := i.tpl (g.first + t)

/-- Edges of template t of a graph (R48). -/
def Image.edgesAt (i : Image) (g : Graph) (t : Nat) : List (BitVec 32) :=
  slice i.edges (Tpl.edgeFirst (i.at_ g t)) (Tpl.edgeCount (i.at_ g t))

/-- Gap to the next SERIAL template of a SERIAL template, 0 where there is none (R55). -/
def Image.serialGap (i : Image) (g : Graph) (t : Nat) : Nat :=
  if !Tpl.serial (i.at_ g t) then 0
  else
    match (List.range (g.count - t - 1)).find? fun k => Tpl.serial (i.at_ g (t + k + 1)) with
    | some k => k + 1
    | none => 0

/-- SPAN of R60: edges and serial gaps stay below the window and inside the graph, and MAX_SPAN is their largest
(R48). -/
def Image.spanOk (i : Image) (g : Graph) : Bool :=
  (List.range g.count).all fun t =>
    let gap := i.serialGap g t
    let spans := (i.edgesAt g t).map Edge.span
    decide (gap < 2 ^ g.wlog) && spans.all (fun x => decide (1 ≤ x ∧ x < 2 ^ g.wlog ∧ t + x < g.count))
    && listMax (gap :: spans) == Tpl.maxSpan (i.at_ g t)

/-- The edges of a graph that target template t, with their producers. -/
def Image.into (i : Image) (g : Graph) (t : Nat) : List (BitVec 32) :=
  (List.range t).flatMap fun u => (i.edgesAt g u).filter fun e => u + Edge.span e == t

/-- COUNT of R60: DEP_COUNT is the sum of the counts that target the template (R49, R50). DESIGN CHOICE (log 126): a
counted edge of COUNT 0, which R49 forbids, is refused with this reason; R60 names none for it. -/
def Image.countOk (i : Image) (g : Graph) : Bool :=
  (List.range g.count).all fun t =>
    let es := (i.into g t).filter fun e => !Edge.isOperand e
    let prev := if Tpl.prevStep (i.at_ g t) then 1 else 0
    es.all (fun e => decide (Edge.count e ≥ 1)) && (es.map Edge.count).sum + prev == Tpl.depCount (i.at_ g t)

/-- OPERAND of R60: every declared operand has one source, and nothing fills another (R50, R52). DESIGN CHOICE (logs
104 and 126): a template of class 0xF that declares operands, which R52 forbids, and an operand edge of a COUNT other
than 0, which R49 forbids, are refused with this reason; R60 names none for them. -/
def Image.operandOk (i : Image) (g : Graph) : Bool :=
  (List.range g.count).all fun t =>
    let p := i.at_ g t
    let es := (i.into g t).filter Edge.isOperand
    let sources (k : Nat) : Nat := (es.filter fun e => Edge.operand e == k).length
      + if (Tpl.instOperands p).getLsbD k then 1 else 0
    es.all (fun e => Edge.count e == 0 && (Tpl.operandMask p).getLsbD (Edge.operand e))
    && Tpl.instOperands p &&& ~~~ Tpl.operandMask p == 0 && (Tpl.cls p != 0xF || Tpl.operandMask p == 0)
    && (List.range 4).all fun k => !(Tpl.operandMask p).getLsbD k || sources k == 1

/-- The lengths of the longest paths that end at the templates of a graph, in order (R515). -/
def Image.pathsTo (i : Image) (g : Graph) : List Nat :=
  (List.range g.count).foldl (fun ends t =>
    let before := (List.range t).filter fun u =>
      (i.edgesAt g u).any (fun e => u + Edge.span e == t) || (i.serialGap g u != 0 && u + i.serialGap g u == t)
    ends ++ [Tpl.duration (i.at_ g t) + listMax (before.map fun u => ends.getD u 0)]) []

/-- Length of the longest path of a graph (R515). -/
def Image.path (i : Image) (g : Graph) : Nat := listMax (i.pathsTo g)

/-- Sum of COST over a graph (R47). -/
def Image.cost (i : Image) (g : Graph) : Nat := ((List.range g.count).map fun t => Tpl.cost (i.at_ g t)).sum

/-- SUMMARY of R60. -/
def Image.summaryOk (i : Image) : Bool :=
  i.steps.all fun e =>
    i.cost (StepEntry.full e) == StepEntry.fullCost e && i.cost (StepEntry.fallback e) == StepEntry.fallbackCost e
    && i.path (StepEntry.full e) == StepEntry.fullPath e
    && i.path (StepEntry.fallback e) == StepEntry.fallbackPath e

/-- The data-plane operations that the spec defines (R145, R172, R217, R226, R251, R276, R378). -/
def dataOperations : List Nat :=
  [Op.embGather, Op.embPool, Op.embScore, Op.embUpdate, Op.qEnqueue, Op.qDequeue, Op.expSelect, Op.expSend, Op.expRecv,
   Op.expReturn, Op.expCollect, Op.dmaCopy, Op.dmaFill, Op.digest, Op.sigWait, Op.sigPost, Op.barrierArrive]

/-- Classes of licensee engines that the templates of an image use. -/
def Image.usedClasses (i : Image) : List Nat :=
  uniq ((i.used.map fun t => Tpl.cls (i.tpl t)).filter fun c => decide (c ≤ 0xB))

/-- Logical engines of a class that the build provides in a partition (R10, R79). -/
def State.provided (s : State) (part cls : Nat) : Nat :=
  ((List.range 64).filter fun e => (s.mapPort part cls e).isSome).length

/-- ENGINES of R60 (R10). -/
def State.enginesOk (s : State) (i : Image) : Bool :=
  i.usedClasses.all (fun c => decide (ClassEntry.logical (i.cls c) > 0))
  && (List.range 12).all fun c => decide (ClassEntry.logical (i.cls c) ≤ s.provided i.part c)

/-- OPEN_CHOICE of R60 (R43). -/
def Image.choiceOk (i : Image) (hdrReserved : Nat) : Bool :=
  let tpls := i.used.map i.tpl
  tpls.all (fun t => Tpl.cls t != 0xD && Tpl.cls t != 0xE && Tpl.reserved t == 0
    && (Tpl.cls t != 0xC || dataOperations.contains (Tpl.opcode t)))
  && i.steps.all (fun e => decide (StepEntry.fallbackCount e > 0) && StepEntry.reserved1 e == 0
    && StepEntry.reserved2 e == 0 && decide (StepEntry.flags e ≤ 1))
  && i.usedClasses.all (fun c => decide (ClassEntry.tileMultiple (i.cls c) > 0))
  && i.classes.all (fun c => ClassEntry.reserved c == 0) && hdrReserved == 0

/-- WINDOW of R60. -/
def Image.windowOk (i : Image) : Bool :=
  i.graphs.all fun g => decide (6 ≤ g.wlog ∧ g.wlog ≤ 19) && decide (1 ≤ g.count ∧ g.count ≤ 524288)

/-- DURATION of R60. -/
def Image.durationOk (i : Image) : Bool :=
  i.used.all fun t =>
    let p := i.tpl t
    let null := Tpl.cls p == 0xF
    (null == (Tpl.duration p == 0)) && (null == (Tpl.cost p == 0)) && decide (Tpl.duration p ≤ 10000)

/-- The digest that IMAGE_DIGEST must hold: SHA-256 over the image with that field zero (R45). -/
def imageDigest (bs : List Byte) : Nat := sha256Nat (bs.take 16 ++ List.replicate 32 0 ++ bs.drop 48)

/-- The checks of R60 up to BOUNDS, which read the header; readable says that it could be read. -/
def State.checkHeader (s : State) (addr : Nat) (h : List Byte) (readable : Bool) : Nat :=
  let block := 0x00020000
  if !readable || Hdr.magic h ≠ 0x47534947 then Load.magic
  else if fld (Hdr.release h) 16 16 ≠ fld block 16 16 ∨ fld (Hdr.release h) 0 16 > fld block 0 16 then Load.release
  else if Hdr.bytes h % 64 ≠ 0 ∨ Hdr.bytes h < 128 ∨ !s.inGroup addr (Hdr.bytes h) ∨ Hdr.stepCount h = 0
    ∨ Hdr.stepCount h > 4096 then Load.bounds
  else Load.loaded

/-- The checks of R60 from DIGEST on, over the parsed image. -/
def State.checkImage (s : State) (addr slot : Nat) (bs : List Byte) (i : Image) : Nat :=
  if imageDigest bs ≠ Hdr.digest bs then Load.digest
  else if !s.inWindow i.part addr bs.length then Load.partition
  else if !s.enginesOk i then Load.engines
  else if !i.choiceOk (Hdr.reserved bs) then Load.openChoice
  else if !i.windowOk then Load.window
  else if !i.graphs.all i.spanOk then Load.span
  else if !i.graphs.all i.countOk then Load.count
  else if !i.graphs.all i.operandOk then Load.operand
  else if !i.durationOk then Load.duration
  else if !i.summaryOk then Load.summary
  else if (s.image slot).isSome then Load.slotBusy
  else Load.loaded

/-- The image at an address is read and checked for a slot and a partition: the reason, and the image (R60). -/
def State.examineImage (s : State) (addr slot part : Nat) : State × Nat × Image :=
  let (s, st, h) := s.readBytes addr 128
  let r := s.checkHeader addr h (!st.isData)
  if r ≠ Load.loaded then (s, r, {})
  else
    let (s, st, bs) := s.readBytes addr (Hdr.bytes h)
    if !sectionsInside bs then (s, Load.bounds, {})
    else if st.isData then (s, Load.digest, {})
    else
      let i : Image := { parseImage bs part with addr := addr, bytes := Hdr.bytes h }
      (s, s.checkImage addr slot bs i, i)

/-- IMAGE_LOAD_RESULT (R61). -/
def loadResult (reason slot : Nat) (busy : Bool) : BitVec 32 :=
  BitVec.ofNat 32 (at' reason 24 8 + at' slot 16 8 + flag busy 0)

/-- Writes an image slot. -/
def State.putImage (s : State) (slot : Nat) (i : Image) : State :=
  { s with loader := { s.loader with images := Sparse.insert s.loader.images slot i } }

/-- The IMAGE entry of the log (R381). -/
def State.logImage (s : State) (slot action : Nat) (digest : BitVec 256) : State :=
  s.logInput s.nextTick L.image 0 0 (at' slot 368 8 + at' action 360 8) [digestWord digest.toNat]

/-- IMAGE_LOAD_GO 1: a load begins with the values last written (R61). -/
def State.startLoad (s : State) : State :=
  let op : LoadOp := { addr := s.par K.imageLoadAddr, slot := s.par K.imageLoadSlot, part := s.par K.imageLoadPartition }
  { s with loader := { s.loader with op := some op, result := loadResult 0 op.slot true } }

/-- An image that no live instance uses may be unloaded (R60). -/
def State.unloadable (s : State) (slot : Nat) : Bool :=
  (s.image slot).isSome && !s.loader.instances.any fun i => i.image == slot

/-- An image slot is emptied. -/
def State.dropImage (s : State) (slot : Nat) : State :=
  { s with loader := { s.loader with images := Sparse.erase s.loader.images slot } }

/-- IMAGE_LOAD_GO 2: an unload is checked against SLOT_BUSY alone (R60). -/
def State.unload (s : State) : State :=
  let slot := s.par K.imageLoadSlot
  let report (s : State) (r : Nat) : State := { s with loader := { s.loader with result := loadResult r slot false } }
  if s.unloadable slot then
    let d := ((s.image slot).map (·.digest)).getD 0
    report ((s.logImage slot 2 d).dropImage slot) Load.loaded
  else report s Load.slotBusy

/-- A load ends: the image is resident, or the reason says why not (R60); in RECORD an accepted load waits for room in
the log (R382). -/
def State.endLoad (s : State) : State :=
  match s.loader.op with
  | none => s
  | some op =>
    let (s', r, i) := s.examineImage op.addr op.slot op.part
    let s1 : State := { s' with loader := { s'.loader with op := none, result := loadResult r op.slot false } }
    if r ≠ Load.loaded then s1.bump K.imageLoadsRefused
    else if !s.logRoom then s.logWaits
    else (s1.logImage op.slot 1 i.digest).putImage op.slot i

/-- A load ends, unless a block of the image waits for a member (R60, R315). -/
def imageLoadCompleteEff (s : State) : State := s.patient .loader State.endLoad

/-- IMAGE_LOAD_COMPLETE (R60, R61). -/
def execImageLoadComplete (s : State) : Host.Outcome State Fault Refusal := runCore imageLoadCompleteEff s

/-- In REPLAY an IMAGE entry is applied: an unload, or a load of the image that IMAGE_LOAD_ADDR and IMAGE_LOAD_PARTITION
name, whose digest must be the logged one; what cannot be applied diverges (R386, R387). -/
def State.replayImage (s : State) (e : LogEntry) : State :=
  let slot := e.arg 368 8
  if e.arg 360 8 = 2 then
    if s.unloadable slot then (s.dropImage slot).reproduced e else s.diverge e
  else
    let (s, r, i) := s.examineImage (s.par K.imageLoadAddr) slot (s.par K.imageLoadPartition)
    if r = Load.loaded ∧ e.body = [digestWord i.digest.toNat] then (s.putImage slot i).reproduced e else s.diverge e

end Sys2Proof.Machine
end

