-- ==== Sys2Proof/Machine/Admission.lean ====
section
/-! DEFINITION. Admission: phase 2, in which flows leave, and phase 3, in which candidates are examined
(R111 to R120, R148, R151, R157, R386, R425, R443). -/
namespace Sys2Proof.Machine

/-- What phase 3 works with: free capacity by partition (none: no cost limit), reserve_left where it has changed,
candidates examined, and whether new requests, or any candidate, are still taken (R111 to R114). -/
structure Phase3 where
  free : List (Option Int)
  left : List (Nat × Nat)
  examined : Nat
  noNew : Bool
  stopped : Bool

/-- Where a candidate is taken from: a work queue, the carried list, or its join (R111, R151). -/
inductive Source where
  | queue (n : Nat)
  | list (c : Cand)
  | join
  deriving DecidableEq, Repr

/-- Frame capacity of a partition, none without a cost limit (R114). -/
def State.frameCapacity (s : State) (part : Nat) : Option Nat :=
  let c := s.par K.admitCapacity part
  if c = 0xFFFFFFFF then none else some (c * s.par K.tickPeriodUs)

/-- A flow holds its reservation against free capacity (R114, R148). -/
def Flow.reserves (f : Flow) (st : FlowState) : Bool :=
  f.resValid && (st == .joined || ((st == .leavePending || st == .leaving) && f.prev != .suspended))

/-- Reservations held in a partition (R114). -/
def State.reserved (s : State) (part : Nat) : Nat :=
  ((s.adm.flows.filter fun e => e.2.part == part && e.2.reserves (s.flowState e.1)).map fun e => e.2.resv).sum

/-- The start of phase 3 (R114). -/
def State.phase3Start (s : State) : Phase3 :=
  { free := (List.range 16).map fun p => (s.frameCapacity p).map fun c => (c : Int) - (s.reserved p : Int)
    left := [], examined := 0, noNew := false, stopped := false }

/-- Free capacity of a partition; none where there is no limit. -/
def Phase3.freeOf (p : Phase3) (part : Nat) : Option Int := p.free.getD part none

/-- Adds to the free capacity of a partition. -/
def Phase3.addFree (p : Phase3) (part : Nat) (d : Int) : Phase3 :=
  { p with free := p.free.set part ((p.freeOf part).map (· + d)) }

/-- reserve_left of a flow (R114). -/
def State.leftOf (s : State) (p : Phase3) (f : Nat) : Nat :=
  match p.left.find? fun e => e.1 == f with
  | some e => e.2
  | none => if (s.flow f).reserves (s.flowState f) then (s.flow f).resv else 0

/-- Sets reserve_left of a flow. -/
def Phase3.setLeft (p : Phase3) (f v : Nat) : Phase3 := { p with left := (f, v) :: p.left }

/-- reserve_left of the flow of a request, 0 for an unflowed one (R115). -/
def State.leftFor (s : State) (p : Phase3) (r : Block) : Nat := if Req.flowed r then s.leftOf p (Req.flowId r) else 0

/-- A cost fits free capacity and what is left of a reservation (R115). -/
def costFits (free : Option Int) (left cost : Nat) : Bool :=
  match free with
  | none => true
  | some f => decide ((cost : Int) ≤ f + (left : Int))

/-- The admission path limit in ns (R115). -/
def State.pathLimit (s : State) : Nat := s.par K.tickPeriodUs * 10 * s.par K.pathLimitPct

/-- The step table entry that a request asks for next; none where its image is gone. -/
def State.stepEntry (s : State) (h : Hold) : Option Block :=
  match s.image (Req.image h.record) with
  | some i => i.steps[h.step]?
  | none => none

/-- A Delay List entry is free (R121). -/
def State.delayRoom (s : State) : Bool := decide (s.adm.delay.length < 131072)

/-- The graph that fits: full, then fallback; the answer says whether it is the fallback graph (R115). -/
def State.choose (s : State) (h : Hold) (free : Option Int) (left : Nat) : Option Bool :=
  match s.stepEntry h with
  | none => none
  | some e =>
    let deadline := decide (Req.deadline h.record = 0) || decide (h.frame > 0) || s.delayRoom
    let fits (path cost : Nat) : Bool := deadline && decide (path ≤ s.pathLimit) && costFits free left cost
    if fits (StepEntry.fullPath e) (StepEntry.fullCost e) then some false
    else if fits (StepEntry.fallbackPath e) (StepEntry.fallbackCost e) then some true
    else none

/-- The fallback graph of a step could never fit (R118). The spec says nothing of a step that its image does not have,
one whose CHAINED predecessor is the image's last or whose image has been unloaded since: the model's choice is that
it never fits, so that it ends with CANCELLED (R58; DESIGN CHOICE, log 84). -/
def State.neverFits (s : State) (h : Hold) : Bool :=
  match s.stepEntry h with
  | none => true
  | some e =>
    decide (StepEntry.fallbackPath e > s.pathLimit)
    || (match s.frameCapacity (Req.part h.record) with
        | some c => decide (StepEntry.fallbackCost e > c)
        | none => false)

/-- An entry of the carried list is free (R112). -/
def State.carriedRoom (s : State) : Bool := decide (s.adm.carried.length < 8192)

/-- Writes the carried list. -/
def State.setCarried (s : State) (l : List Cand) : State := { s with adm := { s.adm with carried := l } }

/-- A candidate takes its place in the carried list, in order of original arrival (R111). -/
def State.insertCand (s : State) (c : Cand) : State :=
  s.setCarried (insertBy (fun a b => decide (a.at_ < b.at_)) c s.adm.carried)

/-- A candidate leaves the carried list (R113). -/
def State.dropCand (s : State) (c : Cand) : State := s.setCarried (dropFirst (· == c) s.adm.carried)

/-- The record at the head of a work queue is taken. -/
def State.popRecord (s : State) (n : Nat) : State :=
  (s.takeWord n).modQueue n fun q => { q with accepted := q.accepted.drop 1 }

/-- A candidate leaves the place it was taken from. -/
def State.takeFrom (s : State) (src : Source) : State :=
  match src with
  | .queue n => s.popRecord n
  | .list c => s.dropCand c
  | .join => s

/-- A decision is recorded, and logged in RECORD (R119, R381). -/
def State.decide_ (s : State) (ctx : Nat) (gen : BitVec 16) (id code reqNo step flow : Nat) : State :=
  let d : Decision := { tick := s.tick.number, ctx := ctx, gen := gen, id := id, code := code }
  let s := { s with adm := { s.adm with decisions := s.adm.decisions ++ [d] } }
  s.logInput s.tick.number L.decision ctx gen.toNat (at' reqNo 356 20 + at' step 344 12 + at' code 340 4 + at' flow 320 20) []

/-- REQUEST_NO of a request: its admission count, or before its first admission the count it would take (R121). -/
def State.reqNoOf (s : State) (h : Hold) : Nat := if h.frame > 0 then h.reqNo else (s.ctx (Req.ctx h.record)).reqCount

/-- A decision on a step request (R119). -/
def State.decideStep (s : State) (n : Nat) (h : Hold) (code : Nat) : State :=
  let r := h.record
  s.decide_ (Req.ctx r) (Req.gen r) n code (s.reqNoOf h) h.step (if Req.flowed r then Req.flowId r else 0)

/-- A decision on a flow: the deferral of its join, or its suspension (R119). -/
def State.decideFlow (s : State) (f code : Nat) : State :=
  let e := s.flow f
  s.decide_ e.ctx e.gen f code (s.ctx e.ctx).reqCount 0 f

/-- A candidate is carried: it keeps the entry it held, or takes a free one; a new request that finds none stays at the
head of its queue, and no more new requests are taken (R112, R113). The last answer says whether it is carried. -/
def State.carry (s : State) (p : Phase3) (src : Source) (c : Cand) : State × Phase3 × Bool :=
  match src with
  | .queue n =>
    if s.carriedRoom then
      let s := (s.popRecord n).insertCand c
      let s := if c.kind == .request then s.modHold c.id fun h => { h with phase := .carried } else s
      (s, p, true)
    else (s, { p with noNew := true }, false)
  | _ => (s, p, true)

/-- Inserts a Delay List entry after those of the same or an earlier EXPIRY (R121). -/
def State.insertDelay (s : State) (e : DelayEntry) : State :=
  let before (a b : DelayEntry) : Bool := serialLt 32 a.expiry.toNat b.expiry.toNat
  { s with adm := { s.adm with delay := insertBy before e s.adm.delay } }

/-- What the first admission of a request does: REQUEST_NO, its deadline and delayed-release entries, and whether it
carries a run digest (R121, R122, R157, R374). -/
def State.firstAdmission (s : State) (n : Nat) (h : Hold) : State :=
  let r := h.record
  let c := Req.ctx r
  let no := (s.ctx c).reqCount
  let s := s.modCtx c fun x => { x with reqCount := (no + 1) % 2 ^ 20 }
  let s := s.modHold n fun h => { h with
    reqNo := no, admitTick := s.tick.number, digestOn := s.digestsContext c, chipCount := s.par K.chipCount
    imageDigest := s.imageDigestOf h }
  let s := if Req.deadline r = 0 then s else
    s.insertDelay { expiry := s.tick32 + BitVec.ofNat 32 (Req.deadline r), reqNo := no, gen := Req.gen r, ctx := c }
  let d := (s.flow (Req.flowId r)).delay
  if !Req.flowed r || d == 0 then s
  else if !s.delayRoom then s.bump K.delayReleaseSkipped
  else
    let s := s.insertDelay { expiry := s.tick32 + BitVec.ofNat 32 d, seq := Req.flowSeq r, flow := Req.flowId r,
                             gen := Req.gen r, ctx := c, release := true }
    s.modHold n fun h => { h with delayed := true }

/-- The instance of an admitted step, handed to the Graph Loader in admission order (R59, R106). -/
def State.grant (s : State) (n : Nat) (h : Hold) (e : Block) (fb : Bool) : State :=
  let r := h.record
  let used := s.loader.instances.map (·.id)
  let id := ((List.range (used.length + 1)).find? fun k => !used.contains k).getD 0
  let g := if fb then StepEntry.fallback e else StepEntry.full e
  let i : Instance := {
    id := id, hold := n, ctx := Req.ctx r, gen := Req.gen r, part := Req.part r, image := Req.image r, step := h.step
    fallback := fb, wlog := g.wlog, first := g.first, count := g.count, admitTick := s.tick.number, frame := h.frame }
  { s with loader := { s.loader with instances := s.loader.instances ++ [i] } }

/-- The capacity that an admitted step draws: reserve_left first, and then free capacity (R115). -/
def State.draw (s : State) (p : Phase3) (r : Block) (cost : Nat) : Phase3 :=
  let left := s.leftFor p r
  let take := Nat.min left cost
  let p := p.addFree (Req.part r) (-((cost - take : Nat) : Int))
  if Req.flowed r then p.setLeft (Req.flowId r) (left - take) else p

/-- A step is admitted to a graph; a CHAINED step leaves its successor on the carried list (R58, R113, R115, R119). -/
def State.admitStep (s : State) (p : Phase3) (n : Nat) (fb : Bool) (src : Source) : State × Phase3 :=
  match s.hold n with
  | none => (s, p)
  | some h =>
    match s.stepEntry h with
    | none => (s, p)
    | some e =>
      let r := h.record
      let p := s.draw p r (if fb then StepEntry.fallbackCost e else StepEntry.fullCost e)
      let s := s.decideStep n h (if fb then 1 else 0)
      let s := if h.frame = 0 then s.firstAdmission n h else s
      let s := s.bump (if fb then K.stepsAdmittedFallback else K.stepsAdmittedFull)
      let s := (s.takeFrom src).grant n h e fb
      let s := s.modHold n fun x => { x with
        phase := .admitted, decisions := x.decisions ++ [fb], fallback := x.fallback || fb, frame := x.frame + 1 }
      if StepEntry.chained e then
        let s := s.modHold n fun x => { x with step := x.step + 1 }
        (s.insertCand { kind := .chained, id := n, at_ := h.at_, tin := Req.tin r }, p)
      else (s, p)

/-- A step whose fallback graph could never fit ends with CANCELLED; a chained one does so once its running frame step
has completed (R58, R118). -/
def State.cancelStep (s : State) (n : Nat) (h : Hold) (src : Source) : State :=
  let s := ((s.takeFrom src).bump K.admitImpossible).decideStep n h 4
  if h.frame = 0 then s.cancelRequest n
  else
    let s := s.modHold n fun h => { h with cancelled := true }
    if s.loader.instances.any fun i => i.hold == n && decide (i.done < i.count) then s else s.completeRequest n

/-- The Tin flow of a partition that is suspended next: it holds a reservation, and joined most recently (R117). -/
def State.tinVictim (s : State) (part : Nat) : Option Nat :=
  let l := s.adm.flows.filter fun e =>
    s.flowState e.1 == .joined && e.2.tin && e.2.resValid && decide (e.2.resv > 0) && e.2.part == part
  let top := listMax (l.map fun e => e.2.joinAt)
  (l.find? fun e => e.2.joinAt == top).map (·.1)

/-- A Tin flow is suspended: its reservation returns, its running tasks are pre-empted, those that would resume are not
issued while it lasts (State.resumeHeld), and it is carried as a rejoin (R117, R196). -/
def State.suspend (s : State) (p : Phase3) (f : Nat) : State × Phase3 :=
  let e := s.flow f
  let p := (p.addFree e.part e.resv).setLeft f 0
  let s := (s.decideFlow f 3).modFlow f fun e => { e with state := .suspended }
  let s := (s.bump K.tinSuspended).insertCand { kind := .rejoin, id := f, at_ := e.at_, tin := true }
  (s.preemptFlow f, p)

/-- Examines a candidate, and again after each suspension, until it fits or nothing is left to suspend (R117); fuel is
the number of flows. -/
def State.tryFit {α : Type} (test : State → Phase3 → Option α) (steel : Bool) (part : Nat) :
    Nat → State → Phase3 → State × Phase3 × Option α
  | 0, s, p => (s, p, test s p)
  | k + 1, s, p =>
    match test s p with
    | some a => (s, p, some a)
    | none =>
      match s.tinVictim part with
      | none => (s, p, none)
      | some f =>
        if steel && s.carriedRoom then
          let (s, p) := s.suspend p f
          State.tryFit test steel part k s p
        else (s, p, none)

/-- In REPLAY, the decision logged for a candidate: SUSPENDED entries before it suspend their flows, and an entry for
another candidate diverges (R386, R387); a candidate that R113 blocks has none. Fuel is the number of entries due. -/
def State.logged (blocked : State → Bool) (mine : LogEntry → Bool) : Nat → State → Phase3 → State × Phase3 × Option Nat
  | 0, s, p => (s, { p with stopped := true }, none)
  | k + 1, s, p =>
    if blocked s then (s, p, none)
    else
    match s.dueEntry fun e => e.kind == L.decision && decide (e.tick ≤ s.tick.number.toNat) with
    | none => (s, { p with stopped := true }, none)
    | some e =>
      if e.arg 340 4 = 3 then
        let f := e.arg 320 20
        if s.flowState f = .joined ∧ (s.flow f).tin then
          let (s, p) := (s.reproduced e).suspend p f
          State.logged blocked mine k s p
        else (s.diverge e, { p with stopped := true }, none)
      else if mine e then (s.reproduced e, p, some (e.arg 340 4))
      else (s.diverge e, { p with stopped := true }, none)

/-- Entries due, as fuel. -/
def State.dueCount (s : State) : Nat := s.replay.due.length + 1

/-- A decision is logged in REPLAY for this step request. -/
def State.isDecisionOf (s : State) (h : Hold) (e : LogEntry) : Bool :=
  e.ctx == Req.ctx h.record && e.arg 356 20 == s.reqNoOf h && e.arg 344 12 == h.step
    && e.arg 320 20 == (if Req.flowed h.record then Req.flowId h.record else 0)

/-- A new CHAINED request that finds no free entry stays at the head of its queue (R113). -/
def State.chainBlocked (s : State) (h : Hold) (src : Source) : Bool :=
  let chained := ((s.stepEntry h).map StepEntry.chained).getD false
  match src with
  | .queue _ => chained && !s.carriedRoom
  | _ => false

/-- A request deferred with the join of its flow is counted once (R116). -/
def State.deferWithJoin (s : State) (n : Nat) : State :=
  if ((s.hold n).map (·.deferred)).getD true then s
  else (s.bump K.joinsDeferred).modHold n fun h => { h with deferred := true }

/-- A deferred join is counted once (R116). -/
def State.deferJoin (s : State) (f : Nat) : State :=
  if (s.flow f).deferred then s else (s.bump K.joinsDeferred).modFlow f fun e => { e with deferred := true }

/-- A deferred step: carried, and counted (R118). -/
def State.deferStep (s : State) (p : Phase3) (n : Nat) (h : Hold) (src : Source) (c : Cand) (key : Nat) : State × Phase3 :=
  match s.carry p src c with
  | (s, p, true) => ((s.bump key).decideStep n h 2, p)
  | (s, p, false) => (s, p)

/-- A step request, or a chained frame step, is examined (R115 to R119, R151). -/
def State.examineStep (s : State) (p : Phase3) (n : Nat) (h : Hold) (src : Source) (c : Cand) : State × Phase3 :=
  let r := h.record
  let joining := Req.flowed r && s.flowState (Req.flowId r) == .joining
  let blocked (s : State) : Bool := s.chainBlocked h src
  if blocked s then (s, { p with noNew := true })
  else
    let (s, p, code) := if s.following then State.logged blocked (s.isDecisionOf h) s.dueCount s p
      else if joining then (s, p, some 2)
      else
        let test (s : State) (p : Phase3) : Option Bool :=
          if blocked s then none else s.choose h (p.freeOf (Req.part r)) (s.leftFor p r)
        let (s, p, g) := State.tryFit test (!Req.tin r) (Req.part r) (s.adm.flows.length + 1) s p
        let code := match g with
          | some fb => if fb then 1 else 0
          | none => if s.neverFits h then 4 else 2
        (s, p, some code)
    if blocked s then (s, { p with noNew := true })
    else
    match code with
    | none => (s, p)
    | some 0 => s.admitStep p n false src
    | some 1 => s.admitStep p n true src
    | some 4 => (s.cancelStep n h src, p)
    | some _ =>
      if joining then
        match s.carry p src c with
        | (s, p, true) => ((s.deferWithJoin n).decideStep n h 2, p)
        | (s, p, false) => (s, p)
      else s.deferStep p n h src c K.admissionsDeferred

/-- Entries of the reservation table in use (R116, R158). -/
def State.reservations (s : State) : Nat :=
  (s.adm.flows.filter fun e => e.2.resValid && s.flowState e.1 != .free).length + s.adm.released.length

/-- The hold entry of the first step of a joining flow (R151). -/
def State.firstStep (s : State) (f : Nat) : Option (Nat × Hold) :=
  match s.flowHold f (s.flow f).first with
  | none => none
  | some n => match s.hold n with
    | some h => if h.phase = .queued ∨ h.phase = .carried then some (n, h) else none
    | none => none

/-- Whether a join fits, with the graph of its first step; a first step already ended leaves the join alone (R116). -/
def State.joinFits (f : Nat) (inList : Bool) (s : State) (p : Phase3) : Option (Option (Nat × Bool)) :=
  let e := s.flow f
  let free := p.freeOf e.part
  if !costFits free 0 e.resv then none
  else if e.resv ≠ 0 ∧ s.reservations ≥ 1024 then none
  else
    match s.firstStep f with
    | none => some none
    | some (n, h) =>
      let chained := ((s.stepEntry h).map StepEntry.chained).getD false
      if chained && !inList && !s.carriedRoom then none
      else (s.choose h (free.map (· - (e.resv : Int))) e.resv).map fun fb => some (n, fb)

/-- A join is admitted: the flow is JOINED and holds its reservation (R116, R148). -/
def State.joined (s : State) (p : Phase3) (f : Nat) : State × Phase3 :=
  let e := s.flow f
  let used := s.adm.released ++ ((s.adm.flows.filter fun e => e.2.resValid).map fun e => e.2.resIndex)
  let index := ((List.range 1024).find? fun k => !used.contains k).getD 0
  let at_ := s.adm.order
  let s := s.modFlow f fun e => { e with
    state := .joined, joinAt := at_, resValid := decide (e.resv ≠ 0), resIndex := if e.resv = 0 then 0 else index }
  let s := { s with adm := { s.adm with order := at_ + 1 } }
  (s.bump K.flowsJoined, (p.addFree e.part (-(e.resv : Int))).setLeft f e.resv)

/-- A join is examined with its first step; one that does not fit is deferred whole (R116, R151). -/
def State.examineJoin (s : State) (p : Phase3) (f : Nat) (src : Source) (c : Cand) : State × Phase3 :=
  let e := s.flow f
  let inList := match src with
    | .list _ => true
    | _ => false
  let (s, p, fit) := if s.following then
      let mine (x : LogEntry) : Bool := x.ctx == e.ctx && x.arg 320 20 == f
      let (s, p, code) := State.logged (fun _ => false) mine s.dueCount s p
      let first := (s.firstStep f).map (·.1)
      let fit := match code with
        | some 0 => some (first.map fun n => (n, false))
        | some 1 => some (first.map fun n => (n, true))
        | _ => none
      (s, p, fit)
    else State.tryFit (State.joinFits f inList) (!e.tin) e.part (s.adm.flows.length + 1) s p
  if p.stopped then (s, p)
  else
    match fit with
    | some step =>
      let (s, p) := (s.takeFrom src).joined p f
      match step with
      | some (n, fb) => s.admitStep p n fb .join
      | none => (s, p)
    | none =>
      match s.carry p src c with
      | (s, p, true) =>
        let s := s.deferJoin f
        let s := match s.firstStep f with
          | some (n, _) => s.modHold n fun h => { h with phase := .carried }
          | none => s
        (s.decideFlow f 2, p)
      | (s, p, false) => (s, p)

/-- A suspended Tin flow rejoins with its original reservation where free capacity covers it (R117, R148). Whether a
rejoin renews the flow's place among the flows that joined most recently the spec leaves open: the model's choice is
that the place of the first join stays (DESIGN CHOICE, log 86). -/
def State.examineRejoin (s : State) (p : Phase3) (f : Nat) (c : Cand) : State × Phase3 :=
  let e := s.flow f
  if costFits (p.freeOf e.part) 0 e.resv then
    ((s.dropCand c).modFlow f fun e => { e with state := .joined }, (p.addFree e.part (-(e.resv : Int))).setLeft f e.resv)
  else (s, p)

/-- JOB_OPEN, JOB_CLOSE and LEAVE records take their turn and charge nothing (R63, R118, R129, R152). DESIGN CHOICE
(log 3): their ADMIT_TICK is the tick at which they were examined. -/
def State.examineAdmin (s : State) (n : Nat) (h : Hold) (src : Source) : State :=
  let r := h.record
  let c := Req.ctx r
  let s := (s.takeFrom src).modHold n fun h => { h with phase := .admitted, admitTick := s.tick.number }
  if Req.command r = cmdJobOpen then
    (s.modCtx c fun x => { x with
      job := true, image := Req.image r, part := Req.part r, resultQueue := Req.openQueue r
      openPending := false }).completeRequest n
  else if Req.command r = cmdJobClose then
    s.modCtx c fun x => { x with closePending := true, closeHold := some (x.closeHold.getD n) }
  else s

/-- A candidate is examined (R111). -/
def State.examine (s : State) (p : Phase3) (src : Source) (c : Cand) : State × Phase3 :=
  let p := { p with examined := p.examined + 1 }
  match c.kind with
  | .join => s.examineJoin p c.id src c
  | .rejoin => s.examineRejoin p c.id c
  | _ =>
    match s.hold c.id with
    | none => (s.takeFrom src, p)
    | some h =>
      if Req.command h.record = cmdStep then s.examineStep p c.id h src c
      else (s.examineAdmin c.id h src, p)

/-- What becomes of a candidate in its turn: examined, carried unexamined in Morning, or left where it is (R402, R425,
R443). -/
inductive Turn where
  | examine | carry | leave
  deriving DecidableEq, Repr

/-- A partition with every window in stripe group 0 of 6 ports (R425). -/
def State.morningReady (s : State) (part : Nat) : Bool :=
  s.groupSize == 6 && (List.range 4).all fun g => g == 0 || !bit (s.window part g) 31

/-- A forced disruptive test keeps candidates of a partition from being examined (R443). -/
def State.testBlocks (s : State) (part : Nat) : Bool :=
  let t := s.power.selfTest
  decide (t.state ≠ 0) && !t.waitTick && (t.kind == 0x12 || (t.kind == 0x10 && bit (s.window part t.target) 31))

/-- Context and partition of a candidate. -/
def State.candOwner (s : State) (c : Cand) : Nat × Nat :=
  match c.kind with
  | .join | .rejoin => ((s.flow c.id).ctx, (s.flow c.id).part)
  | _ => match s.hold c.id with
    | some h => (Req.ctx h.record, Req.part h.record)
    | none => (0, 0)

/-- The turn of a candidate. -/
def State.turn (s : State) (c : Cand) : Turn :=
  let (ctx, part) := s.candOwner c
  if s.tearing ctx || s.testBlocks part then .leave
  else if s.power.stage = 1 ∧ (c.tin ∨ !s.morningReady part) then .carry
  else .examine

/-- Phase 3 goes on: ADMIT_LIMIT is not reached, another instance can live, the log has room, and no replay entry is
missing (R66, R111, R382; log 87). -/
def State.mayExamine (s : State) (p : Phase3) : Bool :=
  !p.stopped && decide (p.examined < s.par K.admitLimit) && decide (s.loader.instances.length < 8192) && s.logRoom

/-- The Graph Loader waits for a window: new requests stay in their work queues (R64). -/
def State.windowStalled (s : State) : Bool :=
  match s.loader.instances.find? fun i => i.base.isNone && !s.tearing i.ctx with
  | none => false
  | some i => (s.freeWindow i.width).isNone

/-- A new request may be taken from a work queue: a carried entry is free, and no window is waited for; a replay
follows its log's decisions (R64, R112, R386; log 87). -/
def State.mayTakeNew (s : State) (p : Phase3) : Bool :=
  !p.noNew && s.mayExamine p && s.carriedRoom && (s.following || !s.windowStalled)

/-- A carried candidate still stands (R113). -/
def State.candLives (s : State) (c : Cand) : Bool :=
  match c.kind with
  | .join => s.flowState c.id == .joining
  | .rejoin => s.flowState c.id == .suspended
  | _ => match s.hold c.id with
    | some h => h.at_ == c.at_ && h.phase != .complete
    | none => false

/-- The turn of one carried candidate of the list as it stood at the start of phase 3. -/
def State.carriedTurn (sp : State × Phase3) (c : Cand) : State × Phase3 :=
  let (s, p) := sp
  if !s.adm.carried.contains c then sp
  else if !s.candLives c then (s.dropCand c, p)
  else if !s.mayExamine p || s.turn c != .examine then sp
  else s.examine p (.list c) c


/-- The candidate that an accepted record is; none for one that has gone already. -/
def State.recordCand (s : State) (kind : Nat) (e : Nat × Nat) : Option Cand :=
  match s.waitingHold e with
  | some h => some { kind := .request, id := e.2, at_ := e.1, tin := Req.tin h.record }
  | none =>
    if kind = kindFlow ∧ s.joinOf e then some { kind := .join, id := e.2, at_ := e.1, tin := (s.flow e.2).tin } else none

/-- Records at the head of a queue that have gone already are dropped; fuel is the number of records (R151, R156). -/
def State.dropGone (n : Nat) : Nat → State → State
  | 0, s => s
  | k + 1, s =>
    match (s.queue n).accepted with
    | [] => s
    | e :: _ => if (s.recordCand (s.queue n).kind e).isSome then s else State.dropGone n k (s.popRecord n)

/-- A record may be examined: a JOIN has its first step, and a first step is examined with its join (R151). -/
def State.recordReady (s : State) (c : Cand) : Bool :=
  match c.kind with
  | .join => (s.flow c.id).acc != (s.flow c.id).first
  | _ => match s.hold c.id with
    | none => false
    | some h =>
      let r := h.record
      !(Req.command r == cmdStep && Req.flowed r && s.flowState (Req.flowId r) == .joining
        && Req.flowSeq r == (s.flow (Req.flowId r)).first)

/-- The heads of the work queues, as candidates with their queues (R105, R111). -/
def State.heads (s : State) : List (Nat × Cand) :=
  (s.qs.queues.filter fun e => e.2.enable && decide (e.2.kind ≤ 1)).filterMap fun e =>
    match e.2.accepted with
    | [] => none
    | x :: _ => (s.recordCand e.2.kind x).map fun c => (e.1, c)

/-- The work queues without the records at their heads that have gone. -/
def State.cleanQueues (s : State) : State :=
  s.each (s.qs.queues.filter fun e => e.2.enable && decide (e.2.kind ≤ 1)) fun s e =>
    State.dropGone e.1 e.2.accepted.length s

/-- New requests of a pass, earliest acceptance first; fuel is their number (R111, R112). -/
def State.newPass (tin : Bool) : Nat → State × Phase3 → State × Phase3
  | 0, sp => sp
  | k + 1, (s0, p) =>
    let s := s0.cleanQueues
    if !s.mayTakeNew p then (s, p)
    else
      let l := s.heads.filter fun e => e.2.tin == tin && s.recordReady e.2 && s.turn e.2 != .leave
      match argMin (fun e => e.2.at_) l with
      | none => (s, p)
      | some (n, c) =>
        if s.turn c = .carry then
          let (s, p, _) := s.carry p (.queue n) c
          State.newPass tin k (s, p)
        else State.newPass tin k (s.examine p (.queue n) c)

/-- Records waiting in the work queues. -/
def State.waitingRecords (s : State) : Nat :=
  ((s.qs.queues.filter fun e => decide (e.2.kind ≤ 1)).map fun e => e.2.accepted.length).sum

/-- One pass of phase 3: the carried candidates, then the new requests (R111). -/
def State.pass (l : List Cand) (tin : Bool) (sp : State × Phase3) : State × Phase3 :=
  let sp := (l.filter fun c => c.tin == tin).foldl State.carriedTurn sp
  State.newPass tin (sp.1.waitingRecords + 1) sp

/-- A LEAVE of a SUSPENDED flow removes its rejoin and frees its reservation at the next boundary (R148). -/
def State.freeSuspended (s : State) : State :=
  let left (f : Nat) : Bool := s.flowState f == .leavePending && (s.flow f).prev == .suspended
  let s := s.setCarried (s.adm.carried.filter fun c => !(c.kind == .rejoin && left c.id))
  s.each (s.adm.flows.filter fun e => left e.1 && e.2.resValid) fun s e =>
    s.modFlow e.1 fun f => { f with resValid := false, resv := 0, resIndex := 0 }

/-- Every accepted step of a flow has been admitted, its frame steps included (R58, R148). -/
def State.allAdmitted (s : State) (f : Nat) : Bool :=
  let mine (h : Hold) : Bool := Req.command h.record == cmdStep && Req.flowed h.record && Req.flowId h.record == f
    && Req.ctx h.record == (s.flow f).ctx && Req.gen h.record == (s.flow f).gen
  !(s.adm.holds.any fun e => mine e.2 && (e.2.phase == .queued || e.2.phase == .carried))
  && !(s.adm.carried.any fun c => c.kind == .chained && ((s.hold c.id).map mine).getD false)

/-- LEAVE_PENDING becomes LEAVING at the end of phase 3 (R148). -/
def State.endLeavePending (s : State) : State :=
  s.each (s.adm.flows.filter fun e => s.flowState e.1 == .leavePending && s.allAdmitted e.1) fun s e =>
    s.modFlow e.1 fun f => { f with state := .leaving }

/-- Admission examines no candidate: Dawn, Night, a drain for P2 or P3, or a divergence (R387, R411, R423, R438). -/
def State.admissionClosed (s : State) : Bool :=
  s.power.stage == 0 || s.resets.night || s.power.draining || s.tick.admitHold

/-- In REPLAY a decision whose candidate is missing diverges (R387). -/
def State.unusedDecision (s : State) : State :=
  if !s.following then s
  else
    match s.dueEntry fun e => e.kind == L.decision && decide (e.tick ≤ s.tick.number.toNat) with
    | none => s
    | some e => s.diverge e

/-- Phase 3 (R106, R111 to R119); without room in the log no candidate is examined (R382). -/
def State.phase3 (s : State) : State :=
  let s := ({ s with adm := { s.adm with decisions := [] } }).freeSuspended
  let s := if s.admissionClosed then s
    else
      let l := s.adm.carried
      let (s, _) := State.pass l true (State.pass l false (s, s.phase3Start))
      (if s.logRoom then s else s.logWaits).unusedDecision
  s.endLeavePending

/-- A leaving flow may be released: its steps have completed, their results have left, and no delayed-release entry of
it remains (R120). -/
def State.mayLeave (s : State) (f : Nat) : Bool :=
  let e := s.flow f
  s.flowState f == .leaving && e.acc == e.rel
  && !s.adm.delay.any fun d => d.release && d.flow == f && d.ctx == e.ctx && d.gen == e.gen

/-- A leaving flow is released: its LEAVE record takes the final ACCEPT_SEQ and is posted, and its entry is freed
(R120, R149, R153). -/
def State.releaseLeaving (s : State) (f : Nat) : State :=
  let e := s.flow f
  let s := match e.leaveHold with
    | none => s
    | some n =>
      (s.modHold n fun h => { h with
        record := setBits h.record 168 24 e.acc.toNat, phase := .complete
        completeTick := s.tick.number }).postOrWait e.resultQueue n
  s.modFlow f fun _ => {}

/-- Phase 2: leaving flows released in the order in which their leaves were requested, at most FLOW_LEAVE_LIMIT, and the
reservations of torn-down flows returned (R106, R120, R158). -/
def State.phase2 (s : State) : State :=
  let l := (s.adm.flows.map (·.1)).filter s.mayLeave
  let l := sortBy (fun a b => decide ((s.flow a).leaveAt < (s.flow b).leaveAt)) l
  let s := s.each (l.take (s.par K.flowLeaveLimit)) State.releaseLeaving
  { s with adm := { s.adm with released := [] } }

/-- The request of a deadline entry has completed (R123). -/
def State.deadlineDone (s : State) (d : DelayEntry) : Bool :=
  !s.adm.holds.any fun e => Req.command e.2.record == cmdStep && Req.ctx e.2.record == d.ctx && Req.gen e.2.record == d.gen
    && e.2.reqNo == d.reqNo && decide (e.2.frame > 0) && e.2.phase != .complete

/-- At hc 0 of the boundary of their expiry tick, deadline entries sample whether their requests have completed; what
waits in P2 is sampled by the first boundary that runs its phases (R123, R438). -/
def State.sampleDeadlines (s : State) : State :=
  let now := s.tick.number.toNat
  let due (d : DelayEntry) : Bool := !d.tested && serialLe 32 d.expiry.toNat (now % 2 ^ 32)
  let l := modWhere due (fun d => { d with tested := true, doneAtTick := s.deadlineDone d }) s.adm.delay
  { s with adm := { s.adm with delay := l } }

/-- The entry at the head of the Delay Lists, where it has expired at a boundary that runs its phases (R123, R438). -/
def State.expired (s : State) : Option DelayEntry :=
  match s.adm.delay with
  | [] => none
  | d :: _ =>
    if d.tested ∧ serialLe 32 d.expiry.toNat (s.tick.number.toNat % 2 ^ 32) ∧ s.power.state ≠ 2 then some d else none

/-- The head of the Delay Lists is freed. -/
def State.dropDelay (s : State) : State := { s with adm := { s.adm with delay := s.adm.delay.drop 1 } }

/-- A deadline that was missed: counted, recorded in the event log, and LATE on the results released afterwards (R123,
R157). -/
def State.missDeadline (s : State) (d : DelayEntry) : State :=
  let s := (s.bump K.deadlinesMissed).logEvent 0x0001 U.delayLists (at' d.ctx 0 12 + at' d.reqNo 12 20)
  s.each (s.adm.holds.filter fun e => Req.command e.2.record == cmdStep && Req.ctx e.2.record == d.ctx
      && Req.gen e.2.record == d.gen && e.2.reqNo == d.reqNo && decide (e.2.frame > 0)) fun s e =>
    s.modHold e.1 fun h => { h with late := true }

/-- An expired entry of a kind at the head of the Delay Lists is handled; a stale one is only counted (R123). -/
def State.expire (s : State) (release : Bool) (f : State → DelayEntry → State) : State :=
  match s.expired with
  | none => s
  | some d =>
    if d.release ≠ release then s
    else if d.gen ≠ (s.ctx d.ctx).gen then s.dropDelay.bump K.delayStaleDropped
    else f s.dropDelay d

/-- DEADLINE_EXPIRY (R123). -/
def execDeadlineExpiry (s : State) : Host.Outcome State Fault Refusal :=
  runCore (fun s => s.expire false fun s d => if d.doneAtTick then s else s.missDeadline d) s

/-- A delayed-release entry makes its result releasable, in sequence (R123, R155). -/
def State.releaseDelayed (s : State) (d : DelayEntry) : State :=
  match s.flowHold d.flow d.seq with
  | none => s
  | some n =>
    let s := s.modHold n fun h => { h with delayed := false }
    if ((s.hold n).map (·.phase)) = some .complete then s.offerRelease n else s

/-- DELAYED_RELEASE_EXPIRY (R123). -/
def execDelayedReleaseExpiry (s : State) : Host.Outcome State Fault Refusal :=
  runCore (fun s => s.expire true State.releaseDelayed) s

end Sys2Proof.Machine
end

