-- ==== Sys2Proof/Machine/Teardown.lean ====
section
/-! DEFINITION. The teardown of a context: the end of its drain, its report, and the cleanup walks (R158, R182, R216, R241,
R297, R399, R401 to R406). -/
namespace Sys2Proof.Machine

/-- Whether a slot belongs to a context. -/
def State.slotOfCtx (s : State) (c n : Nat) : Bool := (s.slot n).ctx == c && (s.slot n).state != .free

/-- The code that the requests of a torn-down context end with (R401). -/
def finalCode (cause : Nat) : Status :=
  if cause = 0x05 ∨ cause = 0x06 then .timeout else if cause = 0x07 then .dataUncorrectable else .abandoned

/-- Requests of a context and generation that have not produced their result record (R401). -/
def State.openRequests (s : State) (c : Nat) (gen : BitVec 16) : Nat :=
  (s.adm.holds.filter fun e => Req.ctx e.2.record == c && Req.gen e.2.record == gen
    && Req.command e.2.record != cmdLeave).length

/-- TEARDOWN_REPORT (R422). -/
def teardownReport (c : Nat) (gen : BitVec 16) (cause ended : Nat) (tick : BitVec 64) : BitVec 128 :=
  BitVec.ofNat 128 (at' c 116 12 + at' gen.toNat 100 16 + at' cause 92 8 + at' (finalCode cause).code 84 8
    + at' (Nat.min ended (2 ^ 20 - 1)) 64 20 + at' tick.toNat 0 64)

/-- The report of a teardown, its event, and what it counts (R402 step 5, R481). -/
def State.reportTeardown (s : State) (c : Nat) (gen : BitVec 16) (cause ended : Nat) : State :=
  let r := teardownReport c gen cause ended s.tick.number
  let s := { s with resets := { s.resets with report := r } }
  ((s.logEvent 0x0004 U.resetSequencer r.toNat).bump K.teardowns).bump K.requestsEndedByTeardown ended

/-- The FAULT entry of the replay log (R381). -/
def State.logFault (s : State) (level cause c : Nat) (gen : BitVec 16) : State :=
  s.logInput s.entryTick L.fault c gen.toNat (at' level 368 8 + at' cause 360 8) []

/-- A Q_ENQUEUE that is aborted leaves no packet open behind it (R513). -/
def State.abortEnqueue (s : State) (n : Nat) : State :=
  let mine (q : Queue) : Bool := q.packetOpen && decide (q.opener = taskProducer n)
  let s := { s with qs := { s.qs with queues := Sparse.mapAll s.qs.queues {} fun _ q =>
    { q with waiting := q.waiting.filter fun e => e.1 ≠ taskProducer n } } }
  s.each ((s.qs.queues.filter fun e => mine e.2).map (·.1)) State.cutPacket

/-- A request is of a data task among those given. -/
def MemSource.ofTask (mine : Nat → Bool) : MemSource → Bool
  | .task n _ => mine n
  | _ => false

/-- Data-plane units abort the items of the tasks given: each still returns its completion (R402 step 3, R403). -/
def State.abortItems (s : State) (mine : Nat → Bool) : State :=
  let items := (s.mat.slots.filter fun e => mine e.1 && e.2.state == .issued && e.2.cls == 0xC).map (·.1)
  let s := { s with
    mat := { s.mat with
      aborts := s.mat.aborts ++ items.filter (fun n => !s.mat.aborts.contains n)
      late := s.mat.late.filter fun e => !mine e.1 }
    stripe := { s.stripe with
      heldReads := s.stripe.heldReads.filter fun h => !h.src.ofTask mine
      expired := s.stripe.expired.filter fun x => !x.ofTask mine }
    route := { s.route with sendWaits := s.route.sendWaits.filter fun n => !mine n } }
  ((s.each items State.abortEnqueue).freeLookups mine).freeUpdates mine

/-- A piece of a record in a flit: its requester and its slots. -/
abbrev Piece := FlitOwner × List (BitVec 128)

/-- The pieces of records that slots hold, by the requester and the number of slots of each (R337). -/
def piecesOf : List (BitVec 128) → List (FlitOwner × Nat) → List Piece
  | _, [] => []
  | l, o :: t => (o.1, l.take o.2) :: piecesOf (l.drop o.2) t

/-- Pieces of a flit without those of WRITE records of some tasks that have not begun to leave: whether such a record
goes on behind, the pieces kept and the pieces dropped (R406). -/
def dropPieces (mine : Nat → Bool) : Bool → List Piece → Bool × List Piece × List Piece
  | going, [] => (going, [], [])
  | going, e :: t =>
    match e.1 with
    | .enginePort _ n _ first last =>
      if mine n && (first || going) then
        let (g, kept, gone) := dropPieces mine (!last) t
        (g, kept, e :: gone)
      else
        let (g, kept, gone) := dropPieces mine false t
        (g, e :: kept, gone)
    | _ =>
      let (g, kept, gone) := dropPieces mine going t
      (g, e :: kept, gone)

/-- A flit with other payload slots. -/
def Flit.withSlots (f : Flit) (l : List (BitVec 128)) : Flit :=
  setBits (BitVec.ofNat 2048 (f.toNat / 2 ^ 1920 * 2 ^ 1920 + slotsValue l)) 1993 4 l.length

/-- What is left of a transmit queue without the WRITE records of some tasks that lie in it whole: the flits kept, the
pieces dropped, and the flits of which nothing is left. -/
def dropRecords (mine : Nat → Bool) : Bool → List (Flit × List (FlitOwner × Nat)) →
    List (Flit × List (FlitOwner × Nat)) × List Piece × List Flit
  | _, [] => ([], [], [])
  | going, e :: t =>
    let (g, kept, gone) := dropPieces mine going (piecesOf e.1.records e.2)
    let (flits, pieces, dead) := dropRecords mine g t
    if gone.isEmpty then (e :: flits, pieces, dead)
    else if kept.isEmpty then (flits, gone ++ pieces, e.1 :: dead)
    else
      ((e.1.withSlots (kept.flatMap (·.2)), kept.map fun k => (k.1, k.2.length)) :: flits, gone ++ pieces, dead)

/-- A flit still to be sent takes the STREAM_SEQ that the flits dropped before it leave free (R345). -/
def renumber (own : Nat) (gone : List Flit) (f : Flit) : Flit :=
  let before (g : Flit) : Bool := g.dst == f.dst && g.vc == f.vc && serialLt 18 g.streamSeq.toNat f.streamSeq.toNat
  let k := (gone.filter before).length
  if f.src = own ∧ k > 0 then Flit.sealed (setBits f 1937 18 ((f.streamSeq.toNat + 2 ^ 18 - k) % 2 ^ 18)) else f

/-- BEATS of a WRITE record by its header (R338). -/
def writeBeatCount (l : List (BitVec 128)) : Nat := bits (l.headD 0) 53 7

/-- Engine writes of the tasks given that no link port has accepted are discarded (R406); a memory port accepts a
write at once (R303). -/
def State.discardWrites (s : State) (mine : Nat → Bool) : State :=
  let cut (l : LinkPort) (vc : Nat) : List (Flit × List (FlitOwner × Nat)) × List Piece × List Flit :=
    dropRecords mine false (l.txVc vc).queue
  let gone := s.links.ports.flatMap fun e => (List.range 4).flatMap fun vc => (cut e.2 vc).2.1
  let flits := s.links.ports.flatMap fun e => (List.range 4).flatMap fun vc => (cut e.2 vc).2.2
  let ports := Sparse.mapAll s.links.ports {} fun _ l => (List.range 4).foldl (fun l' vc =>
    l'.modTx vc fun t => { t with queue := (cut l vc).1.map fun e => (renumber s.chipId flits e.1, e.2) }) l
  let s := { s with links := { s.links with ports := ports } }
  let s := s.each flits fun s f =>
    let k := streamKey f.dst f.vc
    { s with links := { s.links with
      streamOut := Sparse.set s.links.streamOut 0 k ((Sparse.get s.links.streamOut 0 k + 2 ^ 18 - 1) % 2 ^ 18) } }
  let s := s.each gone fun s e =>
    match e.1 with
    | .enginePort p _ k first last =>
      let s := if last then s.portWriteAccepted p k else s
      if first then s.bump K.staleWritesDropped (writeBeatCount e.2) else s
    | _ => s
  s.each ((List.range s.build.enginePorts).filter fun p => ((s.port p).held.map mine).getD false) fun s p =>
    match (s.port p).run with
    | none => s
    | some r => ((s.modPort p fun e => { e with run := none }).portWriteAccepted p r.id).bump K.staleWritesDropped
        r.beats.length

/-- A queue of a context is flushed without records (R402 step 4). -/
def Queue.torn (q : Queue) : Queue :=
  { q with head := q.tail, visible := q.tail, flushPending := false, packetOpen := false, packetLeft := 0, packetGot := 0
           readOpen := false, cuts := [], flushTick := false, accepted := [] }

/-- The queues given are flushed without records. -/
def State.tearQueues (s : State) (mine : Queue → Bool) : State :=
  let words := ((s.qs.queues.filter fun e => mine e.2).map fun e => e.2.len).sum
  let qs := Sparse.mapAll s.qs.queues {} fun _ q => if mine q then q.torn.settled else q
  ({ s with qs := { s.qs with queues := qs } }).bump K.queueWordsFlushed words

/-- The flow of a candidate of the carried list, or the hold entry, is of a context. -/
def State.candOf (s : State) (c : Nat) (x : Cand) : Bool := (s.candOwner x).1 == c

/-- The generation of a context is incremented and its job closed: what it had in the control plane ends (R27, R148,
R158, R182, R241, R297, R402 step 4). Answers the requests that ended. -/
def State.endContext (s : State) (c : Nat) : Nat × State :=
  let gen := (s.ctx c).gen
  let ended := s.openRequests c gen
  let mine := s.slotOfCtx c
  let ofCtx (h : Hold) : Bool := Req.ctx h.record == c
  let gone := (s.adm.holds.filter fun e => ofCtx e.2).map (·.1)
  let carried := s.adm.carried.filter fun x => !s.candOf c x
  let back := (s.adm.flows.filter fun e => e.2.ctx == c && e.2.gen == gen && e.2.resValid).map fun e => e.2.resIndex
  let s := s.discardWrites mine
  let s := { s with adm := { s.adm with
    holds := s.adm.holds.filter fun e => !ofCtx e.2
    unposted := s.adm.unposted.filter fun e => !gone.contains e.1
    carried := carried, released := s.adm.released ++ back } }
  let s := s.modCtx c fun x => { x with
    gen := x.gen + 1, genTick := some s.tick.number, job := false, image := 0, resultQueue := 0, openPending := false
    closePending := false, closeHold := none, lastStep := none }
  let s := s.tearQueues fun q => q.ctx == c && (decide (q.kind ≤ 1) || q.kind == kindData)
  let s := ((s.abandonWaits c gen).freeAligns c gen).unlinkWaits mine
  (ended, s.closeExchanges c)

/-- Changes an L0 in progress. -/
def State.modL0 (s : State) (c : Nat) (f : L0 → L0) : State :=
  { s with resets := { s.resets with l0s := modWhere (fun x => x.ctx == c && !x.complete) f s.resets.l0s } }

/-- Steps 4 and 5 of an L0, unless the context's generation has been incremented in this tick already (R402, R404). -/
def State.l0Step4 (s : State) (l : L0) : State :=
  if (s.ctx l.ctx).genTick = some s.tick.number then s.modL0 l.ctx fun x => { x with waitTick := true }
  else
    let gen := (s.ctx l.ctx).gen
    let (ended, s) := s.endContext l.ctx
    let s := s.reportTeardown l.ctx gen l.cause ended
    let s := s.logFault (if l.byReset.isSome then 2 else 0) l.cause l.ctx gen
    let s := (s.bump K.resets 1 0).logReset 0 l.ctx l.cause
    let s := s.modCtx l.ctx fun x => { x with tearing := .cleanup }
    s.modL0 l.ctx fun x => { x with complete := true, waitTick := false }

/-- The drain of an L0 ends: L1 without suspects of the ports that still hold a task of the context, its items aborted,
then steps 4 and 5 (R399, R402). -/
def l0DrainEndEff (c : Nat) (s : State) : State :=
  match s.resets.l0s.find? fun x => x.ctx == c && !x.complete && !x.waitTick with
  | none => s
  | some l =>
    let holding := (List.range s.build.enginePorts).filter fun p => ((s.port p).held.map (s.slotOfCtx c)).getD false
    let s := s.each holding fun s p => s.startL1 p false
    (s.abortItems (s.slotOfCtx c)).l0Step4 l

/-- L0_DRAIN_END (R402). -/
def execL0DrainEnd (c : Nat) (s : State) : Host.Outcome State Fault Refusal := runCore (l0DrainEndEff c) s

/-- A switch without the tasks given: their descriptors still to be written are dropped, and an incoming one does not
come (R216). -/
def Switch.without (w : Switch) (mine : Nat → Bool) : Switch :=
  let first := if w.spilling then w.spills.take 1 else []
  let rest := if w.spilling then w.spills.drop 1 else w.spills
  { w with spills := first ++ rest.filter fun d => !mine d.slot
           restores := w.restores.filter fun d => !mine d.slot
           incoming := w.incoming.filter fun n => !mine n }

/-- The scratch maps and switches of a port without the tasks given: one DISCARD for each parked one (R216). -/
def State.unparkAll (s : State) (mine : Nat → Bool) (p : Nat) : State :=
  let e := s.port p
  let out := (e.parkedTasks.filter fun k => mine k.slot).map fun k => s.discardDesc k.slot k.idx
  let s := s.modPort p fun e => { e with
    parkedTasks := e.parkedTasks.filter fun k => !mine k.slot, discards := e.discards ++ out
    sw := e.sw.map fun w => w.without mine, suspects := e.suspects.filter fun n => !mine n
    bound := e.bound.filter fun n => !mine n
    reads := e.reads.map fun r => if (r.slot.map mine).getD false then { r with slot := none } else r }
  s.spillsDone p

/-- A record owned by a torn-down task has nobody to wait for it any more, but for the commands its port sent after
it. -/
def FlitOwner.without (mine : Nat → Bool) (o : FlitOwner) : FlitOwner :=
  match o with
  | .task n => if mine n then .nobody else o
  | .enginePort p n k first last => if mine n then .enginePort p (2 ^ 20) k first last else o
  | _ => o

/-- Flits of the tasks given go on without them (R406). -/
def State.disownFlits (s : State) (mine : Nat → Bool) : State :=
  let disown (t : TxVc) : TxVc := { t with queue := t.queue.map fun e => (e.1, e.2.map fun o => (o.1.without mine, o.2)) }
  let ports := Sparse.mapAll s.links.ports {} fun _ l => (List.range 4).foldl (fun l vc => l.modTx vc disown) l
  let lose (e : EnginePort) : EnginePort := { e with sent := e.sent.map fun w => if mine w.2 then (w.1, 2 ^ 20) else w }
  { s with links := { s.links with ports := ports }
           disp := { s.disp with ports := Sparse.mapAll s.disp.ports {} fun _ e => lose e } }

/-- The cleanup walks free what the context leaves behind (R69, R158, R182, R216, R402 step 6); its Delay List entries
stay until they expire as stale ones (R122, R123, R404; log 88). -/
def State.cleanContext (s : State) (c : Nat) : State :=
  let mine := s.slotOfCtx c
  let s := s.each (List.range s.build.enginePorts) fun s p => s.unparkAll mine p
  let s := s.each ((s.mat.slots.filter fun e => e.2.ctx == c).map (·.1)) fun s n => s.freeBuffer n
  let s := (s.disownFlits mine).closeAll c
  { s with
    loader := { s.loader with instances := s.loader.instances.filter fun i => i.ctx ≠ c }
    mat := { s.mat with
      pend := s.mat.pend.filter fun x => !mine x.slot
      ready := s.mat.ready.filter fun x => !mine x.slot
      slots := s.mat.slots.filter fun e => e.2.ctx ≠ c }
    adm := { s.adm with
      flows := s.adm.flows.filter fun e => e.2.ctx ≠ c } }

/-- The walks of a context end: it may be opened again (R402). -/
def State.endCleanup (s : State) (c : Nat) : State :=
  let s := (s.cleanContext c).modCtx c fun x => { x with tearing := .none }
  { s with resets := { s.resets with l0s := s.resets.l0s.filter fun x => x.ctx ≠ c } }

/-- The cleanup walks of an L0 finish (R402). -/
def cleanupEff (c : Nat) (s : State) : State := if (s.ctx c).tearing = .cleanup then s.endCleanup c else s

/-- CLEANUP_WALKS_COMPLETE (R402). -/
def execCleanupWalksComplete (c : Nat) (s : State) : Host.Outcome State Fault Refusal := runCore (cleanupEff c) s

end Sys2Proof.Machine
end

