-- ==== Sys2Proof/Machine/Dump.lean ====
section
/-! DEFINITION. Crash dumps: what the Dump Path reads of each unit, and the dump SRAM (R417 to R420, R460, R470). -/
namespace Sys2Proof.Machine

/-- A Delay List entry in the layout of R121. -/
def DelayEntry.word (e : DelayEntry) : Nat :=
  at' e.expiry.toNat 96 32 + at' e.seq.toNat 72 24 + at' e.flow 52 20 + at' e.reqNo 32 20 + at' e.gen.toNat 16 16
  + at' e.ctx 4 12 + at' (if e.release then 2 else 1) 2 2

/-- Encodings of the flow states (R148). -/
def FlowState.code : FlowState → Nat
  | .free => 0
  | .joining => 1
  | .joined => 2
  | .suspended => 3
  | .leavePending => 4
  | .leaving => 5

/-- A Flow Table entry in the layout of R148. -/
def Flow.word (f : Flow) : Nat :=
  at' f.state.code 125 3 + at' f.ctx 113 12 + at' f.gen.toNat 97 16 + flag f.tin 96 + at' f.rel.toNat 72 24
  + at' f.acc.toNat 48 24 + at' f.done.toNat 32 16 + at' f.resultQueue 18 14 + at' f.resIndex 8 10 + flag f.resValid 7
  + at' f.part 3 4 + at' f.delay 0 3

/-- A spill record in the layout of R209. -/
def SpillRec.word (r : SpillRec) : Nat :=
  let seg (i : Nat) : Nat := let g := r.segs.getD i (0, 0); at' g.1 21 21 + at' g.2 0 21
  at' r.addr 448 64 + at' r.live 416 32 + at' r.resident 384 32 + at' (seg 3) 336 48 + at' (seg 2) 288 48
  + at' (seg 1) 240 48 + at' (seg 0) 192 48 + at' r.port 186 6
  + at' (if r = {} then 0 else if r.pinned then r.park else 7) 183 3
  + at' r.segs.length 180 3 + flag r.pinned 179 + at' r.slot 160 19

/-- An alarm latch in the layout of R482. -/
def Latch.word (l : Latch) : Nat :=
  at' l.firstTick.toNat 192 64 + at' l.firstHc.toNat 160 32 + at' l.lastTick.toNat 96 64 + at' l.lastHc.toNat 64 32
  + at' l.count 16 48 + flag l.sat 2 + flag l.held 1 + flag l.pending 0

/-- The entry after n in a list. -/
def nextIn (n : Nat) : List Nat → Option Nat
  | a :: b :: t => if a = n then some b else nextIn n (b :: t)
  | _ => none

/-- NEXT of a slot: the slot after it in the Ready List or the wait list that holds it (R68); zero at the end. -/
def State.listNext (s : State) (n : Nat) : Nat :=
  let key (m : Nat) : Bool × Option Nat × Bool × Nat :=
    ((s.slot m).cls == 0xC, if (s.slot m).cls = 0xC then some (s.dispatcherOf m) else s.listPort m, (s.slot m).tin
    , (s.slot m).share)
  let ready := (s.mat.ready.map (·.slot)).filter fun m => key m = key n
  let waits := (s.sig.objs.map fun e => e.2.waiters.map (·.1)) ++ s.sig.barriers.map fun e => e.2.waiters
  ((ready :: waits).findSome? (nextIn n)).getD 0

/-- The bytes of the first records of a table that a unit's body can hold, and one more where there are more (R418). -/
def recordBytes (size total : Nat) (word : Nat → Nat) : List Byte :=
  (List.range (Nat.min total (32768 / size + 1))).flatMap fun i => leBytes size (word i)

/-- The unit whose latch detects an alarm (R495). -/
def alarmUnit (code : Nat) : Nat :=
  if [A.clockRange, A.tickLost, A.tickSkew, A.throttle, A.thermalTrip, A.voltageRange].contains code then 0x19
  else if code = A.matchProtocol then 0x02
  else if code = A.engineSpared then 0x03
  else if code = A.accountSaturated then 0x16
  else if code = A.partitionViolation ∨ (0x20 ≤ code ∧ code ≤ 0x26) then 0x0D
  else if code = A.queueProtocol then 0x0A
  else if 0x11 ≤ code ∧ code ≤ 0x13 then 0x06
  else if code = A.exchangeProtocol then 0x0C
  else if 0x28 ≤ code ∧ code ≤ 0x2D then 0x0E
  else if 0x30 ≤ code ∧ code ≤ 0x38 then 0x15
  else if code = A.selftestFail then 0x18
  else if code = A.authLocked then 0x14
  else if code = A.fwRejected then 0x11
  else if code = A.replayDiverged then 0x07
  else 0

/-- A unit's own records in the layouts of their chapters, in ascending order (R419); data contents appear only where
data is set. A unit whose chapter gives its records no layout has none. -/
def State.unitRecords (s : State) (data : Bool) (u : Nat) : List Byte :=
  match u with
  | 0x01 => s.loader.images.flatMap fun e =>
      (e.2.steps.flatMap fun w => leBytes 64 w.toNat) ++ (e.2.templates.flatMap fun w => leBytes 32 w.toNat)
      ++ e.2.edges.flatMap fun w => leBytes 4 w.toNat
  | 0x02 => recordBytes 64 slotCount fun n => (s.slot n).word (s.listNext n) data
  | 0x04 => s.adm.delay.flatMap fun e => leBytes 16 e.word
  | 0x05 => recordBytes 16 1048576 fun f => (s.flow f).word
  | 0x06 => recordBytes 16 262144 (fun n => (s.obj n).word) ++ recordBytes 16 4096 (fun n => (s.barrier n).word)
      ++ recordBytes 16 65536 fun n => (s.alignEntry n).word
  | 0x08 => recordBytes 64 4096 fun n => (s.spillRec (n + 1)).word
  | 0x0A => recordBytes 64 16384 fun n => (s.queue n).descriptor
  | 0x0B => (s.emb.tables.flatMap fun e => leBytes 64 e.2.desc.toNat)
      ++ (s.emb.overlay.flatMap fun e => leBytes 64 e.2.word.toNat)
      ++ s.emb.tables.flatMap fun e => e.2.records.flatMap fun r => leBytes 64 r.word.toNat
  | 0x0D => (List.range s.build.memoryPorts).flatMap fun p =>
      (s.mport p).retire.flatMap fun e => leBytes 8 e.2
  | 0x0E => ((List.range s.build.linkPorts).flatMap fun p => leBytes 64 (s.lport p).neighbor.toNat)
      ++ recordBytes 2 4096 fun e => s.par K.routeTable e
  | 0x15 => leBytes 16 s.resets.report.toNat ++ recordBytes 8 16 fun e => s.resets.history.getD e 0
  | 0x16 => recordBytes 32 256 fun k => (s.latch k).word
  | _ => []

/-- A unit's state: its records, and the latches of the alarms that it detects in ascending order of code (R33, R419,
R495; log 60); the Telemetry unit holds them all. -/
def State.unitBody (s : State) (data : Bool) (u : Nat) : List Byte :=
  s.unitRecords data u
  ++ if u = 0x16 then [] else
    ((List.range 128).filter fun k => alarmUnit k == u).flatMap fun k => leBytes 32 (s.latch k).word

/-- The units whose state a snapshot holds (R25). -/
def State.shadowed (s : State) : Shadow :=
  { taken := true, tick := s.tick, loader := s.loader, mat := s.mat, disp := s.disp, adm := s.adm, qs := s.qs
    sig := s.sig, emb := s.emb, route := s.route, stripe := { s.stripe with mem := [] }, links := s.links
    latches := s.tele.latches, history := s.resets.history, report := s.resets.report }

/-- The hub as a snapshot shows it. -/
def State.ofShadow (s : State) (h : Shadow) : State :=
  { s with tick := h.tick, loader := h.loader, mat := h.mat, disp := h.disp, adm := h.adm, qs := h.qs, sig := h.sig
           emb := h.emb, route := h.route, stripe := h.stripe, links := h.links
           tele := { s.tele with latches := h.latches }
           resets := { s.resets with history := h.history, report := h.report } }

/-- A unit record (R418, R419). -/
def unitRecord (u : Nat) (unreachable : Bool) (tick : BitVec 64) (body : List Byte) : List Byte :=
  let long := decide (body.length > 32768)
  let body := body.take 32768
  let kind := if unreachable then 1 else if long then 2 else 0
  leBytes 16 (at' u 120 8 + at' kind 118 2 + at' body.length 64 32 + at' tick.toNat 0 64) ++ body

/-- A dump starts: the Dump Path reads the units as they stand (R417, R418); it is skipped while the dump SRAM holds one
that has not been acknowledged. -/
def State.takeDump (s : State) (trigger cause : Nat) : State :=
  if s.resets.dump.state ≠ 0 then s.bump K.dumpsSkipped
  else
    let d : Dump := { state := 1, trigger := trigger, cause := cause, live := s.shadowed, prev := s.shadow
                      tick := s.tick.number, hc := s.hc32 }
    { s with resets := { s.resets with dump := d } }

/-- A dump on entry to a reset level, while DUMP_AUTO is set (R417). -/
def State.autoDump (s : State) (level cause : Nat) : State :=
  if s.par K.dumpAuto = 1 then s.takeDump level cause else s

/-- The dump (R419). -/
def Dump.image (d : Dump) (units : List Byte) : List Byte :=
  leBytes 64 (at' d.tick.toNat 448 64 + at' d.hc.toNat 416 32 + at' 0x00020000 384 32 + at' (64 + units.length) 352 32
    + at' d.trigger 344 8 + at' d.cause 336 8 + at' 25 328 8) ++ units

/-- The Dump Path has read every unit: a unit that did not answer is recorded with its shadow snapshot, and data
contents are zero below OPEN, the lowering of the level during the dump leaving those already read (R418, R460, R470).
-/
def dumpCompleteEff (unreachable : List Nat) (s : State) : State :=
  let d := s.resets.dump
  if d.state ≠ 1 then s
  else
    let data (u : Nat) : Bool := match d.read with
      | some n => decide (u ≤ n)
      | none => s.mgmt.debugLevel == 2
    let live := s.ofShadow d.live
    let prev := s.ofShadow d.prev
    let units := (List.range 25).flatMap fun i =>
      let u := i + 1
      if unreachable.contains u then unitRecord u true d.prev.tick.number (prev.unitBody (data u) u)
      else unitRecord u false d.tick (live.unitBody (data u) u)
    let d : Dump := { state := 2, bytes := d.image units, trigger := d.trigger, cause := d.cause, tick := d.tick
                      hc := d.hc }
    { s with resets := { s.resets with dump := d } }

/-- DUMP_COMPLETE (R418). -/
def execDumpComplete (unreachable : List Nat) (s : State) : Host.Outcome State Fault Refusal :=
  runMgmt (dumpCompleteEff unreachable) s

end Sys2Proof.Machine
end

