-- ==== Sys2Proof/Machine/Resets.lean ====
section
/-! DEFINITION. The reset ladder at L2 to L5, escalation and Night, and the rows of the Health Monitor and of the dump and
SRAM arrays that need nothing of the management plane (R390 to R400, R405, R410 to R417). -/
namespace Sys2Proof.Machine

/-- The result codes of dictionary requests (R449). -/
def D.ok : Nat := 0
def D.opcode : Nat := 1
def D.noObject : Nat := 2
def D.transport : Nat := 3
def D.gate : Nat := 4
def D.debug : Nat := 5
def D.access : Nat := 6
def D.length : Nat := 7
def D.range : Nat := 8
def D.busy : Nat := 9

/-- A change of the Reset Sequencer's part of the state. -/
def State.modResets (s : State) (f : Resets → Resets) : State := { s with resets := f s.resets }

/-- L1 of a port as part of a reset of a wider scope: an L1 in progress there is taken over and starts again, and no
suspect is replayed (R397, R398, R407). -/
def State.forceL1 (s : State) (p : Nat) : State :=
  let old := (s.port p).suspects
  let s := s.modPort p fun e => { e with
    inL1 := false, l1Suspects := false, replaying := false, suspects := [], guilty := [] }
  (s.each old State.rerun).startL1 p false

/-- Ports of a list that are in L1. -/
def State.inL1 (s : State) (ports : List Nat) : List Nat := ports.filter fun p => (s.port p).inL1

/-- Engine ports of the build. -/
def State.enginePorts (s : State) : List Nat := List.range s.build.enginePorts

/-- A reset of a level is absorbed in one in progress (R398). -/
def State.absorbed (s : State) (level target : Nat) : Bool :=
  s.resets.levels.any fun r => decide (r.level > level) || (r.level == level && (decide (level ≥ 3) || r.target == target))

/-- The power request in progress is abandoned (R438, R444). -/
def State.abandonPower (s : State) : State :=
  if s.power.target.isSome then
    { s with power := { s.power with target := none, draining := false, drained := false, result := 3 } }
  else s

/-- L2 of a partition begins (R397). -/
def State.startL2 (s : State) (part : Nat) : State :=
  if s.absorbed 2 part then s
  else
    let s := s.autoDump 2 0x08
    let ctxs := (s.adm.ctxs.filter fun e => e.2.job && e.2.part == part).map (·.1)
    let s := s.each ctxs fun s c => s.startL0 c 0x08 (some part)
    let ports := s.enginePorts.filter fun p => Cfg.part (s.portConfig p) == part && s.portWorks p
    let s := s.each ports State.forceL1
    let r : LevelReset := { level := 2, target := part, cause := 0x08, ports := s.inL1 ports }
    s.modResets fun x => { x with levels := x.levels ++ [r] }

/-- Every context with an open job ends with cause COMPUTE_RESET, in ascending order (R397, R434, R439). -/
def State.closeContexts (s : State) : State :=
  s.each ((s.adm.ctxs.filter fun e => e.2.job).map (·.1)) fun s c =>
    let gen := (s.ctx c).gen
    let ended := s.openRequests c gen
    let s := s.modCtx c fun x => { x with gen := x.gen + 1, genTick := some s.tick.number, job := false }
    s.reportTeardown c gen 0x09 ended

/-- The control plane's SRAM structures are wiped, and the data plane aborts what they stood for; queues keep their
configuration, ports and logical maps stay, and a spill buffer keeps the mark of the context it was given to last
(R32, R397, R400, R405). -/
def State.wipeControl (s : State) : State :=
  let all (_ : Nat) : Bool := true
  let s := (((s.discardWrites all).disownFlits all).freeLookups all).freeUpdates all
  let s := s.tearQueues fun q => decide (q.kind ≤ 1) || q.kind == kindData
  let s := { s with qs := { s.qs with queues := Sparse.mapAll s.qs.queues {} fun _ q =>
    { q with waiting := q.waiting.filter fun e => e.1.kind != ProducerKind.task, control := none } } }
  let clear (e : EnginePort) : EnginePort := { e with
    parkedTasks := [], sw := none, discards := [], suspects := [], guilty := [], replaying := false, l1Suspects := false
    bound := none, held := none, sent := [], run := none }
  { s with
    loader := { s.loader with instances := [] }
    mat := {}
    disp := { s.disp with
      ports := Sparse.mapAll s.disp.ports {} fun _ e => clear e.lower
      last := [], vtime := [], vmax := [], spill := [] }
    adm := { ctxs := Sparse.mapAll s.adm.ctxs {} fun _ c => { gen := c.gen, genTick := c.genTick }, order := s.adm.order }
    sig := {}
    route := { s.route with exchanges := [], sendWaits := [] }
    resets := { s.resets with l0s := [] } }

/-- L3 begins (R397): it takes an L2 over (R398). -/
def State.startL3 (s : State) (counts : Bool := true) : State :=
  if s.absorbed 3 0 then s
  else
    let s := (s.autoDump 3 0x09).abandonPower
    let ports := if s.power.state ≥ 2 then [] else s.enginePorts.filter s.portWorks
    let s := (s.each ports State.forceL1).closeContexts.wipeControl
    let s := s.logFault 3 0x09 0 0
    let r : LevelReset := { level := 3, cause := 0x09, counts := counts, ports := s.inL1 ports }
    s.modResets fun x => { x with levels := [r] }

/-- DEBUG_LEVEL after an L4, at power-on and after a life-cycle change (R459). -/
def State.restDebug (s : State) : Nat := if s.mgmt.lcCount = 0 then 2 else 0

/-- What an L4 leaves of a memory port: its retire table, and the levels of its input pins (R400). -/
def MemPort.afterL4 (p : MemPort) : MemPort :=
  { retire := p.retire, offline := p.offline, ackRefresh := p.ackRefresh, wipe := { all := true } }

/-- What an L4 leaves of a link port: the levels of its input pins (R400). -/
def LinkPort.afterL4 (p : LinkPort) : LinkPort := { signalOk := p.signalOk }

/-- L4 begins (R397, R400): every unit is reset and all memory wiped; what is kept is what R400, R345, R456, R464 and
R466 keep. With wiping set the items of R429 are wiped too. The hub then waits in Dawn (R424); Night is left by its
release only (R412). -/
def State.startL4 (s : State) (counts : Bool) (wiping : Bool := false) (pendingLevel : Option PendingDebug := none)
    (lcChange : Bool := false) : State :=
  if s.absorbed 4 0 then s
  else
    let s := s.autoDump 4 0
    let inc := s.links.incarnation + 1
    let level : Nat := match pendingLevel with
      | some p => if p.level > s.mgmt.debugLevel then s.mgmt.debugLevel else s.restDebug
      | none => s.restDebug
    let r : LevelReset := { level := 4, counts := counts, wiping := wiping }
    let keep : Resets := {
      night := s.resets.night, levels := [r], history := if wiping then [] else s.resets.history
      dump := if wiping then {} else s.resets.dump, sram := s.resets.sram, mcExpired := s.resets.mcExpired
      mcBeat := s.resets.mcBeat }
    let mgmt : Mgmt := { s.mgmt with
      debugLevel := level, pendingDebug := pendingLevel, lcChange := lcChange, authFailures := 0, solderGrant := 0 }
    -- the Management Controller's data memory (R429; log 118)
    let mgmt : Mgmt := if wiping then { mgmt with nonce := none, assembling := none, waiting := [], packets := [] } else mgmt
    let win : Window := if wiping then { s.win with reqValue := [], rspValue := [] } else s.win
    let power : Power := {
      sensors := s.power.sensors, hot := s.power.hot, cool := s.power.cool, voltages := s.power.voltages
      hclkKhz := s.power.hclkKhz, result := if s.power.target.isSome then 3 else 0 }
    let fresh : State := {
      build := s.build, clk := { s.clk with hc := 0 }, mgmt := mgmt, win := win, power := power, resets := keep
      dict := { lastResult := s.dict.lastResult, lastValue := s.dict.lastValue }
      tele := { latches := if wiping then [] else s.tele.latches }
      stripe := { ports := Sparse.mapAll s.stripe.ports {} fun _ p => p.afterL4 }
      links := { incarnation := inc, ports := Sparse.mapAll s.links.ports {} fun _ p => p.afterL4 }
      pins := { s.pins with corePwrReq := true }
      out := s.out, pending := s.pending }
    let fresh := fresh.modLatch A.night fun l => { l with held := s.resets.night && !wiping }
    (fresh.wipeMemory).setValue K.linkIncarnation 0 inc.toNat

/-- L4 begins again from its start, whatever L4 is in progress: the RESET_N pin, or core power lost (R508, R510). -/
def State.restartL4 (s : State) (counts : Bool) : State :=
  let old := s.resets.levels.filter fun r => r.level == 4
  let s := s.modResets fun x => { x with levels := x.levels.filter fun r => decide (r.level ≠ 4) }
  s.startL4 (counts || old.any (·.counts)) (old.any (·.wiping)) s.mgmt.pendingDebug s.mgmt.lcChange

/-- L5 begins: it is counted and logged, every reset in progress stops where it stands, and TRAY_PWR_REQ_N is driven low
until power is removed; a second L5 is absorbed (R395, R397, R398). -/
def State.startL5 (s : State) : State :=
  if s.absorbed 5 0 then s
  else
    let r : LevelReset := { level := 5 }
    let s := (s.bump K.resets 1 5).logReset 5 0 0
    let s := s.each s.enginePorts fun s p => s.modPort p fun e => { e with inL1 := false, replaying := false, suspects := [] }
    { s with pins := { s.pins with trayPwrReqN := false }
             resets := { s.resets with levels := [r], l0s := s.resets.l0s.filter (·.complete) } }

/-- OPEN in DEPLOYED ends with CLOSED on the way into Night (R470). -/
def State.closeForNight (s : State) : State :=
  if s.mgmt.lcCount = 2 ∧ s.mgmt.debugLevel = 2 then
    { s with mgmt := { s.mgmt with debugLevel := 0, solderGrant := 0 } }.armSolder false
  else s

/-- The hub enters Night (R411): every engine port is held in L1, and a dump is taken (R417). -/
def State.enterNight (s : State) : State :=
  let s := (s.closeForNight.raise A.night).modLatch A.night fun l => { l with held := true }
  let s := (s.modResets fun x => { x with night := true }).takeDump 1 0
  s.each s.enginePorts fun s p =>
    if (s.port p).failed then s
    else
      let s := (s.evict p).1
      s.modPort p fun e => { e.inReset with inL1 := true, replaying := false, suspects := [], bound := none }

/-- An entry of ESCALATION_HISTORY (R422). -/
def historyWord (level ms : Nat) : Nat := at' level 61 3 + at' ms 0 61

/-- A counted reset completes: the history takes it, and the hub enters Night where the limit is reached (R410). -/
def State.escalate (s : State) (level : Nat) : State :=
  let h := (historyWord level s.ms :: s.resets.history).take 16
  let s := s.modResets fun x => { x with history := h }
  let window := s.par K.escalateWindowS * 1000
  let recent := h.filter fun w => decide (s.ms - fld w 0 61 < window)
  if recent.length ≥ s.par K.escalateCount then s.enterNight else s

/-- What the completion of an L4 ends: a change of debug level waits no longer, and clears SOLDER_GRANT, nor does a
life-cycle change wait (R458, R464). -/
def State.endL4 (s : State) : State :=
  let m := s.mgmt
  let level := (m.pendingDebug.map (·.level)).getD m.debugLevel
  { s with mgmt := { m with
      debugLevel := level, pendingDebug := none, lcChange := false
      solderGrant := if level = m.debugLevel then m.solderGrant else 0 } }

/-- A reset at L2 to L4 completes: it is counted and logged, and escalates where it counts (R395, R410, R481). -/
def State.levelComplete (s : State) (r : LevelReset) : State :=
  let s := s.modResets fun x => { x with levels := dropFirst (· == r) x.levels }
  let s := if r.level = 2 then
      s.each ((s.adm.ctxs.filter fun e => e.2.tearing == .cleanup && e.2.part == r.target).map (·.1)) State.endCleanup
    else if r.level = 4 then s.endL4
    else s
  let s := (s.bump K.resets 1 r.level).logReset r.level r.target r.cause
  if r.counts && decide (r.level ≥ 3) then s.escalate r.level else s

/-- A reset at L2 or L3 has finished its work: its L0s have completed, its ports have left L1, its dump is taken (R397,
R417). -/
def State.levelDone (s : State) (r : LevelReset) : Bool :=
  (r.level == 2 || r.level == 3) && (s.inL1 r.ports).isEmpty
  && !(s.resets.l0s.any fun l => !l.complete && l.byReset == some r.target && r.level == 2)
  && !(s.resets.dump.state == 1 && s.resets.dump.trigger == r.level)

/-- RESET_LEVEL_COMPLETE (R397). -/
def levelCompleteEff (s : State) : State := s.each (s.resets.levels.filter s.levelDone) State.levelComplete

/-- RESET_LEVEL_COMPLETE (R397). -/
def execResetLevelComplete (s : State) : Host.Outcome State Fault Refusal := run levelCompleteEff s

/-- A level that does not complete in its limit starts the next one, whose scope contains it (R395, R410). The time
that an L4 waits in Dawn for START_GO is not counted (R424), and while RESET_N is low nothing runs. -/
def levelTimeoutEff (s : State) : State :=
  if !s.pins.resetN then s
  else
    match argMin (fun r => 5 - r.level) s.resets.levels with
    | none => s
    | some r =>
      if r.level = 2 then s.startL3
      else if r.level = 3 then s.startL4 r.counts
      else if r.level = 4 ∧ s.power.started then s.startL5
      else s

/-- LEVEL_TIMEOUT (R395). -/
def execLevelTimeout (s : State) : Host.Outcome State Fault Refusal := run levelTimeoutEff s

/-- The cleanup walks of an L0 overrun: L2 of the context's partition starts (R399). -/
def cleanupOverrunEff (c : Nat) (s : State) : State :=
  if (s.ctx c).tearing = .cleanup then s.startL2 (s.ctx c).part else s

/-- CLEANUP_OVERRUN (R399). -/
def execCleanupOverrun (c : Nat) (s : State) : Host.Outcome State Fault Refusal := runCore (cleanupOverrunEff c) s

/-- An aborted item has not returned its completion (R393). -/
def dataUnitStallEff (n : Nat) (s : State) : State :=
  if s.mat.aborts.contains n then (s.raise A.dataUnitStall).startL3 else s

/-- DATA_UNIT_STALL (R393). -/
def execDataUnitStall (n : Nat) (s : State) : Host.Outcome State Fault Refusal := runCore (dataUnitStallEff n) s

/-- A Dispatcher holds a candidate: it could issue an item (R392). -/
def State.hasCandidate (s : State) (d : Nat) : Bool :=
  decide (d < s.dispatchers) && ((s.tryBound d).isSome || (s.tryBand d false).isSome || (s.tryBand d true).isSome)

/-- A Dispatcher with a candidate has issued nothing for DISPATCH_PROGRESS_US (R392). -/
def dispatchStallEff (d : Nat) (s : State) : State :=
  if s.hasCandidate d then (s.raise A.dispatchStall).startL3 else s

/-- DISPATCH_STALL (R392). -/
def execDispatchStall (d : Nat) (s : State) : Host.Outcome State Fault Refusal := runCore (dispatchStallEff d) s

/-- A RESET_REQUEST that is refused (R395, R422): an unknown level or target with RANGE, L1 of a port that is disabled,
stopped or failed with BUSY. -/
def State.resetRefused (s : State) (level target : Nat) : Option Nat :=
  if level > 5 ∨ (level = 1 ∧ !s.hasEngine target) ∨ (level = 2 ∧ target > 15) then some D.range
  else if level = 1 ∧ (!s.portWorks target ∨ !s.power.started ∨ s.disp.unitStopped.contains target) then some D.busy
  else none


/-- RESET_REQUEST takes effect (R395, R401, R422). -/
def State.resetRequest (s : State) (level target : Nat) : State :=
  match level with
  | 0 => s.startL0 target 0x01
  | 1 => s.requestL1 target false
  | 2 => s.startL2 target
  | 3 => s.startL3
  | 4 => s.startL4 true
  | _ => s.startL5

/-- RESET_STATE (R422): of several resets in progress, the highest level and its lowest target. -/
def State.resetState (s : State) : Nat :=
  let ports := s.enginePorts.filter fun p => (s.port p).inL1 && !s.resets.night
  let all := (s.resets.levels.map fun r => (r.level, r.target)) ++ ports.map (fun p => (1, p))
    ++ (s.resets.l0s.filter fun l => !l.complete).map fun l => (0, l.ctx)
  flag s.resets.night 15 + match argMin (fun e => (5 - e.1) * 4096 + e.2) all with
    | some (l, t) => at' l 12 3 + at' t 0 12
    | none => 0x7000

/-- NIGHT_RELEASE clears the history and starts L4 (R412). -/
def State.releaseNight (s : State) : State := (s.modResets fun x => { x with history := [], night := false }).startL4 false

/-- MEM_ZERO_FILL fields (R422). -/
def Fill.addr (v : Nat) : Nat := fld v 64 64
def Fill.bytes (v : Nat) : Nat := fld v 0 64

/-- Whether every block of a range lies in some partition window (R405); fuel is the number of windows. -/
def State.coveredFrom (s : State) (stop : Nat) : Nat → Nat → Bool
  | 0, a => decide (a ≥ stop)
  | f + 1, a =>
    if a ≥ stop then true
    else
      let ends := (List.range 64).filterMap fun i =>
        let w := s.window (i / 4) (i % 4)
        let base := i % 4 * 2 ^ 41
        let lo := base + fld w 13 13 * 2 ^ 30
        let hi := base + fld w 0 13 * 2 ^ 30
        if bit w 31 ∧ lo ≤ a ∧ a < hi then some hi else none
      match ends with
      | [] => false
      | e :: es => s.coveredFrom stop f (es.foldl Nat.max e)

/-- A MEM_ZERO_FILL that is refused (R405). -/
def State.fillRefused (s : State) (v : Nat) : Option Nat :=
  let a := Fill.addr v
  let n := Fill.bytes v
  if a % 64 ≠ 0 ∨ n % 64 ≠ 0 ∨ n = 0 then some D.range
  else if s.resets.zeroFill.isSome ∨ !s.coveredFrom (a + n) 65 a then some D.busy
  else none

/-- MEM_ZERO_FILL starts (R405). -/
def State.startFill (s : State) (v : Nat) : State :=
  s.modResets fun x => { x with zeroFill := some (Fill.addr v, Fill.bytes v) }

/-- The fill completes: the range reads zero (R405). -/
def memZeroFillCompleteEff (s : State) : State :=
  match s.resets.zeroFill with
  | none => s
  | some (a, n) => (s.each (blocksOf a n) fun s b => s.writeWord b 0).modResets fun x => { x with zeroFill := none }

/-- MEM_ZERO_FILL_COMPLETE (R405). -/
def execMemZeroFillComplete (s : State) : Host.Outcome State Fault Refusal := runCore memZeroFillCompleteEff s

/-- An SRAM array (R415). -/
def State.sramArray (s : State) (a : Nat) : Sram := Sparse.get s.resets.sram {} a

/-- Changes an SRAM array. -/
def State.modSram (s : State) (a : Nat) (f : Sram → Sram) : State :=
  s.modResets fun x => { x with sram := Sparse.set x.sram {} a (f (Sparse.get x.sram {} a)) }

/-- A bank reaches 16 corrected errors in a tick: the spare takes its place, or with no spare free it stays (R415). -/
def sramBankRotationEff (a bank : Nat) (s : State) : State :=
  let x := s.sramArray a
  if bank ≥ 32 then s
  else if x.spared.isNone && !x.testing then (s.modSram a fun x => { x with spared := some bank }).raise A.sramBankSpared
  else s.raise A.sramNoSpare

/-- SRAM_BANK_ROTATION (R415). -/
def execSramBankRotation (a bank : Nat) (s : State) : Host.Outcome State Fault Refusal := runCore (sramBankRotationEff a bank) s

end Sys2Proof.Machine
end

