-- ==== Sys2Proof/Machine/Power.lean ====
section
/-! DEFINITION. Start, clocks, temperature and voltage, power states and self-test (ch. 15), with the reset and power pins
of R507 to R510. The steps these take at a tick boundary are called from there. -/
namespace Sys2Proof.Machine

/-- A change of the start, clock and power part of the state. -/
def State.modPower (s : State) (f : Power → Power) : State := { s with power := f s.power }

/-- Memory ports of the build. -/
def State.memoryPorts (s : State) : List Nat := List.range s.build.memoryPorts

/-- Link ports of the build. -/
def State.linkPorts (s : State) : List Nat := List.range s.build.linkPorts

/-- STRIPE_GROUP_SIZE and MEM_PORT_PAGES allow a start (R307, R310, R424). -/
def State.stripeFits (s : State) : Bool :=
  let n := s.groupSize
  [6, 8, 12, 18, 24].contains n && s.build.memoryPorts % n == 0
  && decide (s.par K.memPortPages ≤ if n = 24 then 23343237 else 31580641)

/-- Every port trains (R425, R509): resets are released for the enabled engine ports that are not kept stopped, for
every memory port, and for the enabled link ports. Memory is wiped, and units that nothing keeps stopped start (R30,
R428). -/
def State.startPorts (s : State) : State :=
  let s := { s with disp := { s.disp with unitStopped := s.disp.unitKeep, unitStopReq := [], unitStart := [] } }
  let s := (s.modPower fun x => { x with stage := 0, started := true, noonLate := false }).wipeMemory
  let engines := s.enginePorts.filter fun p => s.portWorks p && !s.disp.unitStopped.contains p
  let s := s.each engines fun s p => s.modPort p fun e => { e with resetN := true, expired := false }
  let s := s.each s.memoryPorts fun s p => s.modMport p fun x => { x with resetN := true }
  let s := s.each (s.linkPorts.filter s.linkEnabled) fun s p =>
    (s.modLport p fun l => { l with resetN := true }).trainLink p
  s.rebuildMaps

/-- START_GO is refused outside Dawn, in Night and with a stripe map that breaks R307 or R310 (R411, R424). -/
def State.startRefused (s : State) : Bool :=
  s.power.stage ≠ 0 || s.power.started || s.power.state == 3 || s.resets.night || !s.stripeFits

/-- A memory port finishes the training begun at START_GO or at an L4: it is ONLINE, and its background wipe may begin
(R425, R428). Without core power training waits (R510). -/
def memTrainingCompleteEff (p : Nat) (s : State) : State :=
  let x := s.mport p
  if s.power.started ∧ s.pins.corePwrGood ∧ x.resetN ∧ x.state = .untrained ∧ !x.trained then
    (s.modMport p fun x => { x with state := .online, trained := true }).stripeSettle
  else s

/-- MEM_TRAINING_COMPLETE (R425). -/
def execMemTrainingComplete (p : Nat) (s : State) : Host.Outcome State Fault Refusal :=
  runPort (s.hasMemory p) (memTrainingCompleteEff p) s

/-- An enabled engine port that should have raised EP_READY and has not. -/
def State.engineLate (s : State) (p : Nat) : Bool :=
  s.portWorks p && !(s.port p).epReady && !s.disp.unitStopped.contains p

/-- A link port has what Noon waits for: every lane of LINK_LANES has signal, and the port is UP on the lanes that its
stage leaves it, or has locked and stays in TRAINING until Noon (R425, R426; log 117). -/
def State.linkReady (s : State) (p : Nat) : Bool :=
  let l := s.lport p
  let own := s.par K.linkLanes p
  own &&& (l.signalOk &&& ~~~l.removed).toNat == own
  && ((l.state == .up && l.lanes.toNat == s.laneTarget p) || (l.state == .training && l.locked))

/-- An enabled link port that Noon waits for. -/
def State.linkLate (s : State) (p : Nat) : Bool := s.linkEnabled p && !s.linkReady p

/-- The Noon limit passes (R426): a memory port that is not ONLINE becomes LOST, an engine port without EP_READY is
declared failed, a link port keeps training, and each raises START_DEGRADED. -/
def noonLimitEff (s : State) : State :=
  if !s.power.started ∨ s.power.stage ≥ 2 ∨ s.power.noonLate then s
  else
    let mem := s.memoryPorts.filter fun p => (s.mport p).state != .online
    let eng := s.enginePorts.filter s.engineLate
    let link := s.linkPorts.filter s.linkLate
    let s := s.each mem fun s p => (s.losePort p).raise A.startDegraded
    let s := s.each eng fun s p => (s.failPort p).raise A.startDegraded
    let s := s.each link fun s _ => s.raise A.startDegraded
    s.modPower fun x => { x with noonLate := true }

/-- NOON_LIMIT (R426). -/
def execNoonLimit (s : State) : Host.Outcome State Fault Refusal := runCore noonLimitEff s

/-- What Noon waits for is there, or its limit has passed (R426). -/
def State.noonReady (s : State) : Bool :=
  s.power.noonLate || (s.memoryPorts.all (fun p => (s.mport p).state == .online)
    && !s.linkPorts.any s.linkLate && !s.enginePorts.any s.engineLate)

/-- Noon begins in phase 1 of a boundary: lanes join, and the link ports that have locked identify themselves (R425,
R426; log 117). An L4 completes there (R395, R423). -/
def State.noonTurn (s : State) : State :=
  if s.power.stage = 1 ∧ s.noonReady then
    let s := (s.modPower fun x => { x with stage := 2, noonLate := false }).announceAll
    let s := s.each (s.linkPorts.filter fun p => (s.lport p).state == .training && (s.lport p).locked) State.identifyLink
    s.each (s.resets.levels.filter fun r => r.level == 4) State.levelComplete
  else s

/-- What Morning waits for beside the tick: group 0 of six ports, unless the Noon limit has passed, and LP0 to LP3,
whose 50 ms the command asserts (R425). -/
def State.morningMayBegin (s : State) : Bool :=
  s.power.started && s.power.stage == 0 && s.pins.corePwrGood
  && (decide (s.groupSize ≠ 6) || s.power.noonLate || (List.range 6).all fun p => (s.mport p).state == .online)

/-- Engine ports are held in L1; what they held runs again from its first tile (R396, R436). -/
def State.holdEngines (s : State) : State :=
  s.each (s.enginePorts.filter fun p => s.portWorks p && !s.disp.unitStopped.contains p) fun s p =>
    let (s, parked, others) := s.evict p
    let tasks := uniq ((s.port p).held.toList ++ (s.port p).suspects ++ parked ++ others)
    let s := s.modPort p fun e => { e.inReset with
      inL1 := true, l1Suspects := false, replaying := false, suspects := [], guilty := [], bound := none }
    s.each tasks State.rerun

/-- The hub enters P2 at a boundary (R438, step 3). -/
def State.enterP2 (s : State) : State :=
  let s := (s.armSolder false).holdEngines
  let s := s.each s.memoryPorts fun s p => s.modMport p fun x => { x with selfRefresh := true }
  (s.modPower fun x => { x with state := 2, draining := false, drained := false }).announceAll

/-- A request for P2, or for the end of P2, is done once every memory port has answered (R438, R503). -/
def State.refreshDone (s : State) : State :=
  let all (b : Bool) : Bool := s.memoryPorts.all fun p => (s.mport p).ackRefresh == b
  if s.power.target = some s.power.state ∧ s.power.state ≤ 2 ∧ all (s.power.state == 2) then
    s.modPower fun x => { x with target := none, result := 0 }
  else s

/-- A memory controller reports its devices in or out of self-refresh (R503). -/
def selfRefreshAckEff (p : Nat) (level : Bool) (s : State) : State :=
  ((s.modMport p fun x => { x with ackRefresh := level }).refreshDone).stripeSettle

/-- SELF_REFRESH_ACK (R503). -/
def execSelfRefreshAck (p : Nat) (level : Bool) (s : State) : Host.Outcome State Fault Refusal :=
  runPort (s.hasMemory p) (selfRefreshAckEff p level) s

/-- Flits for this chip that waited in the receive buffers through P2 are delivered (R438). -/
def State.deliverWaiting (s : State) : State :=
  s.each (s.linkPorts.flatMap fun p => (List.range 4).map fun vc => (p, vc)) fun s e =>
    let l := ((s.lport e.1).rxVc e.2).buf
    let s := s.modLport e.1 fun x => x.modRx e.2 fun r => { r with buf := [] }
    (s.each l fun s f => s.deliver (some e.1) f).refreshStop e.1 e.2

/-- P2 ends for P0 or P1: self-refresh ends, lanes return, and flits that waited are delivered (R438). -/
def State.leaveP2 (s : State) (t : Nat) : State :=
  let s := s.each s.memoryPorts fun s p => s.modMport p fun x => { x with selfRefresh := false }
  let s := s.modPower fun x => { x with state := t, target := some t, result := 1 }
  (s.announceAll.deliverWaiting).refreshDone

/-- Contexts with an open job end with cause COMPUTE_RESET on the way to P3, each with its FAULT entry (R434, R439). -/
def State.closeForP3 (s : State) : State :=
  let open_ := (s.adm.ctxs.filter fun e => e.2.job).map (·.1)
  (s.each open_ fun s c => s.logFault 0 0x09 c (s.ctx c).gen).closeContexts

/-- The self-test in progress is abandoned (R444). -/
def State.abandonTest (s : State) : State :=
  let t := s.power.selfTest
  if t.state = 0 then s
  else
    let r : BitVec 32 := BitVec.ofNat 32 (at' t.kind 24 8 + at' t.target 8 16 + 3)
    let s := if t.kind = 0x01 then s.modSram (t.target / 32) fun x => { x with testing := false } else s
    let s := if t.kind = 0x11 then s.modLport t.target fun l => { l with loopback := false } else s
    s.modPower fun x => { x with selfTest := { result := r } }

/-- A memory port in P3: its devices in self-refresh, nothing of it trained (R436; log 61). -/
def MemPort.inP3 (p : MemPort) : MemPort := { p.afterL4 with selfRefresh := true, wipe := {}, resetN := p.resetN }

/-- The hub enters P3 (R434, R436, R439, R468): contexts are torn down, Solder is disarmed, link ports are disabled,
engine ports are held in L1, memory ports are in self-refresh, and CORE_PWR_REQ falls. -/
def State.enterP3 (s : State) : State :=
  let s := ((s.closeForP3).armSolder false).abandonTest
  let s := s.each s.linkPorts fun s p => s.enableLink p false
  let s := s.each s.enginePorts fun s p => s.modPort p fun e => { e.inReset with inL1 := !e.failed }
  let s := s.each s.memoryPorts fun s p => s.modMport p MemPort.inP3
  let s := s.modResets fun x => { x with l0s := [], levels := x.levels.filter fun r => decide (r.level ≥ 4) }
  let s := s.modPower fun x => { x with
    state := 3, draining := false, drained := false, p3Exit := false, started := false }
  { s with pins := { s.pins with corePwrReq := false } }

/-- On the way out of P3 the control and data planes are wiped as at L4; the dictionary's settings live in the
management plane, and so do the stops that the Reset Sequencer keeps (R24, R30, R439, R468). -/
def State.wipeCore (s : State) : State :=
  let inc := s.links.incarnation + 1
  let s := { s with
    clk := { s.clk with hc := 0 }, tick := {}, loader := {}, mat := {}, adm := {}, qs := {}, sig := {}
    disp := { unitStopReq := s.disp.unitStopReq, unitStopped := s.disp.unitStopped, unitStart := s.disp.unitStart
              unitKeep := s.disp.unitKeep }
    emb := {}, route := {}, replay := {}, shadow := {}
    stripe := { ports := Sparse.mapAll s.stripe.ports {} fun _ p => p.afterL4 }
    links := { incarnation := inc, ports := Sparse.mapAll s.links.ports {} fun _ p => p.afterL4 }
    dict := { s.dict with inForce := s.dict.written, deferred := [] } }
  let s := s.modResets fun x => { x with hotBad := [], zeroFill := none, report := 0 }
  (s.setValue K.linkIncarnation 0 inc.toNat).setValue K.replayControl 0 0

/-- P3 ends once core power is good: the stages of start run from Morning training, as if START_GO had been written
(R424, R439). -/
def State.exitP3 (s : State) : State :=
  let t := s.power.target.getD 0
  (s.wipeCore.modPower fun x => { x with
    state := t, target := none, result := 0, p3Exit := false, tripped := false }).startPorts

/-- CORE_PWR_GOOD rises (R439, R510). -/
def corePwrGoodRiseEff (s : State) : State :=
  let s := { s with pins := { s.pins with corePwrGood := true } }
  if s.power.p3Exit && s.pins.corePwrReq then s.exitP3 else s

/-- CORE_PWR_GOOD_RISE (R439). -/
def execCorePwrGoodRise (s : State) : Host.Outcome State Fault Refusal := run corePwrGoodRiseEff s

/-- CORE_PWR_GOOD falls: L4, which counts, unless core power is not asked for (R510). -/
def corePwrGoodFallEff (s : State) : State :=
  let s := { s with pins := { s.pins with corePwrGood := false } }
  if s.pins.corePwrReq && s.pins.resetN && !s.power.p3Exit then s.restartL4 true else s

/-- CORE_PWR_GOOD_FALL (R510). -/
def execCorePwrGoodFall (s : State) : Host.Outcome State Fault Refusal := run corePwrGoodFallEff s

/-- RESET_N is asserted: L4, which does not count, and every output takes its reset value; an L5 goes on once the pin is
released (R397, R497, R508). -/
def resetNAssertEff (s : State) : State :=
  if !s.pins.resetN then s
  else
    let power := s.resets.levels.filter fun r => r.level == 5
    let s := (s.modResets fun x => { x with levels := x.levels.filter fun r => decide (r.level ≠ 5) }).restartL4 false
    let s := s.modResets fun x => { x with levels := x.levels ++ power }
    { s with pins := { s.pins with resetN := false, trayPwrReqN := true } }

/-- RESET_N_ASSERT (R508). -/
def execResetNAssert (s : State) : Host.Outcome State Fault Refusal := run resetNAssertEff s

/-- RESET_N is released: Dawn begins (R423, R508); an L5 still asks for power to be removed (R397). -/
def resetNReleaseEff (s : State) : State :=
  { s with pins := { s.pins with resetN := true, trayPwrReqN := !(s.resets.levels.any fun r => r.level == 5) } }

/-- RESET_N_RELEASE (R423). -/
def execResetNRelease (s : State) : Host.Outcome State Fault Refusal := run resetNReleaseEff s

/-- A POWER_REQUEST is refused with BUSY, and leaves no trace: in Dawn, Morning or Night, and while another request is
in progress (R23, R425, R437; log 54). -/
def State.powerBusy (s : State) : Bool :=
  (decide (s.power.stage < 2) && s.power.state != 3) || s.resets.night || s.power.target.isSome

/-- P2 is refused while a memory port is not ONLINE or a chunk is wipe-pending (R437). -/
def State.powerRefused (s : State) (t : Nat) : Bool :=
  t == 2 && s.memoryPorts.any fun p => (s.mport p).state != .online || (s.mport p).wipe != {}

/-- A POWER_REQUEST that the dictionary has accepted takes effect, or POWER_RESULT reports it as refused (R437 to R439;
log 54). -/
def State.powerRequest (s : State) (t : Nat) : State :=
  if t = s.power.state then s.modPower fun x => { x with result := 0 }
  else if s.powerRefused t then s.modPower fun x => { x with result := 2 }
  else
    let s := s.modPower fun x => { x with target := some t, result := 1 }
    if s.power.state = 3 then
      let s := { s with pins := { s.pins with corePwrReq := true }, power := { s.power with p3Exit := true } }
      if s.pins.corePwrGood then s.exitP3 else s
    else if s.power.state = 2 ∧ t ≤ 1 then s.leaveP2 t
    else s

/-- A live instance of a suspended flow: it does not block a drain (R444). -/
def State.suspendedInstance (s : State) (i : Instance) : Bool :=
  match s.hold i.hold with
  | some h => Req.flowed h.record && s.flowState (Req.flowId h.record) == .suspended
  | none => false

/-- Step 2 of R438 is reached: no admitted step, no result to release, no exchange, no fold, migration or copy. -/
def State.drainReached (s : State) : Bool :=
  s.loader.instances.all s.suspendedInstance && s.adm.holds.all (fun e => e.2.phase != .complete)
  && s.adm.unposted.isEmpty && s.route.exchanges.isEmpty && s.emb.folds.isEmpty && s.emb.migrations.isEmpty
  && s.resets.zeroFill.isNone

/-- All admitted work and releases are finished: P2 or P3 is entered at the next boundary (R438, R439). -/
def powerDrainCompleteEff (s : State) : State :=
  if s.power.draining ∧ s.drainReached then s.modPower fun x => { x with drained := true } else s

/-- POWER_DRAIN_COMPLETE (R438). -/
def execPowerDrainComplete (s : State) : Host.Outcome State Fault Refusal := runCore powerDrainCompleteEff s

/-- The drain has not finished within P2_DRAIN_MS: the request is abandoned (R438). -/
def p2DrainTimeoutEff (s : State) : State := if s.power.draining ∧ !s.power.drained then s.abandonPower else s

/-- P2_DRAIN_TIMEOUT (R438). -/
def execP2DrainTimeout (s : State) : Host.Outcome State Fault Refusal := runCore p2DrainTimeoutEff s

/-- What a boundary does for a power request in progress (R437 to R439). -/
def State.powerTurn (s : State) : State :=
  match s.power.target with
  | none => s
  | some t =>
    if t = s.power.state then s
    else if t ≤ 1 then (s.modPower fun x => { x with state := t, target := none, result := 0 }).announceAll
    else if !s.power.draining then s.modPower fun x => { x with draining := true, drained := false }
    else if !s.power.drained then s
    else if t = 2 then s.enterP2.refreshDone
    else s.enterP3.modPower fun x => { x with target := none, result := 0 }

/-- Highest and lowest of the sensor readings. -/
def readingRange (l : List Int) : Int × Int :=
  match l with
  | [] => (0, 0)
  | a :: t => t.foldl (fun r x => (Max.max r.1 x, Min.min r.2 x)) (a, a)

/-- Readings of the temperature sensors, in 0.01 °C (R433, R434). -/
def thermalSampleEff (l : List Int) (s : State) : State :=
  let (hi, lo) := readingRange l
  let t : Int := s.par K.thermalThrottleC * 100
  let g : Int := s.par K.thermalGradientC * 100
  let s := s.modPower fun x => { x with
    sensors := l, hot := decide (hi ≥ t ∨ hi - lo > g), cool := decide (hi ≤ t - 300 ∧ hi - lo ≤ g - 300) }
  if l ≠ [] ∧ hi ≥ (s.par K.thermalTripC * 100 : Nat) ∧ s.power.state ≠ 3 then
    (((s.raise A.thermalTrip).abandonPower).enterP3).modPower fun x => { x with tripped := true }
  else s

/-- THERMAL_SAMPLE (R433). -/
def execThermalSample (l : List Int) (s : State) : Host.Outcome State Fault Refusal := runMgmt (thermalSampleEff l) s

/-- The throttle level falls every 100 µs while the readings ask for it, and rises every 1 ms while they allow it; the
first fall raises THROTTLE (R433). -/
def throttleStepEff (fall : Bool) (s : State) : State :=
  let k := s.power.throttle
  if fall ∧ s.power.hot ∧ k > 0 then
    let s := s.modPower fun x => { x with throttle := k - 1 }
    if k = 8 then s.raise A.throttle else s
  else if !fall ∧ s.power.cool ∧ k < 8 then s.modPower fun x => { x with throttle := k + 1 }
  else s

/-- THROTTLE_STEP (R433). -/
def execThrottleStep (fall : Bool) (s : State) : Host.Outcome State Fault Refusal := runMgmt (throttleStepEff fall) s


/-- A frequency in kHz below a least one or above a greatest one, in MHz, by more than a tolerance in ppm. -/
def outOf (lo hi ppm khz : Nat) : Bool :=
  decide (khz * 1000 < lo * (1000000 - ppm) ∨ khz * 1000 > hi * (1000000 + ppm))

/-- 50 µs have not passed since the latest change of CLK_REQ (R431); a microsecond is 72,072,000 units of the model's
clock. -/
def State.clockSettles (s : State) : Bool :=
  s.power.settle.isSome || match s.power.raisedAt with
    | some t => decide (s.clk.units < t + 50 * 72072000)
    | none => false

/-- Whether a monitored clock is out of its range (R34, R38, R431, R506; log 83): the clocks of R506 in the order of
its table, 0 being HCLK. Its range is 99 % to 100 % of the requested frequency, and that of R34 until 50 µs after a
change; it is left by more than 1 %. -/
def State.clockOut (s : State) (clock khz : Nat) : Bool :=
  let f := 800 + 100 * s.pins.clkReq
  match clock with
  | 0 => if s.clockSettles then outOf 800 1600 10000 khz else decide (khz * 100 < f * 1000 * 98 ∨ khz * 100 > f * 1000 * 101)
  | 1 => outOf 200 200 500 khz
  | 2 => outOf 100 100 100 khz
  | 3 => outOf 200 2000 0 khz
  | 4 => outOf 200 2000 0 khz
  | 5 => outOf 100 2000 0 khz
  | 6 => decide (khz * 1000000 < 781250 * 999900 ∨ khz * 1000000 > 781250 * 1000100)
  | _ => false

/-- A monitored clock, 0 being HCLK, has been measured for 10 µs: out of its range it raises CLOCK_RANGE (R38, R506). -/
def clockRangeEff (clock khz : Nat) (s : State) : State :=
  let s := if clock = 0 then s.modPower fun x => { x with hclkKhz := khz } else s
  if s.clockOut clock khz then s.raise A.clockRange else s

/-- CLOCK_RANGE (R38). -/
def execClockRange (clock khz : Nat) (s : State) : Host.Outcome State Fault Refusal := runMgmt (clockRangeEff clock khz) s

/-- 50 µs after a lowering, durations convert at the new frequency (R431). -/
def clockLowerSettleEff (s : State) : State := s.modPower fun x => { x with settle := none }

/-- CLOCK_LOWER_SETTLE (R431). -/
def execClockLowerSettle (s : State) : Host.Outcome State Fault Refusal := run clockLowerSettleEff s

/-- The build has a port in a supply region (R500). -/
def State.regionPresent (s : State) (k : Nat) : Bool :=
  if k < 8 then decide (8 * k < s.build.enginePorts)
  else if k < 12 then decide (6 * (k - 8) < s.build.memoryPorts)
  else decide (k < 16 ∧ 4 * (k - 12) < s.build.linkPorts)

/-- A region supply measured against the core supply, in mV (R435); a region without ports need not be supplied
(R500). -/
def voltageRangeEff (region : Nat) (mv : Int) (s : State) : State :=
  if !s.regionPresent region then s
  else
    let v := (BitVec.ofInt 32 mv).toNat
    let s := s.modPower fun x => { x with voltages := Sparse.set x.voltages 0 region v }
    if mv > 150 ∨ mv < -150 then s.raise A.voltageRange else s

/-- VOLTAGE_RANGE (R435). -/
def execVoltageRange (region : Nat) (mv : Int) (s : State) : Host.Outcome State Fault Refusal :=
  runMgmt (voltageRangeEff region mv) s

/-- The kinds of self-test (R440). -/
def T.sramBist : Nat := 0x01
def T.laneCal : Nat := 0x02
def T.memRetrain : Nat := 0x03
def T.memMarch : Nat := 0x10
def T.linkLoopback : Nat := 0x11
def T.logicBist : Nat := 0x12

/-- A self-test kind that the table of R440 lists. -/
def testKnown (kind : Nat) : Bool := [0x01, 0x02, 0x03, 0x10, 0x11, 0x12].contains kind

/-- A self-test whose target the build does not have. -/
def State.testRange (s : State) (kind target : Nat) : Bool :=
  !testKnown kind || (kind == T.laneCal && !s.hasLink (target / 16)) || (kind == T.memRetrain && !s.hasMemory target)
  || (kind == T.memMarch && decide (target ≥ s.groups)) || (kind == T.linkLoopback && !s.hasLink target)

/-- A lane of an UP port is active. -/
def State.laneActive (s : State) (p lane : Nat) : Bool :=
  (s.lport p).state == .up && bit (s.lport p).lanes.toNat lane

/-- A test that is refused for what its own kind needs (R319, R441, R442). -/
def State.testBlocked (s : State) (kind target : Nat) : Bool :=
  if kind = T.sramBist then
    (s.sramArray (target / 32)).spared.isSome || (s.sramArray (target / 32)).testing
  else if kind = T.laneCal then
    let p := target / 16
    (s.lport p).change.isSome || (s.laneActive p (target % 16) && (s.lport p).lanes.toNat == 2 ^ (target % 16))
  else if kind = T.memRetrain then s.offlineRefused target
  else false

/-- A self-test that is refused with BUSY (R440): in P2, in P3, in Night, before Noon but for Dawn, while a test is in
progress, a disruptive test without FORCE, and for what its kind needs. -/
def State.testRefused (s : State) (kind target : Nat) (force : Bool) : Bool :=
  decide (s.power.state ≥ 2) || s.resets.night || s.power.stage == 1 || decide (s.power.selfTest.state ≠ 0)
  || (decide (kind ≥ 0x10) && !force) || s.testBlocked kind target

/-- SELFTEST_RESULT (R445). -/
def testWord (kind target code : Nat) : BitVec 32 := BitVec.ofNat 32 (at' kind 24 8 + at' target 8 16 + code)


/-- A link port leaves service for a loopback (R440). -/
def State.startLoopback (s : State) (p : Nat) : State :=
  let st := (s.lport p).state
  let s := if st = .up then s.linkDown p false
    else if st = .disabled then s
    else s.modLport p fun l => l.downed .down
  s.modLport p fun l => { l with loopback := true }

/-- A self-test begins to run (R440 to R443). -/
def State.runTest (s : State) : State :=
  let t := s.power.selfTest
  let s := (s.modPower fun x => { x with selfTest := { t with state := 2, waitTick := false } }).bump K.selftestsRun
  if t.kind = T.sramBist then s.modSram (t.target / 32) fun x => { x with testing := true }
  else if t.kind = T.laneCal then
    let p := t.target / 16
    if s.laneActive p (t.target % 16) then
      let s := s.modPower fun x => { x with selfTest := { x.selfTest with tookLane := true } }
      (s.modLport p fun l => { l with removed := l.removed ||| BitVec.ofNat 16 (2 ^ (t.target % 16)) }).announceLanes p
    else s
  else if t.kind = T.memRetrain then s.softOffline t.target false
  else if t.kind = T.linkLoopback then s.startLoopback t.target
  else if t.kind = T.logicBist then s.startL3
  else s

/-- A partition lies in the scope of the test in progress (R443). -/
def State.testScope (s : State) (part : Nat) : Bool :=
  let t := s.power.selfTest
  t.kind == T.logicBist || (t.kind == T.memMarch && bit (s.window part t.target) 31)

/-- Partitions in the scope of the test that still hold admitted work (R443). -/
def State.testHolders (s : State) : List Nat :=
  (List.range 16).filter fun part => s.testScope part && s.loader.instances.any fun i => i.part == part

/-- A forced test that waited for its scope begins once nothing is left there (R443). -/
def State.testMayRun (s : State) : State :=
  let t := s.power.selfTest
  if t.state = 1 ∧ !t.waitTick ∧ s.testHolders.isEmpty ∧ !s.resets.levels.any (fun r => r.level == 2 && s.testScope r.target) then
    s.runTest
  else s

/-- What a boundary does for a forced test (R443). -/
def State.testTurn (s : State) : State :=
  (s.modPower fun x => { x with selfTest := { x.selfTest with waitTick := false } }).testMayRun

/-- A self-test is accepted (R440, R443): a disruptive one waits for the next boundary, except in Dawn, where no
boundary runs. -/
def State.startTest (s : State) (kind target : Nat) : State :=
  let wait : Bool := decide (kind ≥ 0x10) && s.power.stage == 2
  let t : SelfTest := { s.power.selfTest with state := 1, kind := kind, target := target, waitTick := wait }
  let s := s.modPower fun x => { x with selfTest := t }
  if wait then s else s.runTest

/-- After P2_DRAIN_MS the partitions that still hold work in the scope are reset at L2, and the test runs (R443). -/
def selftestDrainTimeoutEff (s : State) : State :=
  if s.power.selfTest.state = 1 ∧ !s.power.selfTest.waitTick then (s.each s.testHolders State.startL2).testMayRun else s

/-- SELFTEST_DRAIN_TIMEOUT (R443). -/
def execSelftestDrainTimeout (s : State) : Host.Outcome State Fault Refusal := runCore selftestDrainTimeoutEff s

/-- Blocks of a stripe group (R306). -/
def ofGroup (g : Nat) (a : Nat) : Bool := decide (fld a 41 2 = g ∧ a < 2 ^ 43)

/-- A stripe group is wiped (R428, R440). -/
def State.wipeGroup (s : State) (g : Nat) : State :=
  let x := s.stripe
  let gone (a : Nat) : Bool := ofGroup g a
  let s := { s with stripe := { x with
    mem := x.mem.filter fun c => !gone c.1
    weak := x.weak.filter fun a => !gone a
    lost := x.lost.filter fun a => !gone a && decide (a < 2 ^ 44 ∨ (a - 2 ^ 44) / 2 ^ 42 ≠ g)
    parity := x.parity.filter fun e => decide ((e.1 - 2 ^ 44) / 2 ^ 42 ≠ g)
    bitmap := Sparse.erase x.bitmap g } }
  s.each (s.groupPorts g) fun s p => s.modMport p fun x => { x with wipe := { all := true } }

/-- What the end of a self-test does (R440 to R443); a bank that fails stays replaced by the spare. -/
def State.endTest (s : State) (t : SelfTest) (pass : Bool) : State :=
  if t.kind = T.sramBist then
    let s := s.modSram (t.target / 32) fun x => { x with
      testing := false, spared := if pass then x.spared else some (t.target % 32) }
    if pass then s else s.raise A.sramBankSpared
  else if t.kind = T.laneCal then
    let p := t.target / 16
    let back := if t.tookLane then BitVec.ofNat 16 (2 ^ (t.target % 16)) &&& (s.lport p).signalOk else 0
    (s.modLport p fun l => { l with removed := l.removed &&& ~~~back }).announceLanes p
  else if t.kind = T.memMarch then s.wipeGroup t.target
  else if t.kind = T.linkLoopback then s.modLport t.target fun l => { l with loopback := false }
  else s

/-- A self-test finishes (R440). -/
def selftestCompleteEff (pass : Bool) (s : State) : State :=
  let t := s.power.selfTest
  if t.state ≠ 2 then s
  else
    let s := s.modPower fun x => { x with selfTest := { result := testWord t.kind t.target (if pass then 0 else 1) } }
    let s := s.endTest t pass
    if pass then s else s.raise A.selftestFail

/-- SELFTEST_COMPLETE (R440). -/
def execSelftestComplete (pass : Bool) (s : State) : Host.Outcome State Fault Refusal := runCore (selftestCompleteEff pass) s

end Sys2Proof.Machine
end

