-- ==== Sys2Proof/Machine/Ports.lean ====
section
/-! DEFINITION. The engine ports' read and write channels, the host DMA port, the control port with the dictionary window,
and the stop of a unit (R30, R86, R132 to R136, R200, R305, R338, R454, R455, R501, R504, R505). -/
namespace Sys2Proof.Machine

/-- The task whose CONTEXT, GENERATION and partition a port stamps: the one it holds, or the one its SPILL names
(R86, R211). -/
def State.stampedTask (s : State) (p : Nat) : Option Nat :=
  match (s.port p).held with
  | some n => some n
  | none =>
    match (s.port p).sw with
    | some w => if w.spilling then w.spills.head?.map (·.slot) else none
    | none => none

/-- The stamped task, where its generation is current (R406). -/
def State.liveStamp (s : State) (p : Nat) : Option Nat :=
  (s.stampedTask p).filter fun n => (s.slot n).gen == (s.ctx (s.slot n).ctx).gen

/-- The port serves its data channels: its reset is not asserted and it has not failed (R497, R502). -/
def State.channelsOpen (s : State) (p : Nat) : Bool := (s.port p).resetN && !(s.port p).failed

/-- A read request of an engine (R86, R200, R501): answered from memory, with zeros outside the partition's windows, and
with zeros where the port stamps no live task. -/
def engineReadRequestEff (p : Nat) (addr : BitVec 37) (tag : Nat) (hint : BitVec 2) (s : State) : State :=
  let a := addr.toNat * 64
  if !s.channelsOpen p ∨ tag ≥ 256 ∨ (s.port p).reads.any (fun r => r.tag == tag) then s
  else
    match s.liveStamp p with
    | none => (s.bump K.memStaleDropped).emit (.readData p tag 0 0)
    | some n =>
      let q := s.slot n
      if !s.inWindow q.part a 64 then (s.emit (.readData p tag 0 0)).violation n
      else
        let id := (s.port p).nextRead
        let r : ReadTag := { tag := tag, addr := a, slot := some n, id := id }
        (s.modPort p fun e => { e with reads := e.reads ++ [r], nextRead := id + 1 }).requestRead (.engine p id) a q.ctx
          q.gen hint.toNat (s.par K.partitionCacheWays q.part)

/-- ENGINE_READ_REQUEST (R501). -/
def execEngineReadRequest (p : Nat) (addr : BitVec 37) (tag : Nat) (hint : BitVec 2) (s : State) :
    Host.Outcome State Fault Refusal := runPort (s.hasEngine p) (engineReadRequestEff p addr tag hint) s

/-- The header of a WRITE record (R338). -/
def RemoteRun.header (r : RemoteRun) : BitVec 128 :=
  BitVec.ofNat 128 (at' r.addr 64 64 + at' r.part 60 4 + at' r.beats.length 53 7)

/-- The open run of a port ends: its WRITE record goes to its link (R338, R501). -/
def State.endRun (s : State) (p : Nat) : State :=
  match (s.port p).run with
  | none => s
  | some r =>
    (s.modPort p fun e => { e with run := none }).sendRecord r.chip 2 Fam.write (r.header :: r.beats.flatMap blockSlots)
      (.enginePort p r.slot r.id true true)

/-- A beat continues an open run (R501). -/
def RemoteRun.takes (r : RemoteRun) (n : Nat) (b : WriteBeat) : Bool :=
  r.slot == n && r.chip == b.chip && b.addr.toNat * 64 == r.addr + 64 * r.beats.length

/-- A write that no port has accepted yet is numbered for the fences and the signals behind it (R78, R165). -/
def State.sentWrite (s : State) (p n : Nat) : State :=
  s.modPort p fun e => { e with sent := e.sent ++ [(e.nextWrite, n)], nextWrite := e.nextWrite + 1 }

/-- A beat for another chip (R338, R501). -/
def State.remoteBeat (s : State) (p n : Nat) (b : WriteBeat) : State :=
  let goesOn : Bool := ((s.port p).run.map fun r => r.takes n b).getD false
  let s := if goesOn then s else
    let s := s.endRun p
    let r : RemoteRun := { chip := b.chip, addr := b.addr.toNat * 64, slot := n, part := (s.slot n).part
                           id := (s.port p).nextWrite }
    (s.sentWrite p n).modPort p fun e => { e with run := some r }
  let s := s.modPort p fun e => { e with run := e.run.map fun r => { r with beats := r.beats ++ [b.data] } }
  let full : Bool := ((s.port p).run.map fun r => decide (r.beats.length ≥ 64)).getD false
  if b.last || full then s.endRun p else s

/-- A beat for this chip's memory (R200, R303, R316, R501). -/
def State.localBeat (s : State) (n : Nat) (b : WriteBeat) : State :=
  let a := b.addr.toNat * 64
  let part := (s.slot n).part
  if !s.inWindow part a 64 then s.violation n
  else
    s.requestWrite (.task n (s.slot n).inst) a b.hint.toNat (s.par K.partitionCacheWays part) b.data

/-- A signal beat: its command is handed to the Signal Unit, behind the writes the port sent before it (R164, R165). -/
def State.signalBeat (s : State) (p n : Nat) (cmd : BitVec 64) : State :=
  let q := s.slot n
  { s with sig := { s.sig with inbound := s.sig.inbound ++ [s.handed (.engine p q.ctx q.gen) cmd] } }

/-- A write beat of an engine (R501); one that the port stamps with no live task is dropped (R168, R406). -/
def engineWriteBeatEff (p : Nat) (b : WriteBeat) (s : State) : State :=
  if !s.channelsOpen p then s
  else
    match s.liveStamp p with
    | none => s.bump (if b.signal then K.signalsStaleDropped else K.staleWritesDropped)
    | some n =>
      if b.signal then (s.endRun p).signalBeat p n (b.data.setWidth 64)
      else if b.remote ∧ b.chip ≠ s.chipId then s.remoteBeat p n b
      else (s.endRun p).localBeat n b

/-- ENGINE_WRITE_BEAT (R501). -/
def execEngineWriteBeat (p : Nat) (b : WriteBeat) (s : State) : Host.Outcome State Fault Refusal :=
  runPort (s.hasEngine p) (engineWriteBeatEff p b) s

/-- A host DMA access may be made: in the windows of a partition, or for 16 anywhere within capacity (R505). -/
def State.hostMay (s : State) (addr part : Nat) : Bool :=
  if part < 16 then s.inWindow part addr 64 else part == 16 && s.inCapacity addr

/-- The cache ways of a host DMA access (R201). -/
def State.hostWays (s : State) (addr part : Nat) : Nat :=
  if part < 16 then s.par K.partitionCacheWays part else s.waysAt addr

/-- A host DMA access that may not be made: counted and raised (R505). -/
def State.hostViolation (s : State) : State := (s.bump K.partitionViolations).raise A.partitionViolation

/-- A host DMA read (R505). -/
def hostDmaReadEff (addr : BitVec 37) (tag part : Nat) (s : State) : State :=
  let a := addr.toNat * 64
  if s.hostMay a part then s.requestRead (.hostDma tag) a 0 0 0 (s.hostWays a part)
  else s.hostViolation.emit (.hostResponse tag 3 0)

/-- HOST_DMA_READ (R505). -/
def execHostDmaRead (addr : BitVec 37) (tag part : Nat) (s : State) : Host.Outcome State Fault Refusal :=
  runCore (hostDmaReadEff addr tag part) s


/-- A host DMA write, or a signal beat of that port (R164, R165, R505). -/
def hostDmaWriteEff (addr : BitVec 37) (part : Nat) (signal : Bool) (data : BitVec 512) (s : State) : State :=
  let a := addr.toNat * 64
  if signal then { s with sig := { s.sig with inbound := s.sig.inbound ++ [s.handed .hostDma (data.setWidth 64)] } }
  else if s.hostMay a part then s.requestWrite .unit a 0 (s.hostWays a part) data
  else s.hostViolation

/-- HOST_DMA_WRITE (R505). -/
def execHostDmaWrite (addr : BitVec 37) (part : Nat) (signal : Bool) (data : BitVec 512) (s : State) :
    Host.Outcome State Fault Refusal := runCore (hostDmaWriteEff addr part signal data) s

/-- A change of the dictionary window. -/
def State.modWin (s : State) (f : Window → Window) : State := { s with win := f s.win }

/-- STATUS of the window (R454). -/
def Window.status (w : Window) : Nat :=
  at' w.doneSeq 8 8 + flag w.collision 2 + flag w.done 1 + flag w.inProgress 0

/-- A byte of the window as a read finds it (R454). -/
def Window.byte (w : Window) (off : Nat) : Nat :=
  if off < 0x10 then fld w.request.toNat (8 * off) 8
  else if off < 0x20 then fld w.response.toNat (8 * (off - 0x10)) 8
  else if 0x28 ≤ off ∧ off < 0x30 then fld w.status (8 * (off - 0x28)) 8
  else if 0x1000 ≤ off ∧ off < 0x2000 then Sparse.get w.reqValue 0 (off - 0x1000)
  else if 0x2000 ≤ off ∧ off < 0x3000 then (nth w.rspValue 0 (off - 0x2000)).toNat
  else 0

/-- A byte of REQUEST or REQUEST_VALUE is written; others ignore writes (R454). -/
def Window.putByte (w : Window) (off v : Nat) : Window :=
  if off < 0x10 then { w with request := setBits w.request (8 * off) 8 v }
  else if 0x1000 ≤ off ∧ off < 0x2000 then { w with reqValue := Sparse.set w.reqValue 0 (off - 0x1000) v }
  else w

/-- A write or a GO while a request is being served is discarded (R455). -/
def State.collide (s : State) : State :=
  (s.modWin fun w => { w with collision := true }).bump K.dictWindowCollisions

/-- A GO write submits REQUEST (R455). -/
def State.windowGo (s : State) : State :=
  if s.win.inProgress then s.collide
  else
    let before := s.mgmt.waiting.length
    s.modWin fun w => { w with
      done := false, inProgress := true, collision := false, ahead := before, goAt := s.clk.units }

/-- A control-port write to GO, with its response (R455, R504). -/
def windowGoEff (s : State) : State := s.windowGo.emit (.controlResponse 0)

/-- WINDOW_GO (R455); the Object Dictionary serves in every power state (R24, R439). -/
def execWindowGo (s : State) : Host.Outcome State Fault Refusal := runMgmt windowGoEff s

/-- Whether n bytes at an offset touch a range of the window. -/
def touches (off n lo hi : Nat) : Bool := decide (off < hi ∧ lo < off + n)

/-- A control-port write into the dictionary window (R454, R455). -/
def State.windowWrite (s : State) (off : Nat) (bytes : List Byte) : State :=
  let n := bytes.length
  let go := touches off n 0x20 0x28
  if s.win.inProgress then
    if go || touches off n 0 0x10 || touches off n 0x1000 0x2000 then s.collide else s
  else
    let s := s.modWin fun w => bytes.zipIdx.foldl (fun w b => w.putByte (off + b.2) b.1.toNat) w
    if go then s.windowGo else s

/-- A control-port write (R132, R133): its bytes stand in their natural lanes. -/
def State.controlWrite (s : State) (addr size : Nat) (data : Block) : State :=
  let n := 2 ^ size
  let off := addr % 64
  let bytes := (leBytes 64 data.toNat).drop off |>.take n
  if addr < 0x10000 then s.windowWrite addr bytes
  else if 0x20000 ≤ addr ∧ addr < 0x40000 then
    let a := (addr - 0x20000) / 64
    if n = 64 then s.doorbellWord a data else s.doorbellMalformed a
  else s

/-- The 64 bytes around a control-port address, as a read that dequeues nothing finds them (R132, R134 to R136). -/
def State.controlImage (s : State) (addr : Nat) : Nat :=
  let base := addr / 64 * 64
  if addr < 0x10000 then ofLe ((List.range 64).map fun i => BitVec.ofNat 8 (s.win.byte (base + i)))
  else if addr < 0x20000 then
    ((List.range 16).map fun i => (s.queue ((base - 0x10000) / 4 + i)).countRegister * 2 ^ (32 * i)).sum
  else if addr < 0x40000 then s.doorbellStatus ((addr - 0x20000) / 64)
  else if addr < 0x80000 then
    match s.apertureQueue ((addr - 0x40000) / 64) with
    | some n => (s.headWord n).toNat
    | none => 0
  else 0

/-- A control-port read of a size below 64 bytes, or outside the read apertures: the bytes in their natural lanes. -/
def State.controlRead (s : State) (addr size : Nat) : Block :=
  let off := 8 * (addr % 64)
  BitVec.ofNat 512 (fld (s.controlImage addr) off (8 * 2 ^ size) <<< off)

/-- A control request (R504): naturally aligned, and answered once; a read of 64 bytes of a read aperture dequeues
(R135); a write to a doorbell that is not aligned is malformed (R133). -/
def controlRequestEff (write : Bool) (addr size : Nat) (data : Block) (s : State) : State :=
  if addr ≥ 2 ^ 20 ∨ size > 6 ∨ addr % 2 ^ size ≠ 0 then
    let bell := write && decide (0x20000 ≤ addr ∧ addr < 0x40000)
    (if bell then s.doorbellMalformed ((addr - 0x20000) / 64) else s).emit (.controlResponse 0)
  else if write then (s.controlWrite addr size data).emit (.controlResponse 0)
  else if size = 6 ∧ 0x40000 ≤ addr ∧ addr < 0x80000 then readApertureEff ((addr - 0x40000) / 64) s
  else s.emit (.controlResponse (s.controlRead addr size))

/-- CONTROL_REQUEST (R504); in P3 the dictionary window alone serves, and every other request is answered with zeros
(R24, R439). -/
def execControlRequest (write : Bool) (addr size : Nat) (data : BitVec 512) (s : State) :
    Host.Outcome State Fault Refusal :=
  runMgmt (fun s => if s.off ∧ addr ≥ 0x10000 then s.emit (.controlResponse 0) else controlRequestEff write addr size data s) s

/-- A change of the sets of stopped units. -/
def State.modUnits (s : State) (f : Dispatch → Dispatch) : State := { s with disp := f s.disp }

/-- UNIT_STOPPED (R30): before START_GO every unit with a code counts as stopped, and so it does in P3 (log 116). -/
def State.stoppedUnits (s : State) : List Nat :=
  if s.power.started then s.disp.unitStopped else s.enginePorts ++ [64]

/-- A stop or a start is written to UNIT_CONTROL (R30). -/
def State.unitControl (s : State) (stop : Bool) (u : Nat) : State :=
  let without (l : List Nat) : List Nat := l.filter (· ≠ u)
  let s := s.modUnits fun d => { d with unitKeep := if stop then uniq (d.unitKeep ++ [u]) else without d.unitKeep }
  if !s.power.started then s
  else if stop then
    if s.disp.unitStopped.contains u then s.modUnits fun d => { d with unitStart := without d.unitStart }
    else
      let s := s.modUnits fun d => { d with unitStart := without d.unitStart, unitStopReq := uniq (d.unitStopReq ++ [u]) }
      if u < 64 then ((s.dropIncoming u).spillsDone u).drainStop u else s
  else s.modUnits fun d => { d with unitStart := uniq (d.unitStart ++ [u]) }

/-- The work in flight of a unit has finished (R30). -/
def State.unitIdle (s : State) (u : Nat) : Bool :=
  if u < 64 then
    let e := s.port u
    e.held.isNone && e.parkedTasks.isEmpty && e.sw.isNone
  else
    s.emb.lookups.isEmpty && s.emb.updates.isEmpty && s.emb.partials.isEmpty && s.emb.unformed.isEmpty
    && s.emb.heldRecords.isEmpty && s.emb.folds.isEmpty && s.emb.migrations.isEmpty

/-- A port is stopped: it is held in reset, an L1 of it in progress is over, and suspects that it has not replayed run
again as any task does (R30, R408; log 116). -/
def State.stopPort (s : State) (p : Nat) : State :=
  let left := s.suspectsLeft p
  let s := s.modPort p fun e => { e.inReset with
    inL1 := false, replaying := false, l1Suspects := false, suspects := [], guilty := [], bound := none }
  s.each left State.rerun

/-- A stop takes effect once the unit's work in flight has finished; an engine port is then held in reset (R30). -/
def unitStopEffectEff (u : Nat) (s : State) : State :=
  if s.disp.unitStopReq.contains u && s.unitIdle u then
    let s := s.modUnits fun d => { d with
      unitStopReq := d.unitStopReq.filter (· ≠ u), unitStopped := uniq (d.unitStopped ++ [u]) }
    if u < 64 then s.stopPort u else s
  else s

/-- UNIT_STOP_EFFECT (R30). -/
def execUnitStopEffect (u : Nat) (s : State) : Host.Outcome State Fault Refusal := runCore (unitStopEffectEff u) s

/-- A port that returns to service leaves reset and may take a task once it has raised EP_READY; in Night and in P2 it
is held in L1, and while it is disabled or stopped, or before START_GO, its reset stays asserted (R30, R98, R411,
R436, R509). -/
def State.returnPort (s : State) (p : Nat) : State :=
  if !s.portEnabled p ∨ s.disp.unitStopped.contains p ∨ !s.power.started then s
  else if s.resets.night ∨ s.power.state = 2 then s.modPort p fun e => { e with inL1 := true, expired := false }
  else s.modPort p fun e => { e with resetN := true, restoring := !e.epReady, expired := false }

/-- Starts take effect at a boundary: an engine port leaves reset (R30). -/
def State.unitTurn (s : State) : State :=
  let l := s.disp.unitStart
  let back := l.filter s.disp.unitStopped.contains
  let s := s.modUnits fun d => { d with
    unitStart := [], unitStopped := d.unitStopped.filter (fun u => !l.contains u)
    unitStopReq := d.unitStopReq.filter fun u => !l.contains u }
  s.each (back.filter fun u => decide (u < 64) && s.portWorks u) State.returnPort

end Sys2Proof.Machine
end

