-- ==== Sys2Proof/Machine/Security.lean ====
section
/-! DEFINITION. Life-cycle, debug levels and grants, firmware, the Management Controller's watchdog, and uncorrectable
SRAM words (R394, R416, R456 to R470). -/
namespace Sys2Proof.Machine

/-- A change of the management part of the state. -/
def State.modMgmt (s : State) (f : Mgmt → Mgmt) : State := { s with mgmt := f s.mgmt }

/-- A life-cycle transition is refused: in Night, P2 and P3, and while a reset at L3 or above, or a transition, is in
progress (R458, R470). -/
def State.transitionRefused (s : State) : Bool :=
  s.resets.night || decide (s.power.state ≥ 2) || s.mgmt.lcChange || s.resets.levels.any fun r => decide (r.level ≥ 3)

/-- A transition: the bits of the array are set, and the L4 of R429 runs (R458). -/
def State.transition (s : State) (count : Nat) : State :=
  (s.modMgmt fun m => { m with lcCount := count }).startL4 false true none true

/-- The owner key is installed (R457). -/
def State.provision (s : State) (key : BitVec 768) : State :=
  (s.modMgmt fun m => { m with ownerKey := key }).transition 1

/-- A point of the curve (R458). -/
def keyValid (key : BitVec 768) : Bool := ecOnCurve (bits key 384 384) (bits key 0 384)

/-- DEBUG_LEVEL is lowered from OPEN during a dump: how many units have been read by then is a free value (R470; log
60). -/
def State.lowerInDump (s : State) : State :=
  if s.mgmt.debugLevel = 2 ∧ s.resets.dump.state = 1 ∧ s.resets.dump.read.isNone then
    let (n, s) := s.fresh
    s.modResets fun r => { r with dump := { r.dump with read := some (Config.dumpUnitsRead n).toNat } }
  else s

/-- The debug level takes a new value at once: grants for Solder clear, and Solder without a right is disarmed
(R459, R464, R469). -/
def State.setDebug (s : State) (level : Nat) : State :=
  let s := if level < 2 then s.lowerInDump else s
  let s := s.modMgmt fun m => { m with debugLevel := level, solderGrant := if m.debugLevel = level then m.solderGrant else 0 }
  if level < 2 then s.armSolder false else s

/-- A change of level that runs the L4 of R464 first. -/
def State.setDebugByL4 (s : State) (level : Nat) : State := s.startL4 false true (some { level := level })

/-- A write of DEBUG_LEVEL is refused with RANGE: above 2, or a raise outside BLANK (R459). -/
def State.debugRefused (s : State) (v : Nat) : Bool := decide (v > 2) || (s.mgmt.lcCount ≠ 0 && decide (v > s.mgmt.debugLevel))

/-- A write of DEBUG_LEVEL (R459, R464). -/
def State.writeDebug (s : State) (v : Nat) : State :=
  if v = s.mgmt.debugLevel then s
  else if s.mgmt.lcCount = 2 ∧ s.mgmt.debugLevel = 2 then s.setDebugByL4 v
  else s.setDebug v

/-- A read of AUTH_CHALLENGE: a fresh nonce, which replaces an earlier one (R462). -/
def State.challenge (s : State) : State :=
  let (n, s) := s.fresh
  s.modMgmt fun m => { m with nonce := some (Config.nonce n) }

/-- AUTH_CHALLENGE is refused in LOCKED (R464). -/
def State.authLocked (s : State) : Bool := decide (s.mgmt.authFailures ≥ 8)

/-- The grants of R463. -/
def G.observe : Nat := 0x01
def G.open_ : Nat := 0x02
def G.solder : Nat := 0x03
def G.deploy : Nat := 0x10
def G.return_ : Nat := 0x11

/-- A grant that R463 lists. -/
def grantKnown (g : Nat) : Bool := [0x01, 0x02, 0x03, 0x10, 0x11].contains g

/-- The message that a grant signs (R463). -/
def State.grantMessage (s : State) (nonce : BitVec 384) (g ports : Nat) : List Byte :=
  beBytes 48 nonce.toNat ++ beBytes 16 Config.deviceUid.toNat ++ leBytes 1 s.mgmt.lcCount ++ leBytes 1 g ++ leBytes 2 ports

/-- A grant's signature is valid (R463). -/
def State.grantSigned (s : State) (nonce : BitVec 384) (sigR sigS g ports : Nat) : Bool :=
  ecdsaVerify (bits s.mgmt.ownerKey 384 384) (bits s.mgmt.ownerKey 0 384) (ofBe (sha384 (s.grantMessage nonce g ports)))
    sigR sigS

/-- A grant with a valid signature is not allowed: it is no raise, this state does not know it, R458 or R464 refuses
it, or a thermal trip has entered P3 (R470; log 119). -/
def State.grantRefused (s : State) (g : Nat) : Bool :=
  if s.power.state = 3 ∧ s.power.tripped then true
  else if g = G.observe then decide (s.mgmt.debugLevel ≥ 1)
  else if g = G.open_ then decide (s.mgmt.debugLevel ≥ 2)
    || (s.mgmt.lcCount == 2 && (s.mgmt.pendingDebug.isSome || s.transitionRefused))
  else if g = G.solder then false
  else if g = G.deploy then s.mgmt.lcCount != 1 || s.transitionRefused
  else !(s.mgmt.lcCount == 1 || s.mgmt.lcCount == 2) || s.transitionRefused

/-- The effect of an accepted grant (R464). -/
def State.applyGrant (s : State) (g ports : Nat) : State :=
  if g = G.observe then s.setDebug 1
  else if g = G.open_ then if s.mgmt.lcCount = 2 then s.setDebugByL4 2 else s.setDebug 2
  else if g = G.solder then s.modMgmt fun m => { m with solderGrant := BitVec.ofNat 16 ports }
  else if g = G.deploy then s.transition 2
  else s.transition 3

/-- A failed response is counted; the eighth since the last L4 locks (R464). -/
def State.authFailure (s : State) (result : Nat) : State :=
  let s := (s.bump K.authFailuresTotal).modMgmt fun m => { m with authResult := result, authFailures := m.authFailures + 1 }
  if s.mgmt.authFailures = 8 then s.raise A.authLocked else s

/-- A write of AUTH_RESPONSE (R462 to R464): it spends the nonce, whatever its outcome. -/
def State.authRespond (s : State) (sigR sigS g ports : Nat) : State :=
  let nonce := s.mgmt.nonce
  let s := s.modMgmt fun m => { m with nonce := none }
  if s.authLocked then s.modMgmt fun m => { m with authResult := 4 }
  else
    match nonce with
    | none => s.authFailure 3
    | some x =>
      if !s.grantSigned x sigR sigS g ports then s.authFailure 2
      else if s.grantRefused g then s.modMgmt fun m => { m with authResult := 5 }
      else (s.modMgmt fun m => { m with authResult := 1 }).applyGrant g ports

/-- A nonce is 10 s old (R462). -/
def authNonceExpiryEff (s : State) : State := s.modMgmt fun m => { m with nonce := none }

/-- AUTH_NONCE_EXPIRY (R462). -/
def execAuthNonceExpiry (s : State) : Host.Outcome State Fault Refusal := runMgmt authNonceExpiryEff s

/-- The largest firmware image: header and body (R465). -/
def fwCapacity : Nat := 524288

/-- Bytes of the firmware image loaded. -/
def State.fwBytes (s : State) (off n : Nat) : List Byte :=
  (List.range n).map fun i => BitVec.ofNat 8 (Sparse.get s.mgmt.fwImage 0 (off + i))

/-- Fields of the firmware header (R465). -/
def State.fwField (s : State) (off : Nat) : Nat := ofLe (s.fwBytes off 4)

/-- BODY_BYTES of the image loaded (R465). -/
def State.fwBody (s : State) : Nat := s.fwField 12

/-- The bytes a firmware signature covers: header with the signature zero, then the body (R465). -/
def State.fwSigned (s : State) : List Byte :=
  s.fwBytes 0 20 ++ List.replicate 96 0 ++ s.fwBytes 116 (140 + s.fwBody)

/-- The release test of R60 for a firmware image. -/
def State.fwRelease (s : State) : Bool :=
  let r := s.fwField 4
  let own := s.objDefault K.releaseCode
  fld r 16 16 == fld own 16 16 && decide (fld r 0 16 ≤ fld own 0 16)

/-- An image is accepted (R465, R466); its length and its SVN stay in their ranges. -/
def State.fwAccepted (s : State) : Bool :=
  s.fwField 0 == 0x46574E59 && s.fwRelease && decide (s.fwField 8 ≥ s.mgmt.fwSvn) && decide (s.fwField 8 ≤ 64)
  && decide (s.fwBody ≤ 524032) && s.fwBody % 64 == 0
  && ecdsaVerify (bits Config.firmwareKey 384 384) (bits Config.firmwareKey 0 384) (ofBe (sha384 s.fwSigned))
      (ofBe (s.fwBytes 20 48)) (ofBe (s.fwBytes 68 48))

/-- The verified image runs (R466). -/
def State.fwStart (s : State) : State :=
  let digest := ofBe (sha384 (s.fwBytes 0 (256 + s.fwBody)))
  let svn := if s.mgmt.lcCount = 2 then s.fwField 8 else s.mgmt.fwSvn
  (s.modMgmt fun m => { m with fwState := 3, fwDigest := BitVec.ofNat 384 digest, fwSvn := svn }).modResets fun r =>
    { r with mcBeat := s.ms }

/-- FW_LOAD_DATA: image bytes at FW_LOAD_OFFSET (R466). -/
def State.fwLoad (s : State) (bytes : List Byte) : State :=
  let off := s.par K.fwLoadOffset
  s.modMgmt fun m => { m with
    fwState := 1, fwImage := bytes.zipIdx.foldl (fun i b => Sparse.set i 0 (off + b.2) b.1.toNat) m.fwImage }

/-- The firmware image is not to be written now: it is being verified, runs, or restarts (R466). -/
def State.fwBusy (s : State) : Bool := s.mgmt.fwState == 2 || s.mgmt.fwState == 3 || s.mgmt.fwState == 5

/-- FW_LOAD_GO (R466). -/
def State.fwGo (s : State) : State := s.modMgmt fun m => { m with fwState := 2 }

/-- Verification ends (R466). -/
def fwVerifyCompleteEff (s : State) : State :=
  if s.mgmt.fwState ≠ 2 then s
  else if s.fwAccepted then s.fwStart
  else (s.modMgmt fun m => { m with fwState := 4 }).raise A.fwRejected

/-- FW_VERIFY_COMPLETE (R466). -/
def execFwVerifyComplete (s : State) : Host.Outcome State Fault Refusal := runMgmt fwVerifyCompleteEff s

/-- A response's header: its request's, but for LENGTH, RESULT and the reserved bits, which are zero (R17, R447). -/
def responseHeader (h : BitVec 128) (result length : Nat) : BitVec 128 :=
  setBits (setBits (setBits h 40 16 length) 32 8 result) 0 32 0

/-- A window request in progress completes with a result and no value (R470). -/
def State.failWindow (s : State) (result : Nat) : State :=
  if !s.win.inProgress then s
  else s.modWin fun w => { w with
    response := responseHeader w.request result 0, rspValue := []
    doneSeq := bits w.request 112 8, done := true, inProgress := false }

/-- The Management Controller restarts from its firmware image (R394, R416, R470). Where none has been accepted the
boot ROM goes on serving, and an image half loaded or being verified waits for its load and its FW_LOAD_GO again
(R466; log 120). -/
def State.mcRestart (s : State) : State :=
  let next := if s.mgmt.fwState = 3 ∨ s.mgmt.fwState = 5 then 5 else 0
  ((s.modMgmt fun m => { m with fwState := next }).raise A.mcRestart).failWindow D.busy

/-- No heartbeat has come within MC_WATCHDOG_MS while an image runs: the controller restarts, and at a second expiry
within ESCALATE_WINDOW_S L4 starts (R394, R466). -/
def mcWatchdogExpiryEff (s : State) : State :=
  if s.mgmt.fwState ≠ 3 then s
  else
    let again := match s.resets.mcExpired with
      | some t => decide (s.ms - t < s.par K.escalateWindowS * 1000)
      | none => false
    let s := (s.modResets fun r => { r with mcExpired := some s.ms }).mcRestart
    if again then s.startL4 true else s

/-- MC_WATCHDOG_EXPIRY (R394). -/
def execMcWatchdogExpiry (s : State) : Host.Outcome State Fault Refusal := runMgmt mcWatchdogExpiryEff s

/-- The restart completes: the image is verified again and started, or rejected, and the boot ROM serves (R394, R466).
-/
def mcRestartCompleteEff (s : State) : State :=
  if s.mgmt.fwState ≠ 5 then s
  else if s.fwAccepted then s.fwStart
  else (s.modMgmt fun m => { m with fwState := 4 }).raise A.fwRejected

/-- MC_RESTART_COMPLETE (R394). -/
def execMcRestartComplete (s : State) : Host.Outcome State Fault Refusal := runMgmt mcRestartCompleteEff s

/-- A write of MC_HEARTBEAT (R394). -/
def State.heartbeat (s : State) : State := s.modResets fun r => { r with mcBeat := s.ms }

/-- The context whose L0 an uncorrectable word starts, for a structure in use by a live context (R416). -/
def State.sramContext (s : State) : SramWord → Option Nat
  | .slot n => if (s.slot n).state = .free then none else some (s.slot n).ctx
  | .spillRecord n => if s.spillRec n = {} then none else some (s.slot (s.spillRec n).slot).ctx
  | .flow n => if s.flowState n = .free then none else some (s.flow n).ctx
  | .object n => if s.objLive n then some (s.obj n).ctx else none
  | .barrier n => if s.barrierLive n then some (s.barrier n).ctx else none
  | .queue n => if (s.ctx (s.queue n).ctx).job && (decide ((s.queue n).kind ≤ 1) || (s.queue n).kind == kindData)
      then some (s.queue n).ctx else none
  | _ => none

/-- The word is rewritten as zero (R416). -/
def State.zeroWord (s : State) : SramWord → State
  | .slot n => s.modSlot n fun _ => {}
  | .spillRecord n => s.modSpill n fun _ => {}
  | .flow n => s.modFlow n fun _ => {}
  | .object n => (s.freeAlign n).modObj n fun _ => {}
  | .barrier n => s.modBarrier n fun _ => {}
  | .queue n => s.modQueue n fun _ => {}
  | _ => s

/-- The flit in a place of a virtual channel's replay buffer is lost, the oldest lying in place 0 (R416). -/
def State.loseReplay (s : State) (p vc place : Nat) : State :=
  s.modLport p fun l => l.modTx vc fun t =>
    if place < t.replay.length then
      { t with replay := t.replay.eraseIdx place, sentTo := if place < t.sentTo then t.sentTo - 1 else t.sentTo }
    else t

/-- The bytes of the Hot Row Store slot that holds an offset (R416). -/
def State.spoilHot (s : State) (off : Nat) : State :=
  match s.emb.hotAllocs.find? fun a => decide (a.1 ≤ off ∧ off < a.1 + a.2) with
  | none => s
  | some a => s.modResets fun r => { r with hotBad := uniq (r.hotBad ++ [a]) }

/-- An uncorrectable SRAM word (R416). -/
def sramUncorrectableEff (w : SramWord) (s : State) : State :=
  let s := s.raise A.sramUncorrectable
  match w with
  | .shared => s.startL3
  | .overlayCache => s
  | .hotRow off => s.spoilHot off
  | .replayBuffer p vc place => if (s.lport p).state = .up then (s.loseReplay p vc place).linkDown p false else s
  | .controller => s.mcRestart
  | w =>
    match s.sramContext w with
    | some c => s.startL0 c 0x07
    | none => s.zeroWord w

/-- SRAM_UNCORRECTABLE (R416): in P3 the Management Controller's own words alone are left. -/
def execSramUncorrectable (w : SramWord) (s : State) : Host.Outcome State Fault Refusal :=
  runMgmt (fun s => if s.off ∧ w ≠ .controller then s else sramUncorrectableEff w s) s

/-- DEBUG_MEM_DATA reads the block at DEBUG_MEM_ADDR through the Memory Stripe Unit (R461). DESIGN CHOICE (log 124): a
block that cannot be read has all ones. -/
def State.debugRead (s : State) : State × Block :=
  let (s, st, _) := s.readBytes (s.par K.debugMemAddr) 64
  (s, if st = .ok then s.peekWord (s.par K.debugMemAddr) else BitVec.allOnes 512)

/-- DEBUG_MEM_DATA writes the block at DEBUG_MEM_ADDR (R303, R461). -/
def State.debugWrite (s : State) (v : Block) : State := s.writeWord (s.par K.debugMemAddr) v

end Sys2Proof.Machine
end

