-- ==== Sys2Proof/Machine/DictRead.lean ====
section
/-! DEFINITION. Reading the object dictionary: the value of each object as a READ returns it (R28, R446 to R450, R472,
R473, and the object tables of each chapter). -/
namespace Sys2Proof.Machine

/-- The first byte of a value highest, as a little-endian number. -/
def firstHigh (n v : Nat) : Nat := ofLe (beBytes n v)

/-- Codes of MEM_PORT_STATE (R317). -/
def MemPortState.code : MemPortState → Nat
  | .untrained => 0
  | .online => 0
  | .draining => 1
  | .offline => 2
  | .lost => 3
  | .rebuilding => 4
  | .absent => 5

/-- Codes of LINK_STATE (R350). -/
def LinkState.code : LinkState → Nat
  | .disabled => 0
  | .training => 1
  | .identify => 2
  | .up => 3
  | .down => 4
  | .refused => 5
  | .absent => 6

/-- The state of a memory port: ABSENT where the build has none (R317). -/
def State.memPortState (s : State) (p : Nat) : MemPortState := if s.hasMemory p then (s.mport p).state else .absent

/-- The state of a link port: ABSENT where the build has none (R350). -/
def State.linkState (s : State) (p : Nat) : LinkState := if s.hasLink p then (s.lport p).state else .absent

/-- ENGINE_PORT_STATE of a port (R99). -/
def State.enginePortState (s : State) (p : Nat) : Nat :=
  let e := s.port p
  let st := if e.failed then 2 else if !s.portEnabled p then 3 else if e.held.isSome || e.sw.isSome then 1 else 0
  at' (s.carried p) 2 6 + st

/-- FLOW_QUERY_ENTRY (R148, R159). DESIGN CHOICE (log 127): every field of a FREE entry reads as zero. -/
def State.flowEntry (s : State) (f : Nat) : Nat := if s.flowState f = .free then 0 else (s.flow f).word

/-- The selection of SIGNAL_SELECT (R187). -/
def State.selected (s : State) : Bool × Nat := (bit (s.par K.signalSelect) 31, fld (s.par K.signalSelect) 0 18)

/-- SIGNAL_STATE (R160, R177, R187). -/
def State.signalState (s : State) : Nat :=
  let (bar, n) := s.selected
  if bar then (s.barrier n).word else (s.obj n).word

/-- SIGNAL_ALIGN_ENTRY (R179, R187). -/
def State.signalAlign (s : State) : Nat :=
  let (bar, n) := s.selected
  if !bar && (s.obj n).aligned then (s.alignEntry (s.obj n).alignIndex).word else 0

/-- TABLE_DIGEST: the newest digest record of the table of TABLE_SELECT (R271, R275). -/
def State.tableDigest (s : State) : Nat :=
  match (s.table (s.par K.tableSelect)).records with
  | r :: _ => r.word.toNat
  | [] => 0

/-- HOT_ROW_BYTES_IN_USE (R275). -/
def State.hotInUse (s : State) : Nat := (s.emb.hotAllocs.map (·.2)).sum

/-- The number of chunks in some of several sets. -/
def ChunkSet.unionSize (l : List ChunkSet) (chunks : Nat) : Nat :=
  let some_ := uniq ((l.filter fun c => !c.all).flatMap fun c => c.except.filter fun k => decide (k < chunks))
  match l.filter (·.all) with
  | [] => some_.length
  | c :: rest =>
    chunks - (c.except.filter fun k => decide (k < chunks) && !some_.contains k && rest.all fun x => x.except.contains k).length

/-- WIPE_PENDING of a stripe group: its wipe-pending chunks, one of them pending on any of its ports (R428, R445). -/
def State.wipeChunksLeft (s : State) (g : Nat) : Nat :=
  if g < s.groups then ChunkSet.unionSize ((s.groupPorts g).map fun p => (s.mport p).wipe) s.chunks else 0

/-- REBUILD_PROGRESS of a stripe group: its marked chunks (R321, R331). -/
def State.rebuildProgress (s : State) (g : Nat) : Nat := if g < s.groups then (s.bitmapOf g).size s.chunks else 0

/-- THERMAL_SENSORS, as two's complement (R433). -/
def State.sensor (s : State) (i : Nat) : Nat := (BitVec.ofInt 32 (s.power.sensors.getD i 0)).toNat

/-- ALARM_PENDING (R483). -/
def State.alarmPending (s : State) : Nat := ((List.range 128).map fun n => flag (s.latch n).pending n).sum

/-- UNIT_STOPPED (R30). -/
def State.unitStoppedWord (s : State) : Nat := (s.stoppedUnits.map fun u => 2 ^ u).sum

/-- CLIENT_JOB_COUNTS of a context (R194, R218). -/
def State.clientJobs (s : State) (c : Nat) : Nat :=
  let n (e : Nat) : Nat := Sparse.get s.dict.accounting 0 (dictKey K.clientJobCounts e)
  at' (n (4096 + c)) 64 64 + n c

/-- 64 bytes of the dump at DUMP_OFFSET (R420). -/
def State.dumpData (s : State) : Nat :=
  let d := s.resets.dump
  if d.state = 2 then ofLe (slice d.bytes (s.par K.dumpOffset) 64) else 0

/-- An event counter's U64 (R473). -/
def State.counterWord (s : State) (key e : Nat) : Nat :=
  let c := s.counterAt key e
  if c = counterTop then 2 ^ 64 - 1 else c

/-- Identity, management and security objects that show state or build (R2, R471, R487). -/
def State.readsA (s : State) : List (Nat × (Nat → Nat)) :=
  [ (K.buildEnginePorts, fun _ => s.build.enginePorts),
    (K.buildMemoryPorts, fun _ => s.build.memoryPorts),
    (K.buildLinkPorts, fun _ => s.build.linkPorts),
    (K.dictDirectory, fun e => ((objRows[e]?).map objEntry).getD 0),
    (K.dictObjects, fun _ => objCount),
    (K.mctpEid, fun _ => s.mgmt.eid),
    (K.mctpVendorIana, fun _ => Config.vendorIana.toNat),
    (K.i3cStaticAddr, fun _ => Config.i3cStaticAddr),
    (K.i3cDynamicAddr, fun _ => s.mgmt.dynAddr),
    (K.lifecycleState, fun _ => s.mgmt.lcCount),
    (K.deviceUid, fun _ => firstHigh 16 Config.deviceUid.toNat),
    (K.ownerKey, fun _ => firstHigh 96 s.mgmt.ownerKey.toNat),
    (K.debugLevel, fun _ => s.mgmt.debugLevel),
    (K.authResult, fun _ => s.mgmt.authResult),
    (K.authFailures, fun _ => s.mgmt.authFailures),
    (K.solderGrant, fun _ => s.mgmt.solderGrant.toNat),
    (K.fwState, fun _ => s.mgmt.fwState),
    (K.fwSvn, fun _ => s.mgmt.fwSvn),
    (K.fwDigest, fun _ => firstHigh 48 s.mgmt.fwDigest.toNat),
    (K.tickNumber, fun _ => s.tick.number.toNat) ]

/-- Dispatch, image, flow, queue and signal objects (R61, R99, R128, R159, R187, R218). -/
def State.readsB (s : State) : List (Nat × (Nat → Nat)) :=
  [ (K.enginePortState, s.enginePortState),
    (K.imageLoadResult, fun _ => s.loader.result.toNat),
    (K.imageSlotDigest, fun e => ((s.image e).map (·.digest.toNat)).getD 0),
    (K.slotsInUse, fun _ => (s.mat.slots.filter fun e => e.2.state != .free).length),
    (K.delayEntriesInUse, fun _ => s.adm.delay.length),
    (K.flowsInUse, fun _ => (s.adm.flows.filter fun e => s.flowState e.1 != .free).length),
    (K.holdEntriesFree, fun _ => 32768 - s.adm.holds.length),
    (K.reservationsInUse, fun _ => s.reservations),
    (K.flowQueryEntry, fun _ => s.flowEntry (s.par K.flowQueryId)),
    (K.signalState, fun _ => s.signalState),
    (K.signalAlignEntry, fun _ => s.signalAlign),
    (K.alignedInUse, fun _ => s.alignedInUse),
    (K.clientJobCounts, s.clientJobs) ]

/-- Embedding, routing, memory and link objects (R245, R275, R299, R331, R362). -/
def State.readsC (s : State) : List (Nat × (Nat → Nat)) :=
  [ (K.tableResult, fun _ => s.emb.tableResult.toNat),
    (K.tableState, fun e => (s.table e).state),
    (K.partialsPending, fun _ => s.emb.partials.length),
    (K.tableUpdateState, fun _ => s.updateState (s.par K.tableSelect)),
    (K.tableDigest, fun _ => s.tableDigest),
    (K.hotRowBytesInUse, fun _ => s.hotInUse),
    (K.exchangesOpen, fun _ => s.route.exchanges.length),
    (K.exchangeStreamSeq, fun e => Sparse.get s.route.streamSeq 0 e),
    (K.memPortState, fun e => (s.memPortState e).code),
    (K.rebuildProgress, s.rebuildProgress),
    (K.linkState, fun e => (s.linkState e).code),
    (K.linkNeighbor, fun e => (s.lport e).neighbor.toNat),
    (K.linkDelay, fun e => (s.lport e).delay),
    (K.linkIncarnation, fun _ => s.links.incarnation.toNat),
    (K.solderArm, fun _ => flag s.links.solderArmed 0) ]

/-- Repeatability, reset, start, power, self-test and alarm objects (R389, R422, R445, R485, R30). -/
def State.readsD (s : State) : List (Nat × (Nat → Nat)) :=
  [ (K.logProduced, fun _ => s.replay.produced.toNat),
    (K.logConsumed, fun _ => s.replay.consumed.toNat),
    (K.replayStatus, fun _ => s.replay.status),
    (K.replayDiverge, fun _ => s.replay.diverge.toNat),
    (K.rngProbeOut, fun _ => s.replay.probeOut.toNat),
    (K.resetState, fun _ => s.resetState),
    (K.escalationHistory, fun e => s.resets.history.getD e 0),
    (K.teardownReport, fun _ => s.resets.report.toNat),
    (K.memZeroFillDone, fun _ => flag s.resets.zeroFill.isNone 0),
    (K.unitStopped, fun _ => s.unitStoppedWord),
    (K.dumpState, fun _ => s.resets.dump.state),
    (K.dumpData, fun _ => s.dumpData),
    (K.startStage, fun _ => s.power.stage),
    (K.clockLevel, fun _ => s.pins.clkReq),
    (K.hclkMeasuredKhz, fun _ => s.power.hclkKhz),
    (K.powerState, fun _ => s.power.state),
    (K.powerResult, fun _ => s.power.result),
    (K.thermalSensors, s.sensor),
    (K.regionVoltageDiff, fun e => Sparse.get s.power.voltages 0 e),
    (K.wipePending, s.wipeChunksLeft),
    (K.selftestState, fun _ => s.power.selfTest.state),
    (K.selftestResult, fun _ => s.power.selfTest.result.toNat),
    (K.alarmPending, fun _ => s.alarmPending),
    (K.alarmLatch, fun e => (s.latch e).word) ]

/-- Ports of an object whose elements are ports: their number in the build (R8). -/
def State.portElements (s : State) (key : Nat) : Option Nat :=
  if key = K.enginePortConfig ∨ key = K.enginePortState then some s.build.enginePorts
  else if key = K.memPortState then some s.build.memoryPorts
  else if key = K.linkState ∨ key = K.linkNeighbor ∨ key = K.linkDelay ∨ key = K.linkLanes
      ∨ (0x601B01 ≤ key ∧ key ≤ 0x601B09) then some s.build.linkPorts
  else none

/-- The retire table of a memory port, by its object (R331). -/
def retirePort (key : Nat) : Option Nat :=
  if K.retireTableMp0 ≤ key ∧ key ≤ K.retireTableMp0 + 23 * 256 ∧ key % 256 = 0 then some ((key - K.retireTableMp0) / 256)
  else none

/-- The logical map of a partition, by its object (R99). -/
def logicalMapPart (key : Nat) : Option Nat :=
  if K.logicalMapP0 ≤ key ∧ key ≤ K.logicalMapP0 + 15 * 256 ∧ key % 256 = 0 then some ((key - K.logicalMapP0) / 256)
  else none

/-- An element that belongs to a port absent from the build (R8); one beyond the array belongs to none (R449). -/
def State.absentElement (s : State) (key e : Nat) : Bool :=
  (match s.portElements key with
    | some n => decide (n ≤ e) && decide (e < ((objDesc key).map (·.elements)).getD 0)
    | none => false)
  || match retirePort key with
    | some p => !s.hasMemory p
    | none => false

/-- An element of an object as a READ returns it; that of an absent port reads as zero (R8, R28, R448, R486; log 56). -/
def State.readElem (s : State) (r : ObjDesc) (e : Nat) : Nat :=
  let key := r.key
  if s.absentElement key e then 0
  else
    match (s.readsA ++ s.readsB ++ s.readsC ++ s.readsD).find? (fun x => x.1 == key) with
    | some x => x.2 e
    | none =>
      match retirePort key, logicalMapPart key with
      | some p, _ => Sparse.get (s.mport p).retire 0 e
      | _, some part => Sparse.get s.disp.maps 0 (part * 768 + e)
      | none, none =>
        if r.cls = 2 then s.counterWord key e
        else if r.cls = 3 then Sparse.get s.dict.accounting 0 (dictKey key e)
        else if r.access = 1 ∨ r.access = 3 then s.stored key e
        else if r.access = 0 then s.objDefault key
        else 0

/-- Reading some objects does something: a challenge replaces the nonce, a block is read from memory (R461, R462). -/
def State.readTouch (s : State) (key : Nat) : State × Option Nat :=
  if key = K.authChallenge then
    let s := s.challenge
    (s, s.mgmt.nonce.map fun n => firstHigh 48 n.toNat)
  else if key = K.debugMemData then
    let (s, b) := s.debugRead
    (s, some b.toNat)
  else (s, none)

/-- The value bytes of COUNT elements from FIRST (R448). -/
def State.dictValue (s : State) (r : ObjDesc) (first count : Nat) : State × List Byte :=
  let (s, v) := s.readTouch r.key
  match v with
  | some v => (s, leBytes r.bytes v)
  | none => (s, (List.range count).flatMap fun i => leBytes r.bytes (s.readElem r (first + i)))

end Sys2Proof.Machine
end

