-- ==== Sys2Proof/Machine/Dictionary.lean ====
section
/-! DEFINITION. The object dictionary: the checks of R449, what a WRITE of each object does, and the commands that are
writes (R28, R446 to R450). -/
namespace Sys2Proof.Machine

/-- A dictionary request (R447, R448). -/
structure DictReq where
  mctp : Bool
  opcode : Nat
  key : Nat
  first : Nat
  count : Nat
  length : Nat
  value : List Byte
  deriving DecidableEq, Repr

/-- The alarm type codes (R495). -/
def alarmCodes : List Nat :=
  [A.clockRange, A.tickLost, A.tickSkew, A.matchProtocol, A.engineSpared, A.accountSaturated, A.partitionViolation,
   A.queueProtocol, A.signalSaturated, A.signalProtocol, A.syncDrift, A.exchangeProtocol, A.portLost, A.stripeDoubleFault,
   A.dataLost, A.pageRetired, A.retireFull, A.parityMismatch, A.memProtocol, A.linkDown, A.linkPartnerRefused,
   A.linkTickMismatch, A.linkUnroutable, A.linkLoop, A.linkProtocol, A.taskWatchdog, A.dispatchStall, A.mcRestart, A.night,
   A.sramBankSpared, A.sramNoSpare, A.sramUncorrectable, A.dataUnitStall, A.startDegraded, A.throttle, A.thermalTrip,
   A.voltageRange, A.selftestFail, A.authLocked, A.fwRejected, A.replayDiverged]

/-- A code of the table of R495. -/
def alarmKnown (code : Nat) : Bool := alarmCodes.contains code

/-- The bits of a value that are not reserved: a reserved field ignores what is written (R17, R496). -/
def writeMask (key v : Nat) : Nat :=
  if key = K.enginePortConfig then v % 2 ^ 10
  else if key = K.queueConfig ∨ key = K.updatePool then v / 2 ^ 32 * 2 ^ 32
  else if key = K.doorbellBind ∨ key = K.readBind then at' (fld v 15 1) 15 1 + fld v 0 14
  else if key = K.signalSelect ∨ key = K.queueSignalBind then at' (fld v 31 1) 31 1 + fld v 0 18
  else if key = K.partitionWindow then at' (fld v 31 1) 31 1 + fld v 0 26
  else if key = K.spillArea then v / 2 ^ 32 * 2 ^ 32 + fld v 0 13
  else if (retirePort key).isSome then v / 2 ^ 27 * 2 ^ 27
  else if key = K.routeTable then v / 2 ^ 6 * 2 ^ 6
  else if key = K.solderConfig then v / 2 ^ 109 * 2 ^ 109 + at' (fld v 26 70) 26 70
  else if key = K.brassFilter then v / 2 ^ 133 * 2 ^ 133
  else if key = K.alarmMask then ((List.range 128).map fun n => flag (alarmKnown n && bit v n) n).sum
  else v

/-- The object of an INDEX and SUB that COUNTER_CLEAR names (R475, R485). -/
def clearKey (v : Nat) : Nat := fld v 16 16 * 256 + fld v 8 8

/-- Fields of SELFTEST_REQUEST (R445). -/
def Test.kind (v : Nat) : Nat := fld v 16 8
def Test.target (v : Nat) : Nat := fld v 0 16
def Test.force (v : Nat) : Bool := bit v 31

/-- Fields of AUTH_RESPONSE (R463). -/
def Auth.r (v : Nat) : Nat := ofBe (slice (leBytes 128 v) 80 48)
def Auth.s (v : Nat) : Nat := ofBe (slice (leBytes 128 v) 32 48)
def Auth.grant (v : Nat) : Nat := fld v 248 8
def Auth.ports (v : Nat) : Nat := fld v 232 16

/-- The value of AUTH_RESPONSE with a signature, a grant and ports (R463). -/
def authValue (sigR sigS : BitVec 384) (grant ports : Nat) : Nat :=
  at' (firstHigh 48 sigR.toNat) 640 384 + at' (firstHigh 48 sigS.toNat) 256 384 + at' grant 248 8 + at' ports 232 16

/-- The key of LIFECYCLE_PROVISION, first byte highest (R456). -/
def provisionKey (v : Nat) : BitVec 768 := BitVec.ofNat 768 (ofBe (leBytes 96 v))

/-- Fields of a value that its entry bounds beyond the scalar range of the directory (R449). -/
def State.fieldsOk (s : State) (key v : Nat) : Bool :=
  if key = K.enginePortConfig then decide (fld v 0 4 ≤ 0xB)
  else if key = K.enginePortRestore then s.hasEngine v
  else if key = K.queueConfig then decide (6 ≤ fld v 59 5 ∧ fld v 59 5 ≤ 24 ∧ fld v 56 3 ≤ 4)
  else if key = K.queueControl then fld v 30 2 != 0
  else if key = K.signalSelect then !bit v 31 || decide (fld v 0 18 < 4096)
  else if key = K.spillArea then fld v 32 32 % 256 == 0 && decide (fld v 0 13 ≤ 4096)
  else if key = K.stripeGroupSize then [6, 8, 12, 18, 24].contains v && s.build.memoryPorts % v == 0
  else if key = K.memPortPages then s.groupSize != 24 || decide (v ≤ 23343237)
  else if key = K.memPortControl then decide (1 ≤ fld v 12 4 ∧ fld v 12 4 ≤ 3) && s.hasMemory (fld v 0 5)
  else if key = K.unitControl then
    (fld v 14 2 == 1 || fld v 14 2 == 2) && (fld v 0 8 == 0x40 || s.hasEngine (fld v 0 8))
  else if key = K.resetRequest then s.resetRefused (fld v 28 4) (fld v 0 12) != some D.range
  else if key = K.memZeroFill then s.fillRefused v != some D.range
  else if key = K.brassFilter then fld v 134 2 != 3
  else if key = K.selftestRequest then testKnown (Test.kind v) && !s.testRange (Test.kind v) (Test.target v)
  else if key = K.counterClear then ((objDesc (clearKey v)).map fun r => r.cls == 2).getD false
  else if key = K.alarmAck then alarmKnown v
  else if key = K.debugLevel then !s.debugRefused v
  else if key = K.lifecycleProvision then keyValid (provisionKey v)
  else if key = K.authResponse then grantKnown (Auth.grant v)
  else true

/-- A value in the range of its entry (R449): BOOL takes 0 and 1, a step divides the value. -/
def State.inRange (s : State) (r : ObjDesc) (v : Nat) : Bool :=
  decide (r.lo ≤ v ∧ v ≤ r.hi) && v % r.step == 0 && s.fieldsOk r.key v

/-- A partition has an open job (R218). -/
def State.partitionOpen (s : State) (part : Nat) : Bool := s.adm.ctxs.any fun e => e.2.job && e.2.part == part

/-- A unit with a code is stopped (R30). -/
def State.unitIsStopped (s : State) (u : Nat) : Bool := s.stoppedUnits.contains u

/-- Every enabled port of a class is stopped (R30). -/
def State.classStopped (s : State) (cls : Nat) : Bool :=
  s.enginePorts.all fun p => !(s.portEnabled p && Cfg.cls (s.portConfig p) == cls) || s.unitIsStopped p

/-- The spill areas as they stand meet R218: at most 4,096 buffers, each area with buffers inside its partition's
windows and of a stride that holds the largest SCRATCH_BYTES of the partition's enabled ports. -/
def State.areasOk (s : State) : Bool :=
  decide (((List.range 16).map fun p => Area.buffers (s.spillArea p)).sum ≤ 4096)
  && (List.range 16).all fun part =>
    let a := s.spillArea part
    Area.buffers a == 0
    || (s.inWindow part (Area.base a) (Area.stride a * Area.buffers a)
      && s.enginePorts.all fun p =>
        !(s.portEnabled p && Cfg.part (s.portConfig p) == part)
        || decide (s.scratch (Cfg.cls (s.portConfig p)) ≤ Area.stride a))

/-- A window of PARTITION_WINDOW as (BASE, LIMIT) in GiB, where it is VALID. -/
def windowRange (w : Nat) : Option (Nat × Nat) := if bit w 31 then some (fld w 13 13, fld w 0 13) else none

/-- The windows as they stand do not overlap, lie in groups that exist, and do not exceed them (R199). DESIGN CHOICE
(log 129): a valid window whose BASE lies above its LIMIT is refused too. -/
def State.windowsOk (s : State) : Bool :=
  (List.range 4).all fun g =>
    let ws := (List.range 16).filterMap fun p => windowRange (s.window p g)
    (ws.isEmpty || decide (g < s.groups))
    && ws.all (fun w => decide (w.1 ≤ w.2 ∧ w.2 * 2 ^ 30 ≤ s.groupBytes))
    && ws.zipIdx.all fun a => ws.zipIdx.all fun b =>
      a.2 == b.2 || decide (a.1.2 ≤ b.1.1) || decide (b.1.2 ≤ a.1.1) || a.1.1 == a.1.2 || b.1.1 == b.1.2

/-- What a partition uses lies in its windows: its resident images, its enabled queues and its spill area (R199). -/
def State.contained (s : State) (part : Nat) : Bool :=
  (s.loader.images.all fun e => decide (e.2.part ≠ part) || s.inWindow part e.2.addr e.2.bytes)
  && (s.qs.queues.all fun e => !(e.2.enable && e.2.part == part) || s.inWindow part e.2.base (e.2.size * 64))
  && s.areasOk

/-- Every resident image's partition provides the logical engines it names, under the maps that a rebuild would make
(R99). -/
def State.imagesFit (s : State) : Bool :=
  let t := s.rebuildMaps
  s.loader.images.all fun e => (List.range 12).all fun c =>
    decide (ClassEntry.logical (e.2.cls c) ≤ t.provided e.2.part c)

/-- Solder may be armed in this state (R468, R469). -/
def State.solderAllowed (s : State) : Bool :=
  decide (s.power.state ≤ 1)
  && (s.mgmt.debugLevel == 2
    || (s.mgmt.debugLevel == 1 && s.mgmt.lcCount != 0 && bitOf s.mgmt.solderGrant (Solder.port (s.par K.solderConfig))))

/-- Objects written only during Dawn and at L4 (R30, R424, R489). -/
def dawnObject (key : Nat) : Bool :=
  [K.tickSource, K.tickMasterChip, K.stripeGroupSize, K.memPortPages, K.linkIncarnation, K.chipId].contains key
  || (retirePort key).isSome

/-- Objects written only while the Embedding Engine is stopped (R30). -/
def embObject (key : Nat) : Bool :=
  [K.tableDescBase, K.overlayMapBase, K.overlayMapLog2, K.tableDigestBase, K.updatePool].contains key

/-- Writes of the kinds that the replay log holds (R381): deferred parameters, loads and unloads, tables, signal
administration and flushes. REPLAY_CONTROL itself is not logged. -/
def loggedWrite (r : ObjDesc) (v : Nat) : Bool :=
  (r.effect == 1 && r.key != K.replayControl)
  || [K.imageLoadGo, K.tableCommand, K.voxporSwap, K.signalOpen, K.signalClose].contains r.key
  || (r.key == K.queueControl && fld v 30 2 == 3)


/-- What the owning chapters refuse with BUSY (R449 code 0x09); t is the dictionary as the whole write would leave it.
-/
def State.writeBusy (s t : State) (answered : Bool) (key e v : Nat) : Bool :=
  if dawnObject key then s.power.started
  else if embObject key then !s.unitIsStopped 64
  else if key = K.enginePortConfig then !s.unitIsStopped e || !t.imagesFit || !t.areasOk
  else if key = K.yieldBoundNs then !s.classStopped e
  else if key = K.scratchBytes then !s.classStopped e || !t.areasOk
  else if key = K.enginePortRestore then !(s.port v).failed
  else if key = K.imageLoadAddr ∨ key = K.imageLoadSlot ∨ key = K.imageLoadPartition ∨ key = K.imageLoadGo then
    s.loader.op.isSome
  else if key = K.queueConfig ∨ key = K.queueSignalBind then (s.queue e).enable
  else if key = K.queueControl then s.controlRefused (fld v 30 2) (fld v 0 14)
  else if key = K.doorbellBind then t.bindRefused false e v
  else if key = K.readBind then t.bindRefused true e v
  else if key = K.signalOpen then s.openRefused s.selected.1 s.selected.2 (BitVec.ofNat 128 v)
  else if key = K.signalClose then s.closeRefused s.selected.1 s.selected.2
  else if key = K.partitionWindow then s.partitionOpen (e / 4) || !t.windowsOk || !t.contained (e / 4)
  else if key = K.spillArea then s.partitionOpen e || !t.areasOk
  else if key = K.voxporSwap then s.swapRefused v
  else if key = K.memPortControl then
    if fld v 12 4 = 3 then (s.mport (fld v 0 5)).state != .lost || !answered else s.offlineRefused (fld v 0 5)
  else if key = K.routeTable then !s.hasLink (Route.primary v) || !s.hasLink (Route.alternate v)
  else if key = K.linkDateline then
    s.power.started && s.linkPorts.any fun p =>
      bit v p != bit (s.par K.linkDateline) p && (s.lport p).state != .disabled
  else if key = K.solderArm then v == 1 && !(s.solderAllowed && s.solderReady)
  else if key = K.replayControl then decide (s.logUsed ≠ 0)
  else if key = K.replayLogBase ∨ key = K.replayLogLog2 then decide (s.stored K.replayControl ≠ 0)
  else if key = K.logProduced then s.recording
  else if key = K.logConsumed then s.replaying
  else if key = K.resetRequest then s.resetRefused (fld v 28 4) (fld v 0 12) == some D.busy
  else if key = K.memZeroFill then s.fillRefused v == some D.busy
  else if key = K.nightRelease then !s.resets.night
  else if key = K.dumpRequest then s.resets.dump.state == 1
  else if key = K.startGo then s.startRefused
  else if key = K.powerRequest then s.powerBusy
  else if key = K.thermalTripC ∨ key = K.thermalThrottleC then
    decide (t.stored K.thermalTripC ≤ t.stored K.thermalThrottleC)
  else if key = K.selftestRequest then s.testRefused (Test.kind v) (Test.target v) (Test.force v)
  else if key = K.brassQueue ∨ key = K.eventLogQueue then (s.queue v).kind != kindTelemetry
  else if key = K.lifecycleProvision then s.transitionRefused
  else if key = K.fwLoadData ∨ key = K.fwLoadGo then s.fwBusy
  else false

/-- Values of the elements of a WRITE (R448). -/
def DictReq.values (q : DictReq) (r : ObjDesc) : List Nat :=
  (List.range q.count).map fun i => writeMask r.key (ofLe (slice q.value (i * r.bytes) r.bytes))

/-- The dictionary with every element of a WRITE in it, for the checks made before any element changes (R448). -/
def DictReq.stage (q : DictReq) (r : ObjDesc) (s : State) : State :=
  s.each (q.values r).zipIdx fun s v =>
    if r.key = K.enginePortConfig then s.writePortConfig (q.first + v.2) v.1 else s.setValue r.key (q.first + v.2) v.1

/-- GATE (R449): the object's gate excludes the life-cycle state. -/
def State.gateShut (s : State) (r : ObjDesc) : Bool := !bit r.gate s.mgmt.lcCount

/-- Objects gated PROVISIONED and DEPLOYED: S of R467. -/
def ObjDesc.service (r : ObjDesc) : Bool := r.gate == 6

/-- DEBUG (R449): DEBUG_MEM below OPEN and in P2 and P3 (R461), BRASS_ENABLE set where R469 gives no Brass trace, and
objects of service in P3, POWER_REQUEST (R439) and SELFTEST_REQUEST, which R440 refuses with BUSY there, apart. -/
def State.debugShut (s : State) (r : ObjDesc) (q : DictReq) : Bool :=
  (r.debug == 2 && (decide (s.mgmt.debugLevel < 2) || decide (s.power.state ≥ 2)))
  || (r.debug == 1 && q.opcode == 2 && decide (ofLe q.value ≠ 0)
    && (s.mgmt.debugLevel == 0 || decide (s.power.state ≥ 2)))
  || (r.service && s.power.state == 3 && r.key != K.powerRequest && r.key != K.selftestRequest)

/-- LENGTH (R448, R449). -/
def lengthBad (r : ObjDesc) (q : DictReq) : Bool :=
  let n := q.count * r.bytes
  decide (n > (if q.mctp then 1024 else 4096))
  || if q.opcode = 1 then decide (q.length ≠ 0) else decide (q.length ≠ n ∨ q.value.length ≠ n)

/-- RANGE (R449): an element beyond the array, or a value out of its range. -/
def State.rangeBad (s : State) (r : ObjDesc) (q : DictReq) : Bool :=
  q.count == 0 || decide (q.first + q.count > r.elements)
  || (q.opcode == 2 && (q.values r).any fun v => !s.inRange r v)

/-- BUSY (R449): while the Management Controller restarts (R394, R470), a READ of AUTH_CHALLENGE in LOCKED (R464), a
WRITE of service in P2 (R467), a write of a logged kind in REPLAY or without room in the log (R382, R386), and what
the owning chapters refuse. -/
def State.busy (s : State) (answered : Bool) (r : ObjDesc) (q : DictReq) : Bool :=
  s.mgmt.fwState == 5
  || (q.opcode == 1 && r.key == K.authChallenge && s.authLocked)
  || (q.opcode == 2
    && ((r.service && s.power.state == 2 && r.key != K.powerRequest)
      || ((q.values r).any (loggedWrite r) && (s.replaying || !s.logRoomFor q.count))
      || (q.values r).zipIdx.any fun v => s.writeBusy (q.stage r s) answered r.key (q.first + v.2) v.1))

/-- The first check of R449 that fails, 0 where none does. A READ through the window of an object served over MCTP only
is answered with zeros (R450). -/
def State.dictCheck (s : State) (answered : Bool) (q : DictReq) : Nat :=
  if q.opcode ≠ 1 ∧ q.opcode ≠ 2 then D.opcode
  else
    match objDesc q.key with
    | none => D.noObject
    | some r =>
      if q.opcode = 2 ∧ ((List.range q.count).any fun i => s.absentElement r.key (q.first + i)) then D.noObject
      else if r.mctpOnly ∧ !q.mctp ∧ q.opcode = 2 then D.transport
      else if r.mctpOnly ∧ !q.mctp then
        if lengthBad r q then D.length else if s.rangeBad r q then D.range
        else if s.mgmt.fwState = 5 then D.busy else D.ok
      else if s.gateShut r then D.gate
      else if s.debugShut r q then D.debug
      else if (q.opcode = 1 ∧ r.access = 2) ∨ (q.opcode = 2 ∧ r.access = 0) then D.access
      else if lengthBad r q then D.length
      else if s.rangeBad r q then D.range
      else if s.busy answered r q then D.busy
      else D.ok

/-- The body of a PARAM entry: the value, and the element's number in the top 16 bits of the last word (R381). -/
def paramBody (bytes e v : Nat) : List Block :=
  let n := ceilDiv bytes 64
  (List.range n).map fun i => BitVec.ofNat 512 (fld v (512 * i) 512 + (if i + 1 = n then at' e 496 16 else 0))

/-- A value is written that takes effect at the next boundary (R28); in RECORD the write is logged (R381). -/
def State.deferWrite (s : State) (r : ObjDesc) (e v : Nat) : State :=
  let s := s.storeValue r.key e v
  let s := { s with dict := { s.dict with deferred := s.dict.deferred ++ [(dictKey r.key e, v)] } }
  if r.key = K.replayControl then { s with replay := { s.replay with wanted := some v } }
  else s.logInput s.nextTick L.param 0 0 (at' (r.key / 256) 360 16 + at' r.key 352 8) (paramBody r.bytes e v)

/-- SIGNAL_OPEN or SIGNAL_CLOSE of the selection, logged in RECORD (R162, R381). -/
def State.signalAdmin (s : State) (close : Bool) (v : BitVec 128) : State :=
  let (bar, n) := s.selected
  let s := s.logInput s.nextTick L.signalAdmin 0 0 (at' n 358 18 + flag bar 357 + at' (if close then 2 else 1) 355 2)
    (if close then [] else [BitVec.ofNat 512 v.toNat])
  if close then s.closeSignal bar n else s.openSignal bar n v

/-- TABLE_COMMAND for the table of TABLE_SELECT; an accepted open or close is logged in RECORD (R224, R381). -/
def State.tableCommand (s : State) (v : Nat) : State :=
  let n := s.par K.tableSelect
  let before := (s.table n).state
  let s := if v = 1 then s.openCheck n else s.closeCheck n
  if (s.table n).state = before then s
  else
    let epoch := if v = 2 then (s.table n).epoch.toNat else 0
    s.logInput s.nextTick L.table 0 0 (at' n 364 12 + at' v 360 4 + at' epoch 328 32) []

/-- ENGINE_PORT_RESTORE: the port rejoins as a spare once EP_READY rises (R98); the reset of a stopped one stays
asserted (R30). -/
def State.restorePort (s : State) (p : Nat) : State :=
  let c := s.stored K.enginePortConfig p
  let s := s.setValue K.enginePortConfig p (if bit c 9 then c else c + 2 ^ 9)
  (s.modPort p fun e => { e with failed := false }).returnPort p

/-- START_BARRIER_GO: the master sends START on its broadcast ports (R355, R356). -/
def startRecord (v : Nat) : BitVec 128 :=
  BitVec.ofNat 128 (at' (fld v 64 64) 64 64 + at' (fld v 32 32) 32 32 + at' 1 28 4 + flag (bit v 31) 27 + at' (fld v 19 12) 15 12)

/-- A MGMT record leaves on every broadcast port but one (R355). -/
def State.broadcast (s : State) (except_ : Option Nat) (rec' : BitVec 128) : State :=
  s.each (s.linkPorts.filter fun p => bit (s.par K.linkBcastPorts) p && except_ != some p) fun s p => s.sendMgmt p rec'

/-- A LINKED chip acts on a START addressed to it, TIME updated on arrival, while its tick is unstarted (R356). -/
def State.actOnStart (s : State) (r : BitVec 128) (time : Int) : State :=
  if s.par K.tickSource ≠ 2 ∨ s.tick.running ∨ !(bitOf r 27 || bits r 15 12 == s.chipId) then s
  else if time ≤ 0 then s.bump K.startMissed
  else { s with tick := { s.tick with startArmed := some (BitVec.ofNat 64 (bits r 64 64), time) } }

/-- Time left to this chip's next boundary, in 1/16 hc (R26, R127). -/
def State.toBoundary (s : State) : Int :=
  16 * (s.hcOfUs (s.par K.tickPeriodUs) : Int) + s.tick.frameLen - 16 * (s.clk.hc : Int)

/-- The START that a write of START_BARRIER_GO sends: TICK and lead time of the write, or, for one chip that rejoins
while the master's tick runs, the master's own next boundary (R356; log 102). -/
def State.startOf (s : State) (v : Nat) : BitVec 128 :=
  let r := startRecord v
  if s.tick.running ∧ !bitOf r 27 then
    setBits (setBits r 64 64 (s.tick.number + 1).toNat) 32 32 (Nat.min (2 ^ 32 - 1) s.toBoundary.toNat)
  else r

/-- A write of START_BARRIER_GO to the master sends START on the broadcast tree, whose root is the master itself (R355,
R356). -/
def State.startBarrier (s : State) (v : Nat) : State :=
  if s.par K.tickMasterChip ≠ s.chipId then s
  else (s.broadcast none (s.startOf v)).actOnStart (s.startOf v) (bits (s.startOf v) 32 32)

/-- RNG_PROBE_IN: RNG_PROBE_OUT takes the draw (R372). -/
def State.probe (s : State) (v : Nat) : State :=
  let d := gisarDraw (fld v 192 64) (fld v 108 20) (fld v 160 32) (fld v 128 32)
  { s with replay := { s.replay with probeOut := BitVec.ofNat 64 d } }

/-- COUNTER_CLEAR: every element of an event counter is zero, with what its accumulators hold (R475). -/
def State.clearCounter (s : State) (key : Nat) : State :=
  let mine (e : Nat × Nat) : Bool := e.1 / 2 ^ 20 == key
  { s with dict := { s.dict with
      counters := s.dict.counters.filter fun e => !mine e
      acc := s.dict.acc.filter fun e => !mine e } }

/-- ALARM_ACK clears PENDING, unless HELD is set (R483). -/
def State.ackAlarm (s : State) (code : Nat) : State := s.modLatch code fun l => { l with pending := l.held && l.pending }

/-- DUMP_ACK frees the dump SRAM of a dump that is held (R417, R420). -/
def State.freeDump (s : State) : State :=
  if s.resets.dump.state = 2 then { s with resets := { s.resets with dump := {} } } else s

/-- Accepted writes that act at once and keep no value: reset, power, start, security and telemetry (R28). -/
def State.commandWrite (s : State) (key v : Nat) : Option State :=
  if key = K.lifecycleProvision then some (s.provision (provisionKey v))
  else if key = K.debugLevel then some (s.writeDebug v)
  else if key = K.authResponse then some (s.authRespond (Auth.r v) (Auth.s v) (Auth.grant v) (Auth.ports v))
  else if key = K.fwLoadData then some (s.fwLoad (leBytes 1024 v))
  else if key = K.fwLoadGo then some s.fwGo
  else if key = K.debugMemData then some (s.debugWrite (BitVec.ofNat 512 v))
  else if key = K.unitControl then some (s.unitControl (fld v 14 2 == 1) (fld v 0 8))
  else if key = K.rngProbeIn then some (s.probe v)
  else if key = K.mcHeartbeat then some s.heartbeat
  else if key = K.resetRequest then some (s.resetRequest (fld v 28 4) (fld v 0 12))
  else if key = K.nightRelease then some s.releaseNight
  else if key = K.memZeroFill then some (s.startFill v)
  else if key = K.dumpRequest then some (s.takeDump 0 0)
  else if key = K.dumpAck then some s.freeDump
  else if key = K.startGo then some s.startPorts
  else if key = K.powerRequest then some (s.powerRequest v)
  else if key = K.counterClear then some (s.clearCounter (clearKey v))
  else if key = K.alarmAck then some (s.ackAlarm v)
  else if key = K.selftestRequest then some (s.startTest (Test.kind v) (Test.target v))
  else none

/-- Accepted writes that act at once and keep no value: dispatch, images, queues, signals, tables, memory and links. -/
def State.serviceWrite (s : State) (key v : Nat) : Option State :=
  if key = K.enginePortRestore then some (s.restorePort v)
  else if key = K.imageLoadGo then some (if v = 1 then s.startLoad else s.unload)
  else if key = K.queueControl then some (s.queueControl (fld v 30 2) (fld v 0 14))
  else if key = K.signalOpen then some (s.signalAdmin false (BitVec.ofNat 128 v))
  else if key = K.signalClose then some (s.signalAdmin true 0)
  else if key = K.tableCommand then some (s.tableCommand v)
  else if key = K.voxporSwap then some (s.startSwap v)
  else if key = K.memPortControl then
    some (if fld v 12 4 = 3 then s.enterRebuild (fld v 0 5) true
      else (s.softOffline (fld v 0 5) (fld v 12 4 == 2)))
  else if key = K.startBarrierGo then some (s.startBarrier v)
  else if key = K.solderArm then some (s.armSolder (v == 1))
  else if key = K.logProduced then some ({ s with replay := { s.replay with produced := BitVec.ofNat 32 v } }.loadLog)
  else if key = K.logConsumed then some ({ s with replay := { s.replay with consumed := BitVec.ofNat 32 v } }.logFlow)
  else none

/-- What follows the writing of a value that acts at once and is kept. -/
def State.keptWrite (s : State) (key e v : Nat) : State :=
  if key = K.queueConfig then s.queueConfig e v
  else if key = K.doorbellBind then s.bindEffect false e
  else if key = K.readBind then s.bindEffect true e
  else if key = K.linkEnable then s.applyLinkEnable v
  else if key = K.linkLanes then s.announceLanes e
  else if key = K.linkIncarnation then { s with links := { s.links with incarnation := BitVec.ofNat 2 v } }
  else
    match retirePort key with
    | some p => s.modMport p fun x => { x with retire := Sparse.set x.retire 0 e v }
    | none => s

/-- A value that acts at once is kept, where the object keeps one. -/
def State.storeElem (s : State) (key e v : Nat) : State :=
  if (retirePort key).isSome then s
  else if key = K.enginePortConfig then s.writePortConfig e v
  else s.setValue key e v

/-- One element of an accepted WRITE (R28). -/
def State.writeElem (s : State) (r : ObjDesc) (e v : Nat) : State :=
  if r.effect = 1 then s.deferWrite r e v
  else
    match s.commandWrite r.key v, s.serviceWrite r.key v with
    | some t, _ => t
    | none, some t => t
    | none, none => (s.storeElem r.key e v).keptWrite r.key e v

/-- A SELFTEST_REQUEST refused with BUSY is counted; BUSY leaves no other trace (R23, R440; log 54). -/
def State.refusedReport (s : State) (q : DictReq) : State :=
  if q.opcode = 2 ∧ q.key = K.selftestRequest then s.bump K.selftestsRefused else s

/-- The dictionary serves a request, whole (R446 to R450): RESULT and the value bytes are kept, and counted. -/
def State.dictServe (s : State) (q : DictReq) (answered : Bool := false) : State :=
  let code := s.dictCheck answered q
  let s := s.bump K.dictRequests
  let (s, out) := if code ≠ D.ok then
      (if code = D.busy then s.refusedReport q else s, [])
    else
      match objDesc q.key with
      | none => (s, [])
      | some r =>
        if q.opcode = 1 then
          if r.mctpOnly ∧ !q.mctp then (s, List.replicate (q.count * r.bytes) 0) else s.dictValue r q.first q.count
        else (s.each (q.values r).zipIdx fun s v => s.writeElem r (q.first + v.2) v.1, [])
  let s := if code = D.ok then s else s.bump K.dictRefused
  { s with dict := { s.dict with lastResult := code, lastValue := out } }

/-- A WRITE of one element with its value, as a command names it. -/
def writeReq (key e v : Nat) : DictReq :=
  let bytes := ((objDesc key).map (·.bytes)).getD 0
  { mctp := true, opcode := 2, key := key, first := e, count := 1, length := bytes, value := leBytes bytes v }

/-- Serves the WRITE of one element. -/
def State.writeObject (s : State) (key e v : Nat) : State := s.dictServe (writeReq key e v)

/-- A READ of a whole object of one element. -/
def readReq (key : Nat) : DictReq := { mctp := true, opcode := 1, key := key, first := 0, count := 1, length := 0, value := [] }

end Sys2Proof.Machine
end

