-- ==== Sys2Proof/Machine/Requests.lean ====
section
/-! DEFINITION. Dictionary requests on their transports, and the single order in which they are served (R446, R447, R451 to
R455). -/
namespace Sys2Proof.Machine

/-- The packets of a message: transport headers and pieces of 64 bytes (R452). -/
def mctpPackets (src dst tag : Nat) (bytes : List Byte) : List (List Byte) :=
  let pieces := Machine.chunks 64 bytes
  pieces.zipIdx.map fun x =>
    let flags := flag (x.2 == 0) 7 + flag (x.2 + 1 == pieces.length) 6 + at' x.2 4 2 + at' tag 0 3
    [BitVec.ofNat 8 1, BitVec.ofNat 8 dst, BitVec.ofNat 8 src, BitVec.ofNat 8 flags] ++ x.1

/-- A step of the CRC-8 of DSP0233's packet error code. -/
def pecStep (c : Nat) (b : Byte) : Nat :=
  (List.range 8).foldl (fun c _ => if c ≥ 128 then ((c * 2) ^^^ 0x107) % 256 else c * 2) (c ^^^ b.toNat)

/-- The packet error code over the read address and the packet (R451). -/
def pec (addr : Nat) (bytes : List Byte) : Byte :=
  BitVec.ofNat 8 (bytes.foldl pecStep (pecStep 0 (BitVec.ofNat 8 (addr * 2 + 1))))

/-- A message waits for private reads as packets (R451, R452). -/
def State.mctpSend (s : State) (dst tag : Nat) (bytes : List Byte) : State :=
  let ps := (mctpPackets s.mgmt.eid dst tag bytes).map fun p => p ++ [pec s.mgmt.dynAddr p]
  s.modMgmt fun m => { m with packets := m.packets ++ ps }

/-- The bytes of a response: type, enterprise number, Nymeran header, value (R447, R452). -/
def nymeranMessage (header : BitVec 128) (value : List Byte) : List Byte :=
  BitVec.ofNat 8 0x7F :: beBytes 4 Config.vendorIana.toNat ++ leBytes 16 header.toNat ++ value

/-- The request that a Nymeran header and its value bytes make (R447). -/
def requestOf (mctp : Bool) (h : BitVec 128) (value : List Byte) : DictReq :=
  { mctp := mctp, opcode := bits h 120 8, key := bits h 96 16 * 256 + bits h 88 8, first := bits h 72 16
    count := bits h 56 16, length := bits h 40 16, value := value }

/-- The Nymeran header of an assembled message. -/
def Msg.header (m : Msg) : BitVec 128 := BitVec.ofNat 128 (ofLe (slice m.bytes 5 16))

/-- The value bytes of an assembled message. -/
def Msg.value (m : Msg) : List Byte := m.bytes.drop 21

/-- A waiting request that reads alarm latches (R453). -/
def readsAlarms (h : BitVec 128) : Bool := bits h 120 8 == 1 && bits h 96 16 * 256 + bits h 88 8 == K.alarmLatch

/-- The dictionary serves the window's request, and the window shows its response (R454, R455). -/
def State.serveWindow (s : State) : State :=
  let h := s.win.request
  let n := if bits h 120 8 = 2 then Nat.min 4096 (bits h 40 16) else 0
  let value := (List.range n).map fun i => BitVec.ofNat 8 (Sparse.get s.win.reqValue 0 i)
  let s := s.dictServe (requestOf false h value)
  let out := s.dict.lastValue
  let code := s.dict.lastResult
  s.modWin fun w => { w with
    response := responseHeader h code out.length, rspValue := out, doneSeq := bits h 112 8, done := true
    inProgress := false, ahead := 0 }

/-- The dictionary serves a waiting MCTP request, and its response goes to the requester (R447, R452). -/
def State.serveMctp (s : State) (i : Nat) (m : Msg) : State :=
  let s := s.modMgmt fun x => { x with waiting := x.waiting.eraseIdx i }
  let s := s.modWin fun w => { w with ahead := if i < w.ahead then w.ahead - 1 else w.ahead }
  let s := s.dictServe (requestOf true m.header m.value)
  let out := s.dict.lastValue
  let code := s.dict.lastResult
  s.mctpSend m.eid m.tag (nymeranMessage (responseHeader m.header code out.length) out)

/-- The waiting requests in their order of arrival: none stands for the window's, else the place among MCTP's (R446). -/
def State.waitingRequests (s : State) : List (Option Nat × BitVec 128) :=
  let ms := s.mgmt.waiting.zipIdx.map fun x => (some x.2, x.1.header)
  if s.win.inProgress then ms.take s.win.ahead ++ [(none, s.win.request)] ++ ms.drop s.win.ahead else ms

/-- The dictionary serves its next request: the first waiting READ of alarm latches, else the first that arrived
(R446, R453). -/
def dictRequestCompleteEff (s : State) : State :=
  let l := s.waitingRequests
  match (l.find? fun x => readsAlarms x.2).or l.head? with
  | none => s
  | some (none, _) => s.serveWindow
  | some (some i, _) =>
    match s.mgmt.waiting[i]? with
    | some m => s.serveMctp i m
    | none => s

/-- The requests that arrived before a command are served before it: at most 4 of MCTP and the window's (R446; log
52). -/
def State.serveWaiting (s : State) : State := s.each (List.range 5) fun s _ => dictRequestCompleteEff s

/-- The WRITE request that DICT_WRITE carries. -/
def dictWriteReq (mctp : Bool) (index sub first count : Nat) (value : List Byte) : DictReq :=
  { mctp := mctp, opcode := 2, key := index * 256 + sub % 256, first := first, count := count, length := value.length, value := value }

/-- DICT_WRITE (R28, R446 to R449), served after the requests that wait; whether a controller answers the test read of
a RESTORE is a free value (R323). -/
def execDictWrite (mctp : Bool) (index sub first count : Nat) (value : List (BitVec 8)) (s : State) :
    Host.Outcome State Fault Refusal :=
  runMgmt (fun s =>
    let (n, s) := s.serveWaiting.fresh
    s.dictServe (dictWriteReq mctp index sub first count value) (Config.restoreAnswered n)) s

end Sys2Proof.Machine
end

