-- ==== Sys2Proof/Machine/DictRows.lean ====
section
/-! DEFINITION. The commands that are writes, or a read, of one named dictionary object: each is served by the dictionary
whole, with the checks of R449. -/
namespace Sys2Proof.Machine

/-- A command that writes one element of an object, served after the requests that wait (R446). -/
def runWrite (key e v : Nat) (s : State) : Host.Outcome State Fault Refusal :=
  runMgmt (fun s => s.serveWaiting.writeObject key e v) s

/-- UNIT_STOP (R30). -/
def execUnitStop (code : Nat) (s : State) : Host.Outcome State Fault Refusal :=
  runWrite K.unitControl 0 (at' 1 14 2 + at' code 0 8) s

/-- UNIT_START (R30). -/
def execUnitStart (code : Nat) (s : State) : Host.Outcome State Fault Refusal :=
  runWrite K.unitControl 0 (at' 2 14 2 + at' code 0 8) s

/-- IMAGE_LOAD (R60, R61). -/
def execImageLoad (s : State) : Host.Outcome State Fault Refusal := runWrite K.imageLoadGo 0 1 s

/-- IMAGE_UNLOAD (R60, R61). -/
def execImageUnload (s : State) : Host.Outcome State Fault Refusal := runWrite K.imageLoadGo 0 2 s

/-- ENGINE_PORT_RESTORE (R98). -/
def execEnginePortRestore (p : Nat) (s : State) : Host.Outcome State Fault Refusal := runWrite K.enginePortRestore 0 p s

/-- ENGINE_PORT_CONFIG_WRITE (R99). -/
def execEnginePortConfigWrite (p : Nat) (v : BitVec 16) (s : State) : Host.Outcome State Fault Refusal :=
  runWrite K.enginePortConfig p v.toNat s

/-- APERTURE_BIND (R132). -/
def execApertureBind (read : Bool) (a : Nat) (v : BitVec 16) (s : State) : Host.Outcome State Fault Refusal :=
  runWrite (if read then K.readBind else K.doorbellBind) a v.toNat s

/-- QUEUE_ENABLE (R159). -/
def execQueueEnable (n : Nat) (s : State) : Host.Outcome State Fault Refusal :=
  runWrite K.queueControl 0 (at' 1 30 2 + at' n 0 14) s

/-- QUEUE_DISABLE (R159). -/
def execQueueDisable (n : Nat) (s : State) : Host.Outcome State Fault Refusal :=
  runWrite K.queueControl 0 (at' 2 30 2 + at' n 0 14) s

/-- QUEUE_FLUSH (R143). -/
def execQueueFlush (n : Nat) (s : State) : Host.Outcome State Fault Refusal :=
  runWrite K.queueControl 0 (at' 3 30 2 + at' n 0 14) s

/-- QUEUE_CONFIG_WRITE (R159). -/
def execQueueConfigWrite (n : Nat) (v : BitVec 128) (s : State) : Host.Outcome State Fault Refusal :=
  runWrite K.queueConfig n v.toNat s

/-- SIGNAL_OPEN (R162). -/
def execSignalOpen (v : BitVec 128) (s : State) : Host.Outcome State Fault Refusal := runWrite K.signalOpen 0 v.toNat s

/-- SIGNAL_CLOSE (R162). -/
def execSignalClose (s : State) : Host.Outcome State Fault Refusal := runWrite K.signalClose 0 1 s

/-- TABLE_OPEN (R224). -/
def execTableOpen (s : State) : Host.Outcome State Fault Refusal := runWrite K.tableCommand 0 1 s

/-- TABLE_CLOSE (R224). -/
def execTableClose (s : State) : Host.Outcome State Fault Refusal := runWrite K.tableCommand 0 2 s

/-- VOXPOR_SWAP (R268). -/
def execVoxporSwap (tn : Nat) (s : State) : Host.Outcome State Fault Refusal := runWrite K.voxporSwap 0 tn s

/-- OFFLINE_RETRAIN (R319). -/
def execOfflineRetrain (p : Nat) (s : State) : Host.Outcome State Fault Refusal :=
  runWrite K.memPortControl 0 (at' 1 12 4 + at' p 0 5) s

/-- OFFLINE_REPLACE (R319). -/
def execOfflineReplace (p : Nat) (s : State) : Host.Outcome State Fault Refusal :=
  runWrite K.memPortControl 0 (at' 2 12 4 + at' p 0 5) s

/-- RESTORE, with whether the controller answers the test read in time (R323). -/
def execRestore (p : Nat) (answered : Bool) (s : State) : Host.Outcome State Fault Refusal :=
  runMgmt (fun s => s.serveWaiting.dictServe (writeReq K.memPortControl 0 (at' 3 12 4 + at' p 0 5)) answered) s

/-- LINK_ENABLE_WRITE (R352). -/
def execLinkEnableWrite (v : BitVec 16) (s : State) : Host.Outcome State Fault Refusal := runWrite K.linkEnable 0 v.toNat s

/-- START_BARRIER_GO (R356). -/
def execStartBarrierGo (v : BitVec 128) (s : State) : Host.Outcome State Fault Refusal :=
  runWrite K.startBarrierGo 0 v.toNat s

/-- SOLDER_ARM (R360). -/
def execSolderArm (v : Nat) (s : State) : Host.Outcome State Fault Refusal := runWrite K.solderArm 0 v s

/-- RNG_PROBE_IN (R372). -/
def execRngProbeIn (v : BitVec 256) (s : State) : Host.Outcome State Fault Refusal := runWrite K.rngProbeIn 0 v.toNat s

/-- REPLAY_CONTROL_WRITE (R379). -/
def execReplayControlWrite (v : Nat) (s : State) : Host.Outcome State Fault Refusal := runWrite K.replayControl 0 v s

/-- LOG_CONSUMED_WRITE (R379). -/
def execLogConsumedWrite (v : BitVec 32) (s : State) : Host.Outcome State Fault Refusal :=
  runWrite K.logConsumed 0 v.toNat s

/-- MC_HEARTBEAT (R394). -/
def execMcHeartbeat (v : BitVec 8) (s : State) : Host.Outcome State Fault Refusal := runWrite K.mcHeartbeat 0 v.toNat s

/-- RESET_REQUEST_L0 (R402). -/
def execResetRequestL0 (c : Nat) (s : State) : Host.Outcome State Fault Refusal := runWrite K.resetRequest 0 (at' c 0 12) s

/-- RESET_REQUEST_L1 (R396). -/
def execResetRequestL1 (p : Nat) (s : State) : Host.Outcome State Fault Refusal :=
  runWrite K.resetRequest 0 (at' 1 28 4 + at' p 0 12) s

/-- RESET_REQUEST_L2 (R397). -/
def execResetRequestL2 (part : Nat) (s : State) : Host.Outcome State Fault Refusal :=
  runWrite K.resetRequest 0 (at' 2 28 4 + at' part 0 12) s

/-- RESET_REQUEST_L3 (R397). -/
def execResetRequestL3 (s : State) : Host.Outcome State Fault Refusal := runWrite K.resetRequest 0 (at' 3 28 4) s

/-- RESET_REQUEST_L4 (R397). -/
def execResetRequestL4 (s : State) : Host.Outcome State Fault Refusal := runWrite K.resetRequest 0 (at' 4 28 4) s

/-- RESET_REQUEST_L5 (R397). -/
def execResetRequestL5 (s : State) : Host.Outcome State Fault Refusal := runWrite K.resetRequest 0 (at' 5 28 4) s

/-- NIGHT_RELEASE (R412). -/
def execNightRelease (s : State) : Host.Outcome State Fault Refusal := runWrite K.nightRelease 0 1 s

/-- DUMP_REQUEST (R417). -/
def execDumpRequest (s : State) : Host.Outcome State Fault Refusal := runWrite K.dumpRequest 0 1 s

/-- DUMP_ACK (R420). -/
def execDumpAck (s : State) : Host.Outcome State Fault Refusal := runWrite K.dumpAck 0 1 s

/-- MEM_ZERO_FILL (R405). -/
def execMemZeroFill (v : BitVec 128) (s : State) : Host.Outcome State Fault Refusal := runWrite K.memZeroFill 0 v.toNat s

/-- START_GO (R424). -/
def execStartGo (s : State) : Host.Outcome State Fault Refusal := runWrite K.startGo 0 1 s

/-- POWER_REQUEST_P0 (R437). -/
def execPowerRequestP0 (s : State) : Host.Outcome State Fault Refusal := runWrite K.powerRequest 0 0 s

/-- POWER_REQUEST_P1 (R437). -/
def execPowerRequestP1 (s : State) : Host.Outcome State Fault Refusal := runWrite K.powerRequest 0 1 s

/-- POWER_REQUEST_P2 (R438). -/
def execPowerRequestP2 (s : State) : Host.Outcome State Fault Refusal := runWrite K.powerRequest 0 2 s

/-- POWER_REQUEST_P3 (R439). -/
def execPowerRequestP3 (s : State) : Host.Outcome State Fault Refusal := runWrite K.powerRequest 0 3 s

/-- The value of SELFTEST_REQUEST (R445). -/
def testRequest (kind target : Nat) (force : Bool) : Nat := flag force 31 + at' kind 16 8 + at' target 0 16

/-- SRAM_BIST (R441). -/
def execSramBist (target : BitVec 16) (s : State) : Host.Outcome State Fault Refusal :=
  runWrite K.selftestRequest 0 (testRequest T.sramBist target.toNat false) s

/-- LANE_CAL (R442). -/
def execLaneCal (target : BitVec 16) (s : State) : Host.Outcome State Fault Refusal :=
  runWrite K.selftestRequest 0 (testRequest T.laneCal target.toNat false) s

/-- MEM_RETRAIN (R440). -/
def execMemRetrain (target : BitVec 16) (s : State) : Host.Outcome State Fault Refusal :=
  runWrite K.selftestRequest 0 (testRequest T.memRetrain target.toNat false) s

/-- MEM_MARCH (R443). -/
def execMemMarch (target : BitVec 16) (force : Bool) (s : State) : Host.Outcome State Fault Refusal :=
  runWrite K.selftestRequest 0 (testRequest T.memMarch target.toNat force) s

/-- LINK_LOOPBACK (R440). -/
def execLinkLoopback (target : BitVec 16) (force : Bool) (s : State) : Host.Outcome State Fault Refusal :=
  runWrite K.selftestRequest 0 (testRequest T.linkLoopback target.toNat force) s

/-- LOGIC_BIST (R443). -/
def execLogicBist (target : BitVec 16) (force : Bool) (s : State) : Host.Outcome State Fault Refusal :=
  runWrite K.selftestRequest 0 (testRequest T.logicBist target.toNat force) s

/-- DEBUG_LEVEL_WRITE (R459). -/
def execDebugLevelWrite (v : Nat) (s : State) : Host.Outcome State Fault Refusal := runWrite K.debugLevel 0 v s

/-- AUTH_CHALLENGE: a READ over MCTP (R462). -/
def execAuthChallenge (s : State) : Host.Outcome State Fault Refusal :=
  runMgmt (fun s => s.serveWaiting.dictServe (readReq K.authChallenge)) s

/-- A WRITE of AUTH_RESPONSE with a grant (R463). -/
def runGrant (sigR sigS : BitVec 384) (grant ports : Nat) (s : State) : Host.Outcome State Fault Refusal :=
  runWrite K.authResponse 0 (authValue sigR sigS grant ports) s

/-- GRANT_OBSERVE (R464). -/
def execGrantObserve (sigR sigS : BitVec 384) (s : State) : Host.Outcome State Fault Refusal := runGrant sigR sigS G.observe 0 s

/-- GRANT_OPEN (R464). -/
def execGrantOpen (sigR sigS : BitVec 384) (s : State) : Host.Outcome State Fault Refusal := runGrant sigR sigS G.open_ 0 s

/-- GRANT_SOLDER (R464). -/
def execGrantSolder (sigR sigS : BitVec 384) (ports : BitVec 16) (s : State) : Host.Outcome State Fault Refusal :=
  runGrant sigR sigS G.solder ports.toNat s

/-- GRANT_DEPLOY (R458). -/
def execGrantDeploy (sigR sigS : BitVec 384) (s : State) : Host.Outcome State Fault Refusal := runGrant sigR sigS G.deploy 0 s

/-- GRANT_RETURN (R458). -/
def execGrantReturn (sigR sigS : BitVec 384) (s : State) : Host.Outcome State Fault Refusal := runGrant sigR sigS G.return_ 0 s

/-- LIFECYCLE_PROVISION (R457). -/
def execLifecycleProvision (key : BitVec 768) (s : State) : Host.Outcome State Fault Refusal :=
  runWrite K.lifecycleProvision 0 (firstHigh 96 key.toNat) s

/-- FW_LOAD_DATA (R466). -/
def execFwLoadData (value : List (BitVec 8)) (s : State) : Host.Outcome State Fault Refusal :=
  runMgmt (fun s =>
    s.serveWaiting.dictServe { writeReq K.fwLoadData 0 0 with length := value.length, value := value }) s

/-- FW_LOAD_GO (R466). -/
def execFwLoadGo (s : State) : Host.Outcome State Fault Refusal := runWrite K.fwLoadGo 0 1 s

/-- DEBUG_MEM_READ (R461). -/
def execDebugMemRead (s : State) : Host.Outcome State Fault Refusal :=
  runMgmt (fun s => s.serveWaiting.dictServe (readReq K.debugMemData)) s

/-- DEBUG_MEM_WRITE (R461). -/
def execDebugMemWrite (data : BitVec 512) (s : State) : Host.Outcome State Fault Refusal :=
  runWrite K.debugMemData 0 data.toNat s

/-- COUNTER_CLEAR (R475). -/
def execCounterClear (v : BitVec 32) (s : State) : Host.Outcome State Fault Refusal := runWrite K.counterClear 0 v.toNat s

/-- A non-zero accumulator forwards its sum (R474). -/
def counterForwardEff (key e : Nat) (s : State) : State :=
  if ((objDesc key).map fun r => r.cls == 2 && decide (e < r.elements)).getD false then s.forwardSum (dictKey key e) else s

/-- COUNTER_SUM_FORWARD (R474). -/
def execCounterSumForward (key e : Nat) (s : State) : Host.Outcome State Fault Refusal := runMgmt (counterForwardEff key e) s

/-- ALARM_ACK (R483). -/
def execAlarmAck (code : Nat) (s : State) : Host.Outcome State Fault Refusal := runWrite K.alarmAck 0 code s

/-- ALARM_MASK_WRITE (R483). -/
def execAlarmMaskWrite (v : BitVec 128) (s : State) : Host.Outcome State Fault Refusal := runWrite K.alarmMask 0 v.toNat s

end Sys2Proof.Machine
end

