-- ==== Sys2Proof/Machine/Mgmt.lean ====
section
/-! DEFINITION. The management transports: the MCTP endpoint and the I3C target (R451 to R455). The numbers of MCTP and I3C messages are those of DSP0236 and MIPI I3C (log 19). -/
namespace Sys2Proof.Machine

/-- The longest MCTP message assembled (R452). -/
def mctpLongest : Nat := 1045

/-- An MCTP packet, or message, is discarded and counted (R452). -/
def State.mctpDiscard (s : State) : State :=
  (s.modMgmt fun m => { m with assembling := none }).bump K.mctpPacketsDiscarded

/-- Control messages of the endpoint (R452): command, request data; the answer starts with a completion code. -/
def State.controlAnswer (s : State) (cmd : Nat) (data : List Byte) : State × List Byte :=
  let ok : List Byte := [BitVec.ofNat 8 0]
  if cmd = 1 then
    let eid := ((data[1]?).getD 0).toNat
    if eid = 0 ∨ eid = 255 then (s, [BitVec.ofNat 8 2])
    else (s.modMgmt fun m => { m with eid := eid }, ok ++ [BitVec.ofNat 8 0, BitVec.ofNat 8 eid, BitVec.ofNat 8 0])
  else if cmd = 2 then (s, ok ++ [BitVec.ofNat 8 s.mgmt.eid, BitVec.ofNat 8 0, BitVec.ofNat 8 0])
  else if cmd = 4 then (s, ok ++ Config.mctpVersions)
  else if cmd = 5 then (s, ok ++ [BitVec.ofNat 8 1, BitVec.ofNat 8 0x7F])
  else if cmd = 6 then (s, ok ++ [BitVec.ofNat 8 0xFF, BitVec.ofNat 8 1] ++ beBytes 4 Config.vendorIana.toNat ++ Config.mctpVendorSets)
  else (s, [BitVec.ofNat 8 5])

/-- An MCTP control message is answered (R452). -/
def State.controlMessage (s : State) (m : Msg) : State :=
  let (s, body) := s.controlAnswer (((m.bytes[2]?).getD 0).toNat) (m.bytes.drop 3)
  let inst := ((m.bytes[1]?).getD 0).toNat % 32
  s.mctpSend m.eid m.tag ([BitVec.ofNat 8 0, BitVec.ofNat 8 inst, (m.bytes[2]?).getD 0] ++ body)

/-- The MCLK cycle of a time: 200 MHz (R446). -/
def mclkCycle (units : Nat) : Nat := units / 360360

/-- An assembled Nymeran message waits, ahead of a window request of the same MCLK cycle (R446; log 52), or is
answered with BUSY where 4 wait already (R452). -/
def State.nymeranRequest (s : State) (m : Msg) : State :=
  if s.mgmt.waiting.length < 4 then
    let s := s.modMgmt fun x => { x with waiting := x.waiting ++ [m] }
    if s.win.inProgress ∧ mclkCycle s.win.goAt = mclkCycle s.clk.units then
      s.modWin fun w => { w with ahead := s.mgmt.waiting.length }
    else s
  else s.mctpSend m.eid m.tag (nymeranMessage (responseHeader m.header D.busy 0) [])

/-- A whole message (R452). -/
def State.mctpMessage (s : State) (m : Msg) : State :=
  let type := ((m.bytes[0]?).getD 0).toNat
  if type = 0x7F ∧ ofBe (slice m.bytes 1 4) = Config.vendorIana.toNat ∧ m.bytes.length ≥ 21 then s.nymeranRequest m
  else if type = 0 ∧ m.bytes.length ≥ 3 then s.controlMessage m
  else s.mctpDiscard

/-- A packet joins the message being assembled (R452). -/
def State.mctpJoin (s : State) (m : Msg) (eom : Bool) : State :=
  if m.bytes.length > mctpLongest then s.mctpDiscard
  else if eom then (s.modMgmt fun x => { x with assembling := none }).mctpMessage m
  else s.modMgmt fun x => { x with assembling := some m }

/-- A packet as the target receives it (R451, R452): one with a bad code, for another endpoint, without TO or out of
sequence is discarded. -/
def State.mctpPacket (s : State) (p : MctpPacket) : State :=
  if !p.pecOk then s.bump K.mctpPacketsDiscarded
  else if (p.dst ≠ s.mgmt.eid ∧ p.dst ≠ 0) ∨ !p.tagOwner ∨ p.payload.length > 64 then s.bump K.mctpPacketsDiscarded
  else if p.som then
    let s := if s.mgmt.assembling.isSome then s.mctpDiscard else s
    s.mctpJoin { eid := p.src, tag := p.tag, seq := (p.seq + 1) % 4, bytes := p.payload } p.eom
  else
    match s.mgmt.assembling with
    | none => s.bump K.mctpPacketsDiscarded
    | some m =>
      if m.eid ≠ p.src ∨ m.tag ≠ p.tag then s.bump K.mctpPacketsDiscarded
      else if m.seq ≠ p.seq then s.mctpDiscard
      else s.mctpJoin { m with seq := (p.seq + 1) % 4, bytes := m.bytes ++ p.payload } p.eom

/-- MCTP_MESSAGE: the packets of a message arrive (R452). -/
def mctpMessageEff (packets : List MctpPacket) (s : State) : State := s.each packets State.mctpPacket

/-- MCTP_MESSAGE (R452). -/
def execMctpMessage (packets : List MctpPacket) (s : State) : Host.Outcome State Fault Refusal :=
  runMgmt (mctpMessageEff packets) s

/-- No packet for 100 ms while a message is being assembled (R452). -/
def mctpAssemblyTimeoutEff (s : State) : State := if s.mgmt.assembling.isSome then s.mctpDiscard else s

/-- MCTP_ASSEMBLY_TIMEOUT (R452). -/
def execMctpAssemblyTimeout (s : State) : Host.Outcome State Fault Refusal := runMgmt mctpAssemblyTimeoutEff s

/-- A control command and its answer on the I3C target. -/
def endpointEff (cmd : Nat) (data : List Byte) (s : State) : State :=
  let (s, body) := s.controlAnswer cmd data
  s.emit (.i3cData body)

/-- SET_ENDPOINT_ID (R452). -/
def execSetEndpointId (eid : Nat) (s : State) : Host.Outcome State Fault Refusal :=
  runMgmt (endpointEff 1 [BitVec.ofNat 8 0, BitVec.ofNat 8 eid]) s

/-- GET_ENDPOINT_ID (R452). -/
def execGetEndpointId (s : State) : Host.Outcome State Fault Refusal := runMgmt (endpointEff 2 []) s

/-- GET_MCTP_VERSION_SUPPORT (R452). -/
def execGetMctpVersionSupport (s : State) : Host.Outcome State Fault Refusal := runMgmt (endpointEff 4 []) s

/-- GET_MESSAGE_TYPE_SUPPORT (R452). -/
def execGetMessageTypeSupport (s : State) : Host.Outcome State Fault Refusal := runMgmt (endpointEff 5 []) s

/-- GET_VENDOR_DEFINED_MESSAGE_SUPPORT (R452). -/
def execGetVendorDefinedMessageSupport (s : State) : Host.Outcome State Fault Refusal := runMgmt (endpointEff 6 []) s

/-- The target acknowledges, and a value of its own changes. -/
def ackWith (f : Mgmt → Mgmt) (s : State) : State := (s.modMgmt f).emit .i3cAck

/-- ENTDAA: the target takes a dynamic address, if it has none (R451). -/
def entdaaEff (addr : Nat) (s : State) : State :=
  if s.mgmt.dynAddr = 0 then ackWith (fun m => { m with dynAddr := addr }) s else s.emit .i3cNack

/-- ENTDAA (R451). -/
def execEntdaa (addr : Nat) (s : State) : Host.Outcome State Fault Refusal := runMgmt (entdaaEff addr) s

/-- SETDASA: the dynamic address of the target with a static address, when it is not zero (R451). -/
def setdasaEff (staticAddr addr : Nat) (s : State) : State :=
  if Config.i3cStaticAddr ≠ 0 ∧ staticAddr = Config.i3cStaticAddr ∧ s.mgmt.dynAddr = 0 then
    ackWith (fun m => { m with dynAddr := addr }) s
  else s.emit .i3cNack

/-- SETDASA (R451). -/
def execSetdasa (staticAddr addr : Nat) (s : State) : Host.Outcome State Fault Refusal :=
  runMgmt (setdasaEff staticAddr addr) s

/-- RSTDAA (R451). -/
def execRstdaa (s : State) : Host.Outcome State Fault Refusal := runMgmt (ackWith fun m => { m with dynAddr := 0 }) s

/-- GETPID (R451). -/
def execGetpid (s : State) : Host.Outcome State Fault Refusal :=
  runMgmt (fun s => s.emit (.i3cData (beBytes 6 Config.i3cPid.toNat))) s

/-- GETBCR (R451). -/
def execGetbcr (s : State) : Host.Outcome State Fault Refusal := runMgmt (fun s => s.emit (.i3cData [Config.i3cBcr])) s

/-- GETDCR (R451). -/
def execGetdcr (s : State) : Host.Outcome State Fault Refusal := runMgmt (fun s => s.emit (.i3cData [Config.i3cDcr])) s

/-- GETSTATUS answers a status that R451 does not give. -/
def getstatusEff (s : State) : State :=
  let (n, s) := s.fresh
  s.emit (.i3cData (beBytes 2 (Config.i3cStatus n).toNat))

/-- GETSTATUS (R451). -/
def execGetstatus (s : State) : Host.Outcome State Fault Refusal := runMgmt getstatusEff s

/-- GETMWL (R451). -/
def execGetmwl (s : State) : Host.Outcome State Fault Refusal :=
  runMgmt (fun s => s.emit (.i3cData (beBytes 2 s.mgmt.mwl))) s

/-- GETMRL (R451). -/
def execGetmrl (s : State) : Host.Outcome State Fault Refusal :=
  runMgmt (fun s => s.emit (.i3cData (beBytes 2 s.mgmt.mrl))) s

/-- SETMWL (R451). -/
def execSetmwl (n : BitVec 16) (s : State) : Host.Outcome State Fault Refusal :=
  runMgmt (ackWith fun m => { m with mwl := n.toNat }) s

/-- SETMRL (R451). -/
def execSetmrl (n : BitVec 16) (s : State) : Host.Outcome State Fault Refusal :=
  runMgmt (ackWith fun m => { m with mrl := n.toNat }) s

/-- ENEC is accepted and has no effect (R451). -/
def execEnec (_events : BitVec 8) (s : State) : Host.Outcome State Fault Refusal := runMgmt (ackWith id) s

/-- DISEC: the target raises no In-Band Interrupt, so there is none to disable (R451). -/
def execDisec (_events : BitVec 8) (s : State) : Host.Outcome State Fault Refusal := runMgmt (ackWith id) s

/-- A private read takes the next packet, or is NACKed (R451). -/
def privateReadEff (s : State) : State :=
  match s.mgmt.packets with
  | [] => s.emit .i3cNack
  | p :: rest => (s.modMgmt fun m => { m with packets := rest }).emit (.i3cData p)

/-- I3C_PRIVATE_READ (R451). -/
def execI3cPrivateRead (s : State) : Host.Outcome State Fault Refusal := runMgmt privateReadEff s

/-- DICT_REQUEST_COMPLETE (R446, R455). -/
def execDictRequestComplete (s : State) : Host.Outcome State Fault Refusal := runMgmt dictRequestCompleteEff s

end Sys2Proof.Machine
end

