-- ==== Sys2Proof/Machine/Boundary.lean ====
section
/-! DEFINITION. The tick unit: its sources, the start barrier and the tick marks (R100 to R104, R127, R355, R356, R425),
the fixed phases of a boundary (R105 to R110, R124), and the replay log's part in one (R379 to R388). -/
namespace Sys2Proof.Machine

/-- A change of the tick unit. -/
def State.modTick (s : State) (f : TickUnit → TickUnit) : State := { s with tick := f s.tick }


/-- Whether a table is open (R224). -/
def Table.isOpen (t : Table) : Bool := t.state == 2 || t.state == 3

/-- The newest digest record of a table (R271). -/
def Table.newestRecord (t : Table) : Block := ((t.records.find? fun r => r.epoch == t.epoch).map DigestRec.word).getD 0

/-- The body of a START entry: SHA-256 over IMAGE_SLOT_DIGEST and the newest digest record of each open table (R381). -/
def State.startBody (s : State) : Nat :=
  let images := (List.range 256).flatMap fun i => leBytes 32 (((s.image i).map fun x => x.digest.toNat).getD 0)
  let tables := (s.tableNumbers.filter fun n => (s.table n).isOpen).flatMap fun n => leBytes 64 (s.table n).newestRecord.toNat
  sha256Nat (images ++ tables)

/-- In REPLAY the START entry is compared with the chip's own state before any input is applied (R385). Where it comes
only after the boundary at which REPLAY took effect, that boundary's CHECKPOINT has nothing to be compared with (log
106). -/
def State.startCheck (s : State) : State :=
  if s.replay.started then s
  else
    match s.dueEntry fun e => e.kind == L.start with
    | none => (s.replay.due.head?.map s.diverge).getD s
    | some e =>
      if e.arg 344 32 = s.par K.chipCount ∧ e.body = [digestWord s.startBody] then
        let past (x : LogEntry) : Bool :=
          !s.replay.inPhases && x.kind == L.checkpoint && decide (x.tick ≤ s.tick.number.toNat)
        (s.reproduced e).modReplay fun r => { r with started := true, due := r.due.filter fun x => !past x }
      else s.diverge e

/-- The CHECKPOINT of the coming boundary is among the entries due. -/
def State.checkpointDue (s : State) : Bool := s.replay.due.any fun e => e.kind == L.checkpoint && e.tick == s.nextTick.toNat

/-- The replay hold: the coming boundary waits for the entries of the current tick and for its own CHECKPOINT; so does
the boundary at which REPLAY is to follow OFF (R386; log 106). -/
def State.replayHolds (s : State) : Bool :=
  if s.replay.mode = 0 ∧ s.replay.wanted = some 2 then !(State.logTake s.nextTick s.logUsed s).checkpointDue
  else s.following && (!s.replay.started || s.replay.due.any (fun e => decide (e.tick ≤ s.tick.number.toNat)) || !s.checkpointDue)

/-- A PARAM entry: the logged value is written, for the coming boundary (R28, R386). -/
def State.replayParam (s : State) (e : LogEntry) : State :=
  match objDesc (e.arg 352 24) with
  | none => s.diverge e
  | some r =>
    let v := ofLe ((e.body.flatMap fun w => leBytes 64 w.toNat).take r.bytes)
    let n := if r.array then ((e.body.getLast?).map fun w => bits w 496 16).getD 0 else 0
    let s := s.storeValue r.key n v
    ({ s with dict := { s.dict with deferred := s.dict.deferred ++ [(dictKey r.key n, v)] } }).reproduced e

/-- A TABLE entry of an open or a close (R224, R386). -/
def State.replayTable (s : State) (e : LogEntry) : State :=
  let n := e.arg 364 12
  let t := if e.arg 360 4 = 1 then s.openCheck n else s.closeCheck n
  if (t.table n).state = (s.table n).state then s.diverge e else t.reproduced e

/-- A SIGNAL_ADMIN entry (R162, R386). -/
def State.replayAdmin (s : State) (e : LogEntry) : State :=
  let n := e.arg 358 18
  let bar := e.arg 357 1 == 1
  let v : BitVec 128 := (e.body.getD 0 0).setWidth 128
  if e.arg 355 2 = 1 then if s.openRefused bar n v then s.diverge e else (s.openSignal bar n v).reproduced e
  else if s.closeRefused bar n then s.diverge e
  else (s.closeSignal bar n).reproduced e

/-- A FLUSH entry: a REQUEST or FLOW queue is flushed in phase 1, another at once (R143, R386). -/
def State.replayFlush (s : State) (e : LogEntry) : State := (s.queueControl 3 (e.arg 362 14)).reproduced e

/-- A FAULT entry: the teardown is reproduced, and from here on what it names is not compared (R381, R388). An L0 or
L2 entry, which was logged as the context's generation advanced, is reproduced once it has advanced here (log 123). -/
def State.replayFault (s : State) (e : LogEntry) : State :=
  let level := e.arg 368 8
  let s := s.skipFrom level e.ctx
  if level ≥ 3 then (s.reproduced e).startL3
  else if (s.ctx e.ctx).gen.toNat ≠ e.gen then s.reproduced e
  else if level = 2 then s.startL2 (s.ctx e.ctx).part
  else s.startL0 e.ctx (e.arg 360 8)

/-- An input of the log that is applied just before the boundary of its tick, or at it (R386). -/
def State.applyLogged (s : State) (e : LogEntry) : State :=
  let k := e.kind
  if !s.following then s
  else if k = L.record ∨ k = L.hostData then
    let (st, t) := s.offerTo (e.arg 362 14) (e.body.getD 0 0) false
    if st = .ok then t.reproduced e else s.diverge e
  else if k = L.param then s.replayParam e
  else if k = L.image then s.replayImage e
  else if k = L.table ∧ e.arg 360 4 ≠ 3 then s.replayTable e
  else if k = L.signalAdmin then s.replayAdmin e
  else if k = L.hostSignal then (s.localCommand { cmd := BitVec.ofNat 64 (e.arg 312 64), src := .hostDma }).reproduced e
  else if k = L.flush then s.replayFlush e
  else if k = L.fault then s.replayFault e
  else s

/-- A FAULT entry of the coming boundary whose teardown goes on (R388; log 123). -/
def State.faultWaits (s : State) (e : LogEntry) : Bool :=
  s.following && e.kind == L.fault && decide (e.tick ≤ s.nextTick.toNat) && s.replay.due.contains e

/-- The inputs of the coming boundary, in the order in which the recording applied them (R386); those behind a FAULT
entry wait until it has been reproduced (log 123). -/
def State.applyLog (s : State) : State :=
  if s.following then
    ((s.replay.due.filter fun e => decide (e.tick ≤ s.nextTick.toNat)).foldl (fun (acc : State × Bool) e =>
      if acc.2 then acc else (acc.1.applyLogged e, (acc.1.applyLogged e).faultWaits e)) (s, false)).1
  else s

/-- In phase 1 a change of REPLAY_CONTROL takes effect: RECORD logs its START entry, REPLAY compares it (R379, R381,
R385). A write of the mode in force is no change. -/
def State.replayMode (s : State) : State :=
  match s.replay.wanted with
  | none => s
  | some m =>
    if m = s.replay.mode then s.modReplay fun r => { r with wanted := none }
    else
    let status := if m = 2 then 1 else if s.replay.status = 2 then 2 else if s.replaying then 3 else 0
    let s := s.modReplay fun r => { r with
      mode := m, wanted := none, started := false, sum := 0, releasedInFrame := 0, skipCtx := [], skipFrame := false
      skipSum := 0, skipCount := 0, loggedCount := 0, loggedSkip := 0, due := [], backlog := [], status := status
      acceptPos := 0 }
    let s := s.modTick fun t => { t with admitHold := false }
    if m = 1 then
      let body := [digestWord s.startBody]
      (s.logInput s.tick.number L.start 0 0 (at' (s.par K.chipCount) 344 32) body).modReplay fun r => { r with started := true }
    else if m = 2 then s.loadLog.startCheck
    else s

/-- A logged Voxpor commit: the swap, which no write of VOXPOR_SWAP can have begun, is begun, scanned and committed
(R268, R386). -/
def State.replayCommit (s : State) (e : LogEntry) : State :=
  let tn := e.arg 364 12
  if (s.table tn).swap.isNone ∧ s.swapRefused tn then s.diverge e
  else
    match s.scanInactive tn with
    | (_, none) => s.diverge e
    | (t, some d) =>
      let t := t.commitSwap tn d
      if (t.table tn).epoch.toNat = e.arg 328 32 then (t.syncTable tn).reproduced e else s.diverge e

/-- The Voxpor commits due in a replay. -/
def State.replayCommits (s : State) : State :=
  if s.following then
    s.each (s.replay.due.filter fun e => e.kind == L.table && e.arg 360 4 == 3 && decide (e.tick ≤ s.tick.number.toNat))
      State.replayCommit
  else s

/-- Updates of a replay whose logged stamp has come are published in phase 1 (R254, R386). -/
def State.replayUpdates (s : State) : State :=
  if s.following then s.each (s.emb.updates.filter fun u => decide (u.stage ≥ 2)) State.publishReplay else s

/-- Parameter writes that waited for the boundary take effect, in the order in which they were made (R28, R106). -/
def State.takeDeferred (s : State) : State :=
  let l := s.dict.deferred
  if l.isEmpty then s
  else
    let s := { s with dict := { s.dict with deferred := [] } }
    (s.each l fun s w => s.forceValue (w.1 / 2 ^ 20) (w.1 % 2 ^ 20) w.2).announceAll

/-- Starts of stopped units take effect; with an engine port among them the logical maps are rebuilt (R30, R99). -/
def State.startUnits (s : State) : State :=
  let engines := s.disp.unitStart.any fun u => decide (u < 64)
  if engines then s.unitTurn.rebuildMaps else s.unitTurn

/-- Brass recording starts and stops at boundaries (R460, R476). -/
def State.brassTurn (s : State) : State :=
  let on := decide (s.par K.brassEnable = 1) && decide (s.mgmt.debugLevel ≥ 1) && decide (s.power.state ≤ 1)
  { s with tele := { s.tele with brassOn := on } }

/-- A step admitted at an earlier boundary that is not complete has overrun: it is counted once and its results carry
LATE (R124). -/
def State.markOverruns (s : State) : State :=
  s.each (s.loader.instances.filter fun i => !i.late && decide (i.done < i.count)) fun s i =>
    let l := modWhere (fun x : Instance => x.id == i.id) (fun x => { x with late := true }) s.loader.instances
    (({ s with loader := { s.loader with instances := l } }).bump K.stepsLate).modHold i.hold fun h => { h with late := true }

/-- RESULT entries of results that comparison skips and that the replay has not released are taken (R388). -/
def State.takeSkipped (s : State) : State :=
  let gone (e : LogEntry) : Bool :=
    e.kind == L.result && decide (e.tick ≤ s.tick.number.toNat) && s.skipsResults e.ctx
  s.each (s.replay.due.filter gone) State.resultTaken

/-- A CHECKPOINT agrees with the replay's own sum (R387), what comparison skips left out on both sides (R388): the
recording's part of it is known from RESULT entries only; without them a frame with such a result cannot be compared
(log 106). -/
def State.sumAgrees (s : State) (e : LogEntry) : Bool :=
  let r := s.replay
  let body := bits (e.body.getD 0 0) 0 256
  if r.skipFrame then true
  else if r.loggedCount = e.arg 344 32 then (body + r.skipSum) % 2 ^ 256 == (r.sum + r.loggedSkip) % 2 ^ 256
  else if !r.skipCtx.isEmpty && (decide (r.skipCount > 0) || e.arg 344 32 != r.releasedInFrame) then true
  else body == r.sum

/-- The CHECKPOINT that closes a boundary's entries (R381, R384, R387). -/
def State.checkpoint (s : State) : State :=
  let s := s.logInput s.tick.number L.checkpoint 0 0 (at' s.replay.releasedInFrame 344 32) [digestWord s.replay.sum]
  let s := if !s.following then s
    else
      let s := s.takeSkipped
      match s.dueEntry fun e => e.kind == L.checkpoint && e.tick == s.tick.number.toNat with
      | none => s
      | some e => if s.sumAgrees e then s.reproduced e else s.diverge e
  s.modReplay fun r => { r with
    sum := 0, releasedInFrame := 0, skipFrame := false, skipSum := 0, skipCount := 0, loggedCount := 0, loggedSkip := 0 }

/-- TICK_NUMBER is incremented and a frame opens (R103, R104, R127). -/
def State.openFrame (s : State) : State :=
  let follower := decide (s.par K.tickSource = 2) && decide (s.par K.tickMasterChip ≠ s.chipId)
  let s := s.modTick fun t => { t with
    number := t.number + 1, tickOut := true, frameLen := t.correction, correction := 0, frameOpen := true
    exchangePointDone := false, admitHold := t.admitHold || (s.replaying && s.replay.status == 2) }
  let s := { s with clk := { s.clk with hc := 0 }
                    links := { s.links with noMarkTicks := s.links.noMarkTicks + (if follower then 1 else 0) } }
  s.modReplay fun r => { r with acceptPos := 0, held := false }

/-- Phase 1: deferred writes, starts, power, tests, Noon, queue controls and staged table updates take effect, and
what hc 0 decides is decided (R28, R106, R123, R124, R426, R438, R443). -/
def State.phase1 (s : State) : State :=
  let s := s.takeDeferred.replayMode.startUnits
  let s := s.powerTurn.testTurn.noonTurn.brassTurn
  let s := s.queuePhase1
  let s := s.each s.tableNumbers State.tablePhase1
  let s := s.replayCommits.replayUpdates
  s.markOverruns.sampleDeadlines

/-- At the boundary the tick master of a LINKED ring sends its tick mark (R127, R355). -/
def State.sendMark (s : State) : State :=
  if s.par K.tickSource = 2 ∧ s.par K.tickMasterChip = s.chipId then
    s.broadcast none (BitVec.ofNat 128 (at' s.tick.number.toNat 64 64))
  else s

/-- A context whose increment waited for the next tick (R404). -/
def State.waitedTeardowns (s : State) : State :=
  s.each (s.resets.l0s.filter fun x => x.waitTick && !x.complete) State.l0Step4

/-- The phases of a boundary in their fixed order (R106); in P2 only the tick, its mark and the power request go on
(R127, R438). -/
def State.phases (s : State) : State :=
  let s := (s.openFrame.modReplay fun r => { r with inPhases := true }).waitedTeardowns
  let at0 := s
  let out (s : State) : State := s.sendMark.modReplay fun r => { r with inPhases := false }
  if s.power.state = 2 then out s.powerTurn
  else
    let s := s.phase1
    let s := if s.power.state ≥ 2 then s else
      (((s.phase2.phase3).alignPhase at0).tablesPhase5).creditSteps.embUpkeep.checkpoint
    out s

/-- A boundary (R106); in REPLAY it is held, or takes the inputs of the log first (R386). In P3 the management plane's
tick alone goes on, and Brass recording stops there (R24, R439, R476). -/
def State.boundary (s : State) : State :=
  if s.power.state = 3 then s.brassBoundary.openFrame.brassTurn
  else
    let s := if s.following then s.loadLog.startCheck else s
    let t := s.applyLog
    if s.replayHolds then s.modReplay fun r => { r with held := true }
    else if t.replay.due.any t.faultWaits then t.modReplay fun r => { r with held := true }
    else
      let s := t.brassBoundary.phases
      { s with shadow := s.shadowed }

/-- The divider produces the boundaries: the tick is running, and TICK_IN does not (R100, R102). -/
def State.dividerRuns (s : State) : Bool :=
  s.tick.running && (decide (s.par K.tickSource ≠ 1) || s.tick.holdover)

/-- The divider's boundary (R101, R106). -/
def tickBoundaryEff (s : State) : State := if s.dividerRuns then s.boundary else s

/-- TICK_BOUNDARY (R106). -/
def execTickBoundary (s : State) : Host.Outcome State Fault Refusal := runMgmt tickBoundaryEff s

/-- A rising edge of TICK_IN (R102): one that comes less than 16 µs, 1,600 REFCLK cycles, after the latest boundary is
ignored. -/
def tickInEdgeEff (since : Nat) (s : State) : State :=
  if s.par K.tickSource ≠ 1 ∨ (!s.power.started && s.power.state != 3) then s
  else if s.tick.frameOpen ∧ since < 1600 then s.bump K.tickInEarly
  else (s.modTick fun t => { t with holdover := false, running := true }).boundary

/-- TICK_IN_EDGE (R102). -/
def execTickInEdge (since : Nat) (s : State) : Host.Outcome State Fault Refusal := runMgmt (tickInEdgeEff since) s

/-- No edge has come for twice the period: holdover begins with a boundary (R102). -/
def tickInHoldoverEff (s : State) : State :=
  if s.par K.tickSource = 1 ∧ s.tick.running ∧ !s.tick.holdover then
    ((s.raise A.tickLost).modTick fun t => { t with holdover := true }).boundary
  else s

/-- TICK_IN_HOLDOVER (R102). -/
def execTickInHoldover (s : State) : Host.Outcome State Fault Refusal := runMgmt tickInHoldoverEff s

/-- TICK_OUT_PULSE_END: 8 REFCLK cycles after its rise TICK_OUT falls (R103). -/
def execTickOutPulseEnd (s : State) : Host.Outcome State Fault Refusal :=
  runMgmt (fun s => s.modTick fun t => { t with tickOut := false }) s

/-- TIME of a MGMT record with a new value; a time that 32 bits cannot hold stops at the nearest one they can. -/
def withTime (r : BitVec 128) (time : Int) : BitVec 128 :=
  setBits r 32 32 (Nat.min (2 ^ 32 - 1) time.toNat)

/-- A MGMT record of a port's partner is served in its turn (R339, R354). -/
def State.serveMgmt (s : State) (p : Nat) (r : BitVec 128) (f : State → State) : State :=
  s.serveRecord { port := some p, src := (s.lport p).partner, vc := 3, family := Fam.mgmt, slots := [r] } (takes f)

/-- A fresh residence time in 1/16 hc (R355). -/
def State.residence (s : State) : Int × State :=
  let (k, s) := s.fresh
  ((Config.residence k).toNat, s)

/-- The offset of a tick mark from the follower's own boundary, positive where its own came first (R127). -/
def State.markOffset (s : State) (time : Int) : Int := 16 * (s.clk.hc : Int) - time

/-- Whether an offset, in 1/16 hc, exceeds TICK_SKEW_LIMIT_NS (R127). -/
def State.offsetLarge (s : State) (off : Int) : Bool :=
  decide (off.natAbs * 10 > s.par K.tickSkewLimitNs * (8 + s.convLevel) * 16)

/-- A LINKED follower hears a tick mark (R127). -/
def State.hearMark (s : State) (tick : Nat) (time : Int) : State :=
  if s.par K.tickSource ≠ 2 ∨ !s.tick.running ∨ s.par K.tickMasterChip = s.chipId then s
  else
    let off := s.markOffset time
    let most : Int := (s.hcOfUs (s.par K.tickPeriodUs) * 16 / 256 : Nat)
    let cut := if off > most then most else if off < -most then -most else off
    let s := if s.offsetLarge off ∨ tick ≠ s.tick.number.toNat then s.raise A.tickSkew else s
    let s := s.modTick fun t => { t with correction := cut, freeRun := false }
    { s with links := { s.links with noMarkTicks := 0 } }

/-- A tick mark arrives: it is compensated for the link, forwarded, and heard (R127, R355). -/
def tickMarkEff (p : Nat) (r : BitVec 128) (s : State) : State :=
  let time : Int := (bits r 32 32 + (s.lport p).delay : Nat)
  s.serveMgmt p r fun s =>
    let (stay, s) := s.residence
    (s.broadcast (some p) (withTime r (time + stay))).hearMark (bits r 64 64) time

/-- TICK_MARK (R127, R355). -/
def execTickMark (p : Nat) (record : BitVec 128) (s : State) : Host.Outcome State Fault Refusal :=
  runPort (s.hasLink p) (tickMarkEff p record) s

/-- Marks have been missing for 4 ticks: the follower runs free (R127). -/
def tickMarksMissingEff (s : State) : State :=
  if s.par K.tickSource = 2 ∧ s.tick.running ∧ s.links.noMarkTicks ≥ 4 ∧ !s.tick.freeRun then
    (s.raise A.tickLost).modTick fun t => { t with freeRun := true }
  else s

/-- TICK_MARKS_MISSING (R127). -/
def execTickMarksMissing (s : State) : Host.Outcome State Fault Refusal := runMgmt tickMarksMissingEff s

/-- A START arrives: it is compensated for the link, forwarded, and acted on (R355, R356). -/
def startEff (p : Nat) (r : BitVec 128) (s : State) : State :=
  let time : Int := (bits r 32 32 : Int) - (s.lport p).delay
  s.serveMgmt p r fun s =>
    let (stay, s) := s.residence
    (s.broadcast (some p) (withTime r (time - stay))).actOnStart r time

/-- START (R355, R356). -/
def execStart (p : Nat) (record : BitVec 128) (s : State) : Host.Outcome State Fault Refusal :=
  runPort (s.hasLink p) (startEff p record) s

/-- The TIME of a START that was acted on has elapsed: boundary TICK is produced and the divider runs (R356). -/
def startTimeElapsedEff (s : State) : State :=
  match s.tick.startArmed with
  | none => s
  | some (t, _) =>
    (s.modTick fun x => { x with number := t - 1, running := true, startArmed := none }).boundary

/-- START_TIME_ELAPSED (R356). -/
def execStartTimeElapsed (s : State) : Host.Outcome State Fault Refusal := runMgmt startTimeElapsedEff s

/-- Morning begins: in DIVIDER mode with boundary 1, else once the tick is running, in LINKED mode with a boundary too
(R425; log 117). -/
def morningBeginEff (s : State) : State :=
  if !s.morningMayBegin then s
  else
    let m := s.modPower fun x => { x with stage := 1 }
    if s.par K.tickSource = 0 then (m.modTick fun t => { t with running := true }).boundary
    else if s.tick.running then if s.par K.tickSource = 2 then m.boundary else m
    else s

/-- MORNING_BEGIN (R425). -/
def execMorningBegin (s : State) : Host.Outcome State Fault Refusal := runCore morningBeginEff s

end Sys2Proof.Machine
end

