-- ==== Sys2Proof/Machine/Dispatch.lean ====
section
/-! DEFINITION. The effect of a command on everything but the queue of commands: one arm per row of the table, each a
direct call of that command's meaning. -/
namespace Sys2Proof.Machine

/-- The effect of a command. -/
def exec (i : Instr) (s : State) : Host.Outcome State Fault Refusal :=
  match i with
  | .dictWrite mctp index sub first count value => Sys2Proof.Machine.execDictWrite mctp index sub first count value s
  | .mctpMessage packets => Sys2Proof.Machine.execMctpMessage packets s
  | .mctpAssemblyTimeout => Sys2Proof.Machine.execMctpAssemblyTimeout s
  | .setEndpointId eid => Sys2Proof.Machine.execSetEndpointId eid s
  | .getEndpointId => Sys2Proof.Machine.execGetEndpointId s
  | .getMctpVersionSupport => Sys2Proof.Machine.execGetMctpVersionSupport s
  | .getMessageTypeSupport => Sys2Proof.Machine.execGetMessageTypeSupport s
  | .getVendorDefinedMessageSupport => Sys2Proof.Machine.execGetVendorDefinedMessageSupport s
  | .entdaa addr => Sys2Proof.Machine.execEntdaa addr s
  | .setdasa staticAddr addr => Sys2Proof.Machine.execSetdasa staticAddr addr s
  | .rstdaa => Sys2Proof.Machine.execRstdaa s
  | .getpid => Sys2Proof.Machine.execGetpid s
  | .getbcr => Sys2Proof.Machine.execGetbcr s
  | .getdcr => Sys2Proof.Machine.execGetdcr s
  | .getstatus => Sys2Proof.Machine.execGetstatus s
  | .getmwl => Sys2Proof.Machine.execGetmwl s
  | .getmrl => Sys2Proof.Machine.execGetmrl s
  | .setmwl length => Sys2Proof.Machine.execSetmwl length s
  | .setmrl length => Sys2Proof.Machine.execSetmrl length s
  | .enec events => Sys2Proof.Machine.execEnec events s
  | .disec events => Sys2Proof.Machine.execDisec events s
  | .i3cPrivateRead => Sys2Proof.Machine.execI3cPrivateRead s
  | .windowGo => Sys2Proof.Machine.execWindowGo s
  | .dictRequestComplete => Sys2Proof.Machine.execDictRequestComplete s
  | .unitStop code => Sys2Proof.Machine.execUnitStop code s
  | .unitStart code => Sys2Proof.Machine.execUnitStart code s
  | .unitStopEffect code => Sys2Proof.Machine.execUnitStopEffect code s
  | .tickBoundary => Sys2Proof.Machine.execTickBoundary s
  | .tickInEdge since => Sys2Proof.Machine.execTickInEdge since s
  | .tickInHoldover => Sys2Proof.Machine.execTickInHoldover s
  | .tickMark port record => Sys2Proof.Machine.execTickMark port record s
  | .tickMarksMissing => Sys2Proof.Machine.execTickMarksMissing s
  | .deadlineExpiry => Sys2Proof.Machine.execDeadlineExpiry s
  | .delayedReleaseExpiry => Sys2Proof.Machine.execDelayedReleaseExpiry s
  | .imageLoad => Sys2Proof.Machine.execImageLoad s
  | .imageUnload => Sys2Proof.Machine.execImageUnload s
  | .imageLoadComplete => Sys2Proof.Machine.execImageLoadComplete s
  | .step aperture record => Sys2Proof.Machine.execStep aperture record s
  | .jobOpen aperture record => Sys2Proof.Machine.execJobOpen aperture record s
  | .jobClose aperture record => Sys2Proof.Machine.execJobClose aperture record s
  | .jobCloseEffect ctx => Sys2Proof.Machine.execJobCloseEffect ctx s
  | .join aperture record => Sys2Proof.Machine.execJoin aperture record s
  | .leave aperture record => Sys2Proof.Machine.execLeave aperture record s
  | .doorbellDataWord aperture word => Sys2Proof.Machine.execDoorbellDataWord aperture word s
  | .windowReserve => Sys2Proof.Machine.execWindowReserve s
  | .templateInstantiate inst => Sys2Proof.Machine.execTemplateInstantiate inst s
  | .tokenMatch bank => Sys2Proof.Machine.execTokenMatch bank s
  | .holdLift slot => Sys2Proof.Machine.execHoldLift slot s
  | .nullTaskResolve slot => Sys2Proof.Machine.execNullTaskResolve slot s
  | .taskSkip slot => Sys2Proof.Machine.execTaskSkip slot s
  | .dispatch dispatcher => Sys2Proof.Machine.execDispatch dispatcher s
  | .tokenForm => Sys2Proof.Machine.execTokenForm s
  | .completionRecord port record => Sys2Proof.Machine.execCompletionRecord port record s
  | .writeFenceClear port => Sys2Proof.Machine.execWriteFenceClear port s
  | .yieldRecord port record => Sys2Proof.Machine.execYieldRecord port record s
  | .yieldBoundExpiry port => Sys2Proof.Machine.execYieldBoundExpiry port s
  | .enginePortRestore port => Sys2Proof.Machine.execEnginePortRestore port s
  | .enginePortConfigWrite port value => Sys2Proof.Machine.execEnginePortConfigWrite port value s
  | .epReadyRise port => Sys2Proof.Machine.execEpReadyRise port s
  | .epReadyFall port => Sys2Proof.Machine.execEpReadyFall port s
  | .readApertureRead aperture => Sys2Proof.Machine.execReadApertureRead aperture s
  | .apertureBind read aperture value => Sys2Proof.Machine.execApertureBind read aperture value s
  | .queueEnable queue => Sys2Proof.Machine.execQueueEnable queue s
  | .queueDisable queue => Sys2Proof.Machine.execQueueDisable queue s
  | .queueFlush queue => Sys2Proof.Machine.execQueueFlush queue s
  | .queueFlushEffect queue => Sys2Proof.Machine.execQueueFlushEffect queue s
  | .queueConfigWrite queue value => Sys2Proof.Machine.execQueueConfigWrite queue value s
  | .qEnqueue slot => Sys2Proof.Machine.execQEnqueue slot s
  | .qDequeue slot => Sys2Proof.Machine.execQDequeue slot s
  | .queueProducerResume queue => Sys2Proof.Machine.execQueueProducerResume queue s
  | .resultRelease flow => Sys2Proof.Machine.execResultRelease flow s
  | .signal src cmd => Sys2Proof.Machine.execSignal src cmd s
  | .arrive src cmd => Sys2Proof.Machine.execArrive src cmd s
  | .heldSignalApply => Sys2Proof.Machine.execHeldSignalApply s
  | .signalOpen value => Sys2Proof.Machine.execSignalOpen value s
  | .signalClose => Sys2Proof.Machine.execSignalClose s
  | .sigWait slot => Sys2Proof.Machine.execSigWait slot s
  | .barrierArrive slot => Sys2Proof.Machine.execBarrierArrive slot s
  | .sigPost slot => Sys2Proof.Machine.execSigPost slot s
  | .waitResolve slot => Sys2Proof.Machine.execWaitResolve slot s
  | .preemptRequest port => Sys2Proof.Machine.execPreemptRequest port s
  | .spillEnd port => Sys2Proof.Machine.execSpillEnd port s
  | .restoreIssue port => Sys2Proof.Machine.execRestoreIssue port s
  | .switchIncomingIssue port => Sys2Proof.Machine.execSwitchIncomingIssue port s
  | .dmaCopy slot => Sys2Proof.Machine.execDmaCopy slot s
  | .dmaFill slot => Sys2Proof.Machine.execDmaFill slot s
  | .tableOpen => Sys2Proof.Machine.execTableOpen s
  | .tableClose => Sys2Proof.Machine.execTableClose s
  | .embGather slot => Sys2Proof.Machine.execEmbGather slot s
  | .embPool slot => Sys2Proof.Machine.execEmbPool slot s
  | .embScore slot => Sys2Proof.Machine.execEmbScore slot s
  | .exchangePoint => Sys2Proof.Machine.execExchangePoint s
  | .poolReq src header payload => Sys2Proof.Machine.execPoolReq src header payload s
  | .scoreReq src header payload => Sys2Proof.Machine.execScoreReq src header payload s
  | .poolReply src header payload => Sys2Proof.Machine.execPoolReply src header payload s
  | .scoreReply src header payload => Sys2Proof.Machine.execScoreReply src header payload s
  | .remoteTimeout tag => Sys2Proof.Machine.execRemoteTimeout tag s
  | .embUpdate slot => Sys2Proof.Machine.execEmbUpdate slot s
  | .updatePublish slot => Sys2Proof.Machine.execUpdatePublish slot s
  | .foldStart entry => Sys2Proof.Machine.execFoldStart entry s
  | .foldCopyComplete entry => Sys2Proof.Machine.execFoldCopyComplete entry s
  | .migrationCopyComplete table row => Sys2Proof.Machine.execMigrationCopyComplete table row s
  | .hotRowDemotion entry => Sys2Proof.Machine.execHotRowDemotion entry s
  | .replica src header payload => Sys2Proof.Machine.execReplica src header payload s
  | .lease src header => Sys2Proof.Machine.execLease src header s
  | .drop src header => Sys2Proof.Machine.execDrop src header s
  | .voxporSwap table => Sys2Proof.Machine.execVoxporSwap table s
  | .voxporScanComplete table => Sys2Proof.Machine.execVoxporScanComplete table s
  | .tableDigestScanComplete table => Sys2Proof.Machine.execTableDigestScanComplete table s
  | .expSelect slot => Sys2Proof.Machine.execExpSelect slot s
  | .expSend slot => Sys2Proof.Machine.execExpSend slot s
  | .exchangeOpen slot => Sys2Proof.Machine.execExchangeOpen slot s
  | .expReturn slot => Sys2Proof.Machine.execExpReturn slot s
  | .expRecv slot => Sys2Proof.Machine.execExpRecv slot s
  | .expCollect slot => Sys2Proof.Machine.execExpCollect slot s
  | .sendCount src header payload => Sys2Proof.Machine.execSendCount src header payload s
  | .sendRow src header payload => Sys2Proof.Machine.execSendRow src header payload s
  | .returnCount src header payload => Sys2Proof.Machine.execReturnCount src header payload s
  | .returnRow src header payload => Sys2Proof.Machine.execReturnRow src header payload s
  | .exchangeTimeout tag => Sys2Proof.Machine.execExchangeTimeout tag s
  | .engineReadRequest port addr tag hint => Sys2Proof.Machine.execEngineReadRequest port addr tag hint s
  | .engineWriteBeat port beat => Sys2Proof.Machine.execEngineWriteBeat port beat s
  | .hostDmaRead addr tag part => Sys2Proof.Machine.execHostDmaRead addr tag part s
  | .hostDmaWrite addr part signal data => Sys2Proof.Machine.execHostDmaWrite addr part signal data s
  | .controlRequest write addr size data => Sys2Proof.Machine.execControlRequest write addr size data s
  | .memReadResponse port tag status data => Sys2Proof.Machine.execMemReadResponse port tag status data s
  | .memWriteResponse port rsp => Sys2Proof.Machine.execMemWriteResponse port rsp s
  | .repairResponse port rsp => Sys2Proof.Machine.execRepairResponse port rsp s
  | .memTimeout port tag => Sys2Proof.Machine.execMemTimeout port tag s
  | .reconstructTimeout held => Sys2Proof.Machine.execReconstructTimeout held s
  | .portOfflineRise port => Sys2Proof.Machine.execPortOfflineRise port s
  | .portOfflineGrant port => Sys2Proof.Machine.execPortOfflineGrant port s
  | .drainComplete port => Sys2Proof.Machine.execDrainComplete port s
  | .portOfflineFall port contentLost => Sys2Proof.Machine.execPortOfflineFall port contentLost s
  | .offlineRetrain port => Sys2Proof.Machine.execOfflineRetrain port s
  | .offlineReplace port => Sys2Proof.Machine.execOfflineReplace port s
  | .restore port answered => Sys2Proof.Machine.execRestore port answered s
  | .rebuildChunkComplete port => Sys2Proof.Machine.execRebuildChunkComplete port s
  | .pageRestoreComplete port page => Sys2Proof.Machine.execPageRestoreComplete port page s
  | .scrubRow group row => Sys2Proof.Machine.execScrubRow group row s
  | .memWipeChunk port chunk => Sys2Proof.Machine.execMemWipeChunk port chunk s
  | .laneSignalLoss port level => Sys2Proof.Machine.execLaneSignalLoss port level s
  | .laneChangeSwitch port => Sys2Proof.Machine.execLaneChangeSwitch port s
  | .controlFlit port words => Sys2Proof.Machine.execControlFlit port words s
  | .dataFlit port lanes words => Sys2Proof.Machine.execDataFlit port lanes words s
  | .flitTransmit port => Sys2Proof.Machine.execFlitTransmit port s
  | .controlFlitPeriod port => Sys2Proof.Machine.execControlFlitPeriod port s
  | .linkReplayTimeout port vc => Sys2Proof.Machine.execLinkReplayTimeout port vc s
  | .linkDeadTimeout port => Sys2Proof.Machine.execLinkDeadTimeout port s
  | .trainingLock port => Sys2Proof.Machine.execTrainingLock port s
  | .trainingTimeout port => Sys2Proof.Machine.execTrainingTimeout port s
  | .identityBlock port block echoes => Sys2Proof.Machine.execIdentityBlock port block echoes s
  | .downRetrain port => Sys2Proof.Machine.execDownRetrain port s
  | .refusedRetry port => Sys2Proof.Machine.execRefusedRetry port s
  | .linkEnableWrite value => Sys2Proof.Machine.execLinkEnableWrite value s
  | .write src header beats => Sys2Proof.Machine.execWrite src header beats s
  | .queue src header words => Sys2Proof.Machine.execQueue src header words s
  | .start port record => Sys2Proof.Machine.execStart port record s
  | .startBarrierGo value => Sys2Proof.Machine.execStartBarrierGo value s
  | .startTimeElapsed => Sys2Proof.Machine.execStartTimeElapsed s
  | .solderArm value => Sys2Proof.Machine.execSolderArm value s
  | .rngProbeIn value => Sys2Proof.Machine.execRngProbeIn value s
  | .digest slot => Sys2Proof.Machine.execDigest slot s
  | .replayControlWrite value => Sys2Proof.Machine.execReplayControlWrite value s
  | .logConsumedWrite value => Sys2Proof.Machine.execLogConsumedWrite value s
  | .taskWatchdogExpiry port => Sys2Proof.Machine.execTaskWatchdogExpiry port s
  | .dataTaskWatchdogExpiry slot => Sys2Proof.Machine.execDataTaskWatchdogExpiry slot s
  | .dataUnitStall slot => Sys2Proof.Machine.execDataUnitStall slot s
  | .dispatchStall dispatcher => Sys2Proof.Machine.execDispatchStall dispatcher s
  | .noEngine slot => Sys2Proof.Machine.execNoEngine slot s
  | .mcWatchdogExpiry => Sys2Proof.Machine.execMcWatchdogExpiry s
  | .mcRestartComplete => Sys2Proof.Machine.execMcRestartComplete s
  | .mcHeartbeat value => Sys2Proof.Machine.execMcHeartbeat value s
  | .resetRequestL0 ctx => Sys2Proof.Machine.execResetRequestL0 ctx s
  | .resetRequestL1 port => Sys2Proof.Machine.execResetRequestL1 port s
  | .resetRequestL2 part => Sys2Proof.Machine.execResetRequestL2 part s
  | .resetRequestL3 => Sys2Proof.Machine.execResetRequestL3 s
  | .resetRequestL4 => Sys2Proof.Machine.execResetRequestL4 s
  | .resetRequestL5 => Sys2Proof.Machine.execResetRequestL5 s
  | .l0DrainEnd ctx => Sys2Proof.Machine.execL0DrainEnd ctx s
  | .cleanupWalksComplete ctx => Sys2Proof.Machine.execCleanupWalksComplete ctx s
  | .cleanupOverrun ctx => Sys2Proof.Machine.execCleanupOverrun ctx s
  | .engineResetTimeout port => Sys2Proof.Machine.execEngineResetTimeout port s
  | .levelTimeout => Sys2Proof.Machine.execLevelTimeout s
  | .resetLevelComplete => Sys2Proof.Machine.execResetLevelComplete s
  | .nightRelease => Sys2Proof.Machine.execNightRelease s
  | .dumpRequest => Sys2Proof.Machine.execDumpRequest s
  | .dumpComplete unreachable => Sys2Proof.Machine.execDumpComplete unreachable s
  | .dumpAck => Sys2Proof.Machine.execDumpAck s
  | .memZeroFill value => Sys2Proof.Machine.execMemZeroFill value s
  | .memZeroFillComplete => Sys2Proof.Machine.execMemZeroFillComplete s
  | .sramBankRotation array bank => Sys2Proof.Machine.execSramBankRotation array bank s
  | .sramUncorrectable word => Sys2Proof.Machine.execSramUncorrectable word s
  | .resetNAssert => Sys2Proof.Machine.execResetNAssert s
  | .resetNRelease => Sys2Proof.Machine.execResetNRelease s
  | .corePwrGoodFall => Sys2Proof.Machine.execCorePwrGoodFall s
  | .corePwrGoodRise => Sys2Proof.Machine.execCorePwrGoodRise s
  | .startGo => Sys2Proof.Machine.execStartGo s
  | .morningBegin => Sys2Proof.Machine.execMorningBegin s
  | .noonLimit => Sys2Proof.Machine.execNoonLimit s
  | .thermalSample readings => Sys2Proof.Machine.execThermalSample readings s
  | .throttleStep fall => Sys2Proof.Machine.execThrottleStep fall s
  | .clockRange clock khz => Sys2Proof.Machine.execClockRange clock khz s
  | .voltageRange region mv => Sys2Proof.Machine.execVoltageRange region mv s
  | .powerRequestP0 => Sys2Proof.Machine.execPowerRequestP0 s
  | .powerRequestP1 => Sys2Proof.Machine.execPowerRequestP1 s
  | .powerRequestP2 => Sys2Proof.Machine.execPowerRequestP2 s
  | .powerRequestP3 => Sys2Proof.Machine.execPowerRequestP3 s
  | .powerDrainComplete => Sys2Proof.Machine.execPowerDrainComplete s
  | .p2DrainTimeout => Sys2Proof.Machine.execP2DrainTimeout s
  | .selfRefreshAck port level => Sys2Proof.Machine.execSelfRefreshAck port level s
  | .sramBist target => Sys2Proof.Machine.execSramBist target s
  | .laneCal target => Sys2Proof.Machine.execLaneCal target s
  | .memRetrain target => Sys2Proof.Machine.execMemRetrain target s
  | .memMarch target force => Sys2Proof.Machine.execMemMarch target force s
  | .linkLoopback target force => Sys2Proof.Machine.execLinkLoopback target force s
  | .logicBist target force => Sys2Proof.Machine.execLogicBist target force s
  | .selftestComplete pass => Sys2Proof.Machine.execSelftestComplete pass s
  | .debugLevelWrite value => Sys2Proof.Machine.execDebugLevelWrite value s
  | .authChallenge => Sys2Proof.Machine.execAuthChallenge s
  | .grantObserve sigR sigS => Sys2Proof.Machine.execGrantObserve sigR sigS s
  | .grantOpen sigR sigS => Sys2Proof.Machine.execGrantOpen sigR sigS s
  | .grantSolder sigR sigS ports => Sys2Proof.Machine.execGrantSolder sigR sigS ports s
  | .grantDeploy sigR sigS => Sys2Proof.Machine.execGrantDeploy sigR sigS s
  | .grantReturn sigR sigS => Sys2Proof.Machine.execGrantReturn sigR sigS s
  | .lifecycleProvision key => Sys2Proof.Machine.execLifecycleProvision key s
  | .fwLoadData value => Sys2Proof.Machine.execFwLoadData value s
  | .fwLoadGo => Sys2Proof.Machine.execFwLoadGo s
  | .fwVerifyComplete => Sys2Proof.Machine.execFwVerifyComplete s
  | .debugMemRead => Sys2Proof.Machine.execDebugMemRead s
  | .debugMemWrite data => Sys2Proof.Machine.execDebugMemWrite data s
  | .counterClear value => Sys2Proof.Machine.execCounterClear value s
  | .counterSumForward obj elem => Sys2Proof.Machine.execCounterSumForward obj elem s
  | .alarmAck code => Sys2Proof.Machine.execAlarmAck code s
  | .alarmMaskWrite value => Sys2Proof.Machine.execAlarmMaskWrite value s
  | .memTrainingComplete port => Sys2Proof.Machine.execMemTrainingComplete port s
  | .laneChangeAckTimeout port => Sys2Proof.Machine.execLaneChangeAckTimeout port s
  | .epResetRelease port => Sys2Proof.Machine.execEpResetRelease port s
  | .tickOutPulseEnd => Sys2Proof.Machine.execTickOutPulseEnd s
  | .clockLowerSettle => Sys2Proof.Machine.execClockLowerSettle s
  | .selftestDrainTimeout => Sys2Proof.Machine.execSelftestDrainTimeout s
  | .authNonceExpiry => Sys2Proof.Machine.execAuthNonceExpiry s

end Sys2Proof.Machine
end

