-- ==== Sys2Proof/Machine/Idle.lean ====
section
/-! DEFINITION. One hub cycle without a command: time passes, and the counters that count hub cycles of waiting count
(R26, R410, R474; log 2). -/
namespace Sys2Proof.Machine

/-- Banks for which at least one token waits (R99). -/
def State.waitingBanks (s : State) : Nat := (uniq (s.mat.tokens.map fun t => Tok.slot t % 16)).length


/-- A record waits for room in a RESULT queue: one that leaves in completion order, or the next of a flow (R137,
R155). -/
def State.releaseWaits (s : State) : Bool :=
  let full (q n : Nat) : Bool := !s.resultRoom q (((s.hold n).map Hold.words).getD 1)
  s.adm.unposted.any (fun e => full e.2 e.1)
  || s.adm.flows.any fun e => e.2.done.getLsbD 0 && !s.leaveWaits e.1
    && ((s.flowHold e.1 e.2.rel).map (full e.2.resultQueue)).getD false

/-- Sources whose command waits for the held-signal buffer: the paths on this chip, and the link ports whose record is
held back (R181). -/
def State.waitingSources (s : State) : Nat :=
  (uniq (s.sig.waiting.map fun c => c.src.path)).length
  + (uniq ((s.links.inbox.filter fun d => d.held && d.family == Fam.signal).map (·.port))).length

/-- An exchange record waits on its virtual channel (R289). -/
def State.exchangeHolds (s : State) : Bool :=
  s.links.inbox.any fun d => d.family == Fam.exchange
    && s.recordHeld { src := d.src, header := d.slots.headD 0, payload := d.slots.drop 1 }

/-- Memory ports whose request to leave service waits for its grant (R318). -/
def State.offlineWaits (s : State) : Nat :=
  ((List.range s.build.memoryPorts).filter fun p => (s.mport p).asks).length

/-- Adds a flag to a counter of hub cycles. -/
def State.countHc (s : State) (key : Nat) (b : Bool) : State := if b then s.bump key else s

/-- The hub cycles of waiting that this cycle adds. -/
def State.countWaits (s : State) : State :=
  let s := if s.waitingBanks = 0 then s else s.bump K.bankConflictHc s.waitingBanks
  let s := s.countHc K.loaderWindowStallHc s.windowStalled
  let s := s.countHc K.releaseWaitHc s.releaseWaits
  let s := if s.waitingSources = 0 then s else s.bump K.heldSignalWaitHc s.waitingSources
  let s := if s.waitingUpdates = 0 then s else s.bump K.overlayWaitHc s.waitingUpdates
  let s := if s.offlineWaits = 0 then s else s.bump K.offlineRequestsWaiting s.offlineWaits
  let s := s.countHc K.exchangeHoldHc s.exchangeHolds
  let s := if s.logRoom then s.modReplay fun r => { r with waiting := false } else s
  let s := (s.countHc K.replayLogWaitHc s.replay.waiting).countHc K.replayHoldHc s.replay.held
  s.countHc K.throttleHc (decide (s.power.throttle < 8))

/-- Real time passes by one hub cycle. -/
def State.passTime (s : State) : State :=
  { s with clk := { s.clk with units := s.clk.units + 720720 / (8 + s.convLevel) } }

/-- One idle hub cycle: with the control and data planes in reset or off, time alone passes. -/
def idleEff (s : State) : State :=
  let s := s.passTime
  if s.off then s
  else
    let s := { s with clk := { s.clk with abs := s.clk.abs + 1, hc := s.clk.hc + 1 } }
    s.countWaits.stripeCycle.brassPass.eventPass

/-- What an empty queue of commands leaves: one idle hub cycle. -/
def idle (s : State) : Host.Outcome State Fault Refusal := run idleEff s

end Sys2Proof.Machine
end

