-- ==== Sys2Proof/Safety.lean ====
section
/-! DEFINITION. What counts as a safe run of the block: its output pins agree with the conditions the spec ties them to.
With it the terms in which statements are made: which unit a command goes to, and what it means that a command
completes. -/
namespace Sys2Proof.Machine

/-- ALARM_N and CLK_REQ stand at the levels their conditions ask for (R432, R483). -/
def State.Settled (s : State) : Prop := s.pins.clkReq = s.clockLevel ∧ s.pins.alarmN = s.alarmPin

/-- The unit a command goes to: the reset and power sequencer, the management plane, the control and data planes, or a
port of one of three kinds. -/
inductive Plane where
  | sequencer
  | management
  | core
  | enginePort (p : Nat)
  | memoryPort (p : Nat)
  | linkPort (p : Nat)
  deriving DecidableEq, Repr

/-- The unit each command goes to. -/
def planeOf : Instr → Plane
  | .levelTimeout | .resetLevelComplete | .resetNAssert | .resetNRelease | .corePwrGoodFall | .corePwrGoodRise
  | .clockLowerSettle => .sequencer
  | .tickBoundary | .tickInEdge _ | .tickInHoldover | .tickOutPulseEnd | .tickMarksMissing | .startTimeElapsed
  | .windowGo | .controlRequest _ _ _ _ | .sramUncorrectable _ | .counterSumForward _ _ => .management
  | .dictWrite _ _ _ _ _ _ | .mctpMessage _ | .mctpAssemblyTimeout | .setEndpointId _ | .getEndpointId
  | .getMctpVersionSupport | .getMessageTypeSupport | .getVendorDefinedMessageSupport | .entdaa _ | .setdasa _ _
  | .rstdaa | .getpid | .getbcr | .getdcr | .getstatus | .getmwl | .getmrl | .setmwl _ | .setmrl _ | .enec _
  | .disec _ | .i3cPrivateRead | .dictRequestComplete | .unitStop _ | .unitStart _ | .imageLoad | .imageUnload
  | .enginePortRestore _ | .enginePortConfigWrite _ _ | .apertureBind _ _ _ | .queueEnable _ | .queueDisable _
  | .queueFlush _ | .queueConfigWrite _ _ | .signalOpen _ | .signalClose | .tableOpen | .tableClose
  | .voxporSwap _ | .offlineRetrain _ | .offlineReplace _ | .restore _ _ | .linkEnableWrite _
  | .startBarrierGo _ | .solderArm _ | .rngProbeIn _ | .replayControlWrite _ | .logConsumedWrite _
  | .mcWatchdogExpiry | .mcRestartComplete | .mcHeartbeat _ | .resetRequestL0 _ | .resetRequestL1 _
  | .resetRequestL2 _ | .resetRequestL3 | .resetRequestL4 | .resetRequestL5 | .nightRelease | .dumpRequest
  | .dumpComplete _ | .dumpAck | .memZeroFill _ | .startGo | .thermalSample _ | .throttleStep _
  | .clockRange _ _ | .voltageRange _ _ | .powerRequestP0 | .powerRequestP1 | .powerRequestP2 | .powerRequestP3
  | .sramBist _ | .laneCal _ | .memRetrain _ | .memMarch _ _ | .linkLoopback _ _ | .logicBist _ _
  | .debugLevelWrite _ | .authChallenge | .grantObserve _ _ | .grantOpen _ _ | .grantSolder _ _ _
  | .grantDeploy _ _ | .grantReturn _ _ | .lifecycleProvision _ | .fwLoadData _ | .fwLoadGo | .fwVerifyComplete
  | .debugMemRead | .debugMemWrite _ | .counterClear _ | .alarmAck _ | .alarmMaskWrite _ | .authNonceExpiry => .management
  | .unitStopEffect _
  | .deadlineExpiry | .delayedReleaseExpiry | .imageLoadComplete | .step _ _ | .jobOpen _ _ | .jobClose _ _
  | .jobCloseEffect _ | .join _ _ | .leave _ _ | .doorbellDataWord _ _ | .windowReserve | .templateInstantiate _
  | .tokenMatch _ | .holdLift _ | .nullTaskResolve _ | .taskSkip _ | .dispatch _ | .tokenForm
  | .readApertureRead _ | .queueFlushEffect _ | .qEnqueue _ | .qDequeue _ | .queueProducerResume _
  | .resultRelease _ | .signal _ _ | .arrive _ _ | .heldSignalApply | .sigWait _ | .barrierArrive _ | .sigPost _
  | .waitResolve _ | .dmaCopy _ | .dmaFill _ | .embGather _ | .embPool _ | .embScore _ | .exchangePoint
  | .poolReq _ _ _ | .scoreReq _ _ _ | .poolReply _ _ _ | .scoreReply _ _ _ | .remoteTimeout _ | .embUpdate _
  | .updatePublish _ | .foldStart _ | .foldCopyComplete _ | .migrationCopyComplete _ _ | .hotRowDemotion _
  | .replica _ _ _ | .lease _ _ | .drop _ _ | .voxporScanComplete _ | .tableDigestScanComplete _ | .expSelect _
  | .expSend _ | .exchangeOpen _ | .expReturn _ | .expRecv _ | .expCollect _ | .sendCount _ _ _ | .sendRow _ _ _
  | .returnCount _ _ _ | .returnRow _ _ _ | .exchangeTimeout _ | .hostDmaRead _ _ _ | .hostDmaWrite _ _ _ _
  | .reconstructTimeout _ | .scrubRow _ _ | .write _ _ _ | .queue _ _ _
  | .digest _ | .dataTaskWatchdogExpiry _ | .dataUnitStall _ | .dispatchStall _
  | .noEngine _ | .l0DrainEnd _ | .cleanupWalksComplete _ | .cleanupOverrun _ | .memZeroFillComplete
  | .sramBankRotation _ _ | .morningBegin | .noonLimit | .powerDrainComplete
  | .p2DrainTimeout | .selftestComplete _ | .selftestDrainTimeout => .core
  | .completionRecord p _ | .writeFenceClear p | .yieldRecord p _ | .yieldBoundExpiry p | .epReadyRise p
  | .epReadyFall p | .preemptRequest p | .spillEnd p | .restoreIssue p | .switchIncomingIssue p
  | .engineReadRequest p _ _ _ | .engineWriteBeat p _ | .taskWatchdogExpiry p | .engineResetTimeout p
  | .epResetRelease p => .enginePort p
  | .memReadResponse p _ _ _ | .memWriteResponse p _ | .repairResponse p _ | .memTimeout p _
  | .portOfflineRise p | .portOfflineGrant p | .drainComplete p | .portOfflineFall p _ | .rebuildChunkComplete p
  | .pageRestoreComplete p _ | .memWipeChunk p _ | .selfRefreshAck p _ | .memTrainingComplete p => .memoryPort p
  | .tickMark p _ | .laneSignalLoss p _ | .laneChangeSwitch p | .controlFlit p _ | .dataFlit p _ _
  | .flitTransmit p | .controlFlitPeriod p | .linkReplayTimeout p _ | .linkDeadTimeout p | .trainingLock p
  | .trainingTimeout p | .identityBlock p _ _ | .downRetrain p | .refusedRetry p | .start p _
  | .laneChangeAckTimeout p => .linkPort p

/-- The build has the unit (R8). -/
def Plane.present (s : State) : Plane → Bool
  | .enginePort p => s.hasEngine p
  | .memoryPort p => s.hasMemory p
  | .linkPort p => s.hasLink p
  | .sequencer | .management | .core => true

/-- A unit of the control and data planes, off while RESET_N is low and in P3 (R439, R497). -/
def Plane.inCore : Plane → Bool
  | .sequencer | .management => false
  | .core | .enginePort _ | .memoryPort _ | .linkPort _ => true

/-- A command completes: from the state s, whatever an earlier command left on the output ports, it answers a next state,
which is t with ALARM_N and CLK_REQ brought to their levels and the queue of commands as it was. What t keeps of s is
unchanged but for what bringing the pins to their levels changes. -/
def Completes (c : Instr) (s t : State) : Prop :=
  ∀ o : List Emit, exec c { s with out := o } = .next { State.settle t with pending := s.pending }

/-- Nothing on the output ports, and the control and data planes run. -/
def State.Running (s : State) : Prop := s.out = [] ∧ s.off = false


/-- The state in which data-plane work on the task in slot n begins: the task has arrived (R31). -/
def State.atWork (s : State) (n : Nat) : State := (s.arriveItem n).asking (.task n (s.slot n).inst)

/-- The control and data planes run, a slot holds a ready data task of an operation that no abort waits for, and its work f
comes upon no block that it must wait for (R31, R315). -/
def State.Works (s : State) (n op : Nat) (f : State → State) : Prop :=
  s.Running ∧ s.mat.aborts.contains n = false ∧ s.isItem n op = true ∧ (f (s.atWork n)).stripe.stuck = none

/-- The state that the work f on the task in slot n leaves (R31, R315). -/
def State.worked (s : State) (n : Nat) (f : State → State) : State := (f (s.atWork n)).doneAsking (.task n (s.slot n).inst)

/-- The record that a command for d serves is e: the first such record delivered, whose turn has come, or, where none is
delivered and no record of its stream waits, d itself (R339, R340); in Night none is served (R411). -/
def State.Serves (s : State) (d e : Delivered) : Prop :=
  s.resets.night = false ∧ ((s.links.inbox.find? d.same = some e ∧ s.mayServe e = true)
  ∨ (s.links.inbox.find? d.same = none ∧ e = d
    ∧ (s.links.inbox.any fun x => x.src == d.src && x.vc == d.vc) = false))

/-- Nothing on the output ports, and the management plane runs. -/
def State.Managed (s : State) : Prop := s.out = [] ∧ s.pins.resetN = true

/-- The state that a WRITE which the dictionary accepts leaves: counted as a request, its effect f, RESULT 0 and no value
bytes (R446 to R449). -/
def State.wrote (s : State) (f : State → State) : State :=
  let t := f (s.bump K.dictRequests)
  { t with dict := { t.dict with lastResult := D.ok, lastValue := [] } }

/-- The dictionary accepts the WRITE of one element: it passes every check of R449. -/
def State.Accepts (s : State) (key e v : Nat) (answered : Bool := false) : Prop :=
  s.Managed ∧ s.waitingRequests = [] ∧ s.dictCheck answered (writeReq key e v) = D.ok

end Sys2Proof.Machine
end

