-- ==== Sys2Proof/Certificates/Slice0/Obligations.lean ====
section
/-! DEFINITION. The statements about the block, by the sections of its spec. A statement about a command says which state
the command answers, or what that state holds, under conditions on the state and the operands; what the answered state
does not name is as it was. -/

open Sys2Proof Sys2Proof.Machine

/-- A step takes the command at the front of the queue and runs it with the rest of the queue. -/
def Obligations.StepRunsFrontCommand : Prop :=
  ∀ (s : State) (c : Instr) (rest : List Instr), s.pending = c :: rest → step s = exec c { s with pending := rest }

/-- With no command waiting one hub cycle passes (the model's choice, log 2): real time advances by a cycle at the
clock level in force, and in a hub that runs hc and the hub cycle count advance by one; the memory ports present what
waits for them, telemetry words move on and counters of waiting count. The queue stays empty, and the units named are
left alone. -/
def Obligations.IdleStepPassesOneHubCycle : Prop :=
  ∀ s : State, s.pending = [] → ∃ t, step s = .next t ∧ t.pending = [] ∧ (s.off = true → t.out = [])
    ∧ t.clk.units = s.clk.units + 720720 / (8 + s.convLevel)
    ∧ t.clk.abs = s.clk.abs + (if s.off then 0 else 1) ∧ t.clk.hc = s.clk.hc + (if s.off then 0 else 1)
    ∧ t.tick = s.tick ∧ t.mat = s.mat ∧ t.adm = s.adm ∧ t.loader = s.loader ∧ t.disp = s.disp ∧ t.sig = s.sig
    ∧ t.emb = s.emb ∧ t.route = s.route ∧ t.links = s.links ∧ t.resets = s.resets ∧ t.mgmt = s.mgmt

/-- A command that names a port absent from the build stops with the fault for it, changing nothing (the model's
choice, log 1); every other command completes in every state, none is refused, and the commands that wait behind it
stay as they were. That a command out of its place changes nothing is the model's reading too (log 27). -/
def Obligations.CommandsStopOnlyAtAbsentPorts : Prop :=
  ∀ (c : Instr) (s : State),
    ((planeOf c).present s = true → ∃ t, exec c s = .next t ∧ t.pending = s.pending)
    ∧ ((planeOf c).present s = false → exec c s = .fault .noSuchPort)

/-- While RESET_N is low, and in P3, the control and data planes take nothing: a command to one of their units or
ports changes nothing but the pins that follow a condition; and while RESET_N is low the management plane takes
nothing either. Which plane a command goes to is the model's reading (DEDUCED, logs 28 and 51). -/
def Obligations.OffPlanesTakeNothing : Prop :=
  ∀ (c : Instr) (s : State), s.out = [] →
    ((planeOf c).inCore = true → (planeOf c).present s = true → s.off = true → Completes c s s)
    ∧ (planeOf c = .management → s.pins.resetN = false → Completes c s s)

/-- Reset leaves ALARM_N and CLK_REQ at the levels their conditions ask for. -/
def Obligations.ResetIsSettled : Prop :=
  State.reset.Settled

/-- Every step brings ALARM_N and CLK_REQ to the levels their conditions ask for, so they stay there. -/
def Obligations.StepsKeepThePinsSettled : Prop :=
  ∀ s t : State, s.Settled → step s = .next t → t.Settled

/-- Reset. The chip holds nothing: no context has a job, no request waits, no slot is in use, no queue is enabled, no
signal object is open, no table is open, no link is up, no alarm is latched, no counter has counted, memory is empty;
TICK_OUT is low, the tick does not run, CLK_REQ asks for level 0. That the tick does not run (log 4), that no
accumulator holds an event (log 5) and that memory reads zero (log 25) are design choices: the spec gives no value
there. -/
def Obligations.ResetLeavesNothingBehind : Prop :=
  let s := State.reset
  s.adm.holds = [] ∧ s.adm.flows = [] ∧ s.mat.slots = [] ∧ s.mat.tokens = [] ∧ s.mat.ready = [] ∧ s.mat.pend = []
  ∧ s.loader.instances = [] ∧ s.sig.held = [] ∧ s.emb.lookups = [] ∧ s.route.exchanges = [] ∧ s.tele.latches = []
  ∧ s.dict.counters = [] ∧ s.dict.acc = [] ∧ s.stripe.mem = [] ∧ s.pending = [] ∧ s.out = []
  ∧ (∀ c, (s.ctx c).job = false) ∧ (∀ n, (s.queue n).enable = false) ∧ (∀ o, (s.obj o).open_ = false)
  ∧ (∀ n, (s.table n).isOpen = false) ∧ (∀ p, (s.lport p).state ≠ .up)
  ∧ s.tick.number = 0 ∧ s.tick.running = false ∧ s.tick.tickOut = false ∧ s.power.started = false
  ∧ s.pins.clkReq = 0

/-- Dynamic addresses of the I3C target: ENTDAA gives one to a target without one, SETDASA only where I3C_STATIC_ADDR
is not zero and named, RSTDAA takes it away; each answers with an acknowledgement or a NACK. The I3C target answers
GETPID, GETBCR, GETDCR, GETSTATUS, GETMWL, GETMRL, SETMWL, SETMRL, ENEC and DISEC: the last two have no effect, SETMWL
and SETMRL set what GETMWL and GETMRL return, high byte first (the model's choice, log 19), and the constants the spec
does not give are free values. A private read takes the oldest packet pending, and is NACKed while none is pending. -/
def Obligations.I3cTargetCommands : Prop :=
  (
    ∀ (s : State) (a static_ : Nat), s.Managed →
      (s.mgmt.dynAddr = 0 → Completes (.entdaa a) s { s with mgmt := { s.mgmt with dynAddr := a }, out := [.i3cAck] })
      ∧ (s.mgmt.dynAddr ≠ 0 → Completes (.entdaa a) s { s with out := [.i3cNack] })
      ∧ Completes (.rstdaa) s { s with mgmt := { s.mgmt with dynAddr := 0 }, out := [.i3cAck] }
      ∧ Completes (.setdasa static_ a) s
          (if Config.i3cStaticAddr ≠ 0 ∧ static_ = Config.i3cStaticAddr ∧ s.mgmt.dynAddr = 0 then
            { s with mgmt := { s.mgmt with dynAddr := a }, out := [.i3cAck] }
          else { s with out := [.i3cNack] })
  )
  ∧ (
    ∀ (s : State) (n : BitVec 16) (e : BitVec 8), s.Managed →
      Completes .getpid s { s with out := [.i3cData (beBytes 6 Config.i3cPid.toNat)] }
      ∧ Completes .getbcr s { s with out := [.i3cData [Config.i3cBcr]] }
      ∧ Completes .getdcr s { s with out := [.i3cData [Config.i3cDcr]] }
      ∧ Completes .getstatus s { s with
          clk := { s.clk with freeCount := s.clk.freeCount + 1 }
          out := [.i3cData (beBytes 2 (Config.i3cStatus s.clk.freeCount).toNat)] }
      ∧ Completes .getmwl s { s with out := [.i3cData [BitVec.ofNat 8 (s.mgmt.mwl / 256), BitVec.ofNat 8 s.mgmt.mwl]] }
      ∧ Completes .getmrl s { s with out := [.i3cData [BitVec.ofNat 8 (s.mgmt.mrl / 256), BitVec.ofNat 8 s.mgmt.mrl]] }
      ∧ Completes (.setmwl n) s { s with mgmt := { s.mgmt with mwl := n.toNat }, out := [.i3cAck] }
      ∧ Completes (.setmrl n) s { s with mgmt := { s.mgmt with mrl := n.toNat }, out := [.i3cAck] }
      ∧ Completes (.enec e) s { s with out := [.i3cAck] }
      ∧ Completes (.disec e) s { s with out := [.i3cAck] }
  )
  ∧ (
    ∀ s : State, s.Managed →
      (s.mgmt.packets = [] → Completes .i3cPrivateRead s { s with out := [.i3cNack] })
      ∧ ∀ (p : List (BitVec 8)) (rest : List (List (BitVec 8))), s.mgmt.packets = p :: rest →
          Completes .i3cPrivateRead s { s with mgmt := { s.mgmt with packets := rest }, out := [.i3cData p] }
  )

/-- The control commands of the MCTP endpoint: the bus owner assigns its endpoint ID, and the four Get commands answer
without changing the endpoint (the bytes of the answers are those of DSP0236, log 19). A Nymeran request that arrives
in one packet waits for the dictionary behind at most three others, and ahead of a window request submitted in its
MCLK cycle (R446; log 52), a fifth is answered with BUSY; a packet with a bad code is discarded and counted, and so is
a message being assembled for which no packet comes. -/
def Obligations.MctpEndpointAndMessages : Prop :=
  (
    ∀ (s : State) (eid : Nat), s.Managed →
      (0 < eid → eid < 255 → Completes (.setEndpointId eid) s { s with
        mgmt := { s.mgmt with eid := eid }, out := [.i3cData [0, 0, BitVec.ofNat 8 eid, 0]] })
      ∧ Completes .getEndpointId s { s with out := [.i3cData [0, BitVec.ofNat 8 s.mgmt.eid, 0, 0]] }
      ∧ Completes .getMctpVersionSupport s { s with out := [.i3cData (0 :: Config.mctpVersions)] }
      ∧ Completes .getMessageTypeSupport s { s with out := [.i3cData [0, 1, 0x7F]] }
      ∧ Completes .getVendorDefinedMessageSupport s { s with
          out := [.i3cData ([0, 0xFF, 1] ++ beBytes 4 Config.vendorIana.toNat ++ Config.mctpVendorSets)] }
  )
  ∧ (
    ∀ (s : State) (p : MctpPacket), s.Managed →
      (p.pecOk = false → Completes (.mctpMessage [p]) s (s.bump K.mctpPacketsDiscarded))
      ∧ (p.pecOk = true → p.dst = s.mgmt.eid → p.tagOwner = true → p.som = true → p.eom = true →
          21 ≤ p.payload.length → p.payload.length ≤ 64 → p.payload[0]? = some 0x7F →
          ofBe (slice p.payload 1 4) = Config.vendorIana.toNat → s.mgmt.assembling = none →
          let m : Msg := { eid := p.src, tag := p.tag, seq := (p.seq + 1) % 4, bytes := p.payload }
          (s.mgmt.waiting.length < 4 → Completes (.mctpMessage [p]) s
            (let t : State := { s with mgmt := { s.mgmt with waiting := s.mgmt.waiting ++ [m] } }
            if s.win.inProgress = true ∧ mclkCycle s.win.goAt = mclkCycle s.clk.units then
              { t with win := { s.win with ahead := s.mgmt.waiting.length + 1 } } else t))
          ∧ (4 ≤ s.mgmt.waiting.length → Completes (.mctpMessage [p]) s
            (s.mctpSend p.src p.tag (nymeranMessage (responseHeader m.header D.busy 0) []))))
      ∧ (s.mgmt.assembling.isSome = true → Completes .mctpAssemblyTimeout s
          (({ s with mgmt := { s.mgmt with assembling := none } } : State).bump K.mctpPacketsDiscarded))
  )

/-- A GO write of the dictionary window submits the request: DONE clears and IN_PROGRESS sets; while a request is in
progress GO only sets COLLISION and is counted; each is answered with the control response of a write (R504). While a
request of the window is in progress a write to GO, REQUEST or REQUEST_VALUE is discarded: it sets COLLISION and is
counted, whatever its size. The dictionary serves the request of the window where no MCTP request waits: IN_PROGRESS
clears and DONE sets, DONE_SEQ is the request's, RESPONSE carries its header with the RESULT and the LENGTH of the
value bytes. -/
def Obligations.WindowRequests : Prop :=
  (
    ∀ s : State, s.Managed →
      (s.win.inProgress = false → Completes .windowGo s { s with
        win := { s.win with
          done := false, inProgress := true, collision := false, ahead := s.mgmt.waiting.length, goAt := s.clk.units }
        out := [.controlResponse 0] })
      ∧ (s.win.inProgress = true → Completes .windowGo s
          ((({ s with win := { s.win with collision := true } } : State).bump K.dictWindowCollisions).emit
            (.controlResponse 0)))
  )
  ∧ (
    ∀ (s : State) (addr size : Nat) (data : BitVec 512), s.Managed → s.win.inProgress = true →
      addr < 2 ^ 16 → size ≤ 6 → addr % 2 ^ size = 0 →
      let touched (lo hi : Nat) : Prop := addr < hi ∧ lo < addr + 2 ^ size
      (touched 0x20 0x28 ∨ touched 0 0x10 ∨ touched 0x1000 0x2000) →
      let t : State := { s with win := { s.win with collision := true } }
      Completes (.controlRequest true addr size data) s ((t.bump K.dictWindowCollisions).emit (.controlResponse 0))
  )
  ∧ (
    ∀ s : State, s.Managed → s.win.inProgress = true → s.mgmt.waiting = [] →
      ∃ t, Completes .dictRequestComplete s t
        ∧ t.win.inProgress = false ∧ t.win.done = true ∧ t.win.doneSeq = bits s.win.request 112 8
        ∧ t.win.rspValue = t.dict.lastValue
        ∧ t.win.response = responseHeader s.win.request t.dict.lastResult t.dict.lastValue.length
  )

/-- A WRITE that a boundary puts in force is stored for READs and queued for phase 1, the value in force staying as it
was; it answers RESULT 0, and in RECORD it is logged. Said of DICT_WRITE of one element of a parameter, served after
the requests that wait (R446; log 52). The entry is written as the WRITE is accepted, with the coming boundary's tick
(log 33). -/
def Obligations.DictWriteDefersParameters : Prop :=
  ∀ (s : State) (mctp : Bool) (index sub first : Nat) (value : List (BitVec 8)) (r : ObjDesc),
    s.Managed → objDesc (index * 256 + sub % 256) = some r → r.effect = 1 → r.key ≠ K.replayControl →
    let w := s.serveWaiting
    let f : State := { w with clk := { w.clk with freeCount := w.clk.freeCount + 1 } }
    f.dictCheck (Config.restoreAnswered w.clk.freeCount) (dictWriteReq mctp index sub first 1 value) = D.ok →
    let v := writeMask r.key (ofLe (slice value 0 r.bytes))
    Completes (.dictWrite mctp index sub first 1 value) s
      (f.wrote fun s =>
        let t : State := { s with dict := { s.dict with
          written := s.putValue s.dict.written r.key first v
          deferred := s.dict.deferred ++ [(dictKey r.key first, v)] } }
        t.logInput t.nextTick L.param 0 0 (at' (r.key / 256) 360 16 + at' r.key 352 8) (paramBody r.bytes first v))

/-- A WRITE of an object the directory does not list answers NO_OBJECT, and any WRITE that fails a check of R449 other
than BUSY changes nothing but the counts of requests and refusals, RESULT and the value bytes, of which it has none;
it is served after the requests that wait (R446; log 52). A command that stands for a WRITE of one element is that
WRITE, served after the requests that wait (R446; log 52). -/
def Obligations.DictWriteRefusals : Prop :=
  (
    ∀ (s : State) (mctp : Bool) (index sub first count : Nat) (value : List (BitVec 8)), s.Managed →
      let q := dictWriteReq mctp index sub first count value
      let w := s.serveWaiting
      let f : State := { w with clk := { w.clk with freeCount := w.clk.freeCount + 1 } }
      let code := f.dictCheck (Config.restoreAnswered w.clk.freeCount) q
      (objDesc (index * 256 + sub % 256) = none → code = D.noObject)
      ∧ (code ≠ D.ok → code ≠ D.busy →
          let t := (f.bump K.dictRequests).bump K.dictRefused
          Completes (.dictWrite mctp index sub first count value) s
            { t with dict := { t.dict with lastResult := code, lastValue := [] } })
  )
  ∧ (
    ∀ (c : Instr) (key e v : Nat) (s : State), s.Managed → (∀ x : State, exec c x = runWrite key e v x) →
      Completes c s (s.serveWaiting.writeObject key e v)
      ∧ (s.waitingRequests = [] → Completes c s (s.writeObject key e v))
  )

/-- Unit control. A stop of a running unit is noted and withdraws a start that waits; an engine port begins to drain.
A stop of a stopped unit only withdraws the waiting start, a start waits for the next boundary, and before START_GO
both only mark which units stay stopped. Writes that configure engine ports and apertures. ENGINE_PORT_RESTORE clears
a port's failure, marks it a spare and releases its reset, which stays asserted on a port that is disabled or stopped
and, as an L1, in Night and in P2; ENGINE_PORT_CONFIG and the apertures' bindings are in force at once, their reserved
bits dropped, and a newly bound doorbell counts its words from 0. Which remaps a configuration leaves in force is the
model's reading (log 46). -/
def Obligations.UnitAndPortWrites : Prop :=
  (
    ∀ (s : State) (u : Nat), u < 256 →
      let keep (s : State) : State := { s with disp := { s.disp with unitKeep := uniq (s.disp.unitKeep ++ [u]) } }
      let lift (s : State) : State := { s with disp := { s.disp with unitKeep := s.disp.unitKeep.filter (· ≠ u) } }
      (s.Accepts K.unitControl 0 (2 ^ 14 + u) → s.power.started = true →
        (u ∉ s.disp.unitStopped → Completes (.unitStop u) s (s.wrote fun s =>
          let s := keep s
          let s := { s with disp := { s.disp with
            unitStart := s.disp.unitStart.filter (· ≠ u), unitStopReq := uniq (s.disp.unitStopReq ++ [u]) } }
          if u < 64 then ((s.dropIncoming u).spillsDone u).drainStop u else s))
        ∧ (u ∈ s.disp.unitStopped → Completes (.unitStop u) s (s.wrote fun s =>
          let s := keep s
          { s with disp := { s.disp with unitStart := s.disp.unitStart.filter (· ≠ u) } })))
      ∧ (s.Accepts K.unitControl 0 (2 ^ 15 + u) → s.power.started = true →
        Completes (.unitStart u) s (s.wrote fun s =>
          let s := lift s
          { s with disp := { s.disp with unitStart := uniq (s.disp.unitStart ++ [u]) } }))
      ∧ (s.Accepts K.unitControl 0 (2 ^ 14 + u) → s.power.started = false →
        Completes (.unitStop u) s (s.wrote keep))
      ∧ (s.Accepts K.unitControl 0 (2 ^ 15 + u) → s.power.started = false →
        Completes (.unitStart u) s (s.wrote lift))
  )
  ∧ (
    ∀ (s : State) (p a : Nat) (v : BitVec 16),
      (p < 256 → s.Accepts K.enginePortRestore 0 p → Completes (.enginePortRestore p) s (s.wrote fun s =>
        let t := (s.setValue K.enginePortConfig p
          (if bit (s.stored K.enginePortConfig p) 9 then s.stored K.enginePortConfig p
            else s.stored K.enginePortConfig p + 2 ^ 9)).modPort p fun e => { e with failed := false }
        if !t.portEnabled p ∨ t.disp.unitStopped.contains p ∨ !t.power.started then t
        else if t.resets.night ∨ t.power.state = 2 then t.modPort p fun e => { e with inL1 := true, expired := false }
        else t.modPort p fun e => { e with resetN := true, restoring := !e.epReady, expired := false }))
      ∧ (s.Accepts K.enginePortConfig p v.toNat → Completes (.enginePortConfigWrite p v) s (s.wrote fun s =>
        let c := v.toNat % 2 ^ 10
        let same : Bool := s.portConfig p % 256 == c % 256 && Cfg.enable c
        let kept := s.disp.standIns.filter fun x => (x.1 != p || (same && (s.port p).failed)) && (x.2 != p || same)
        { s with disp := { s.disp with standIns := kept } }.setValue K.enginePortConfig p c))
      ∧ (s.Accepts K.doorbellBind a v.toNat → Completes (.apertureBind false a v) s (s.wrote fun s =>
        (s.setValue K.doorbellBind a (writeMask K.doorbellBind v.toNat)).modDoorbell a fun d => { d with accepted := 0 }))
      ∧ (s.Accepts K.readBind a v.toNat → Completes (.apertureBind true a v) s (s.wrote fun s =>
        s.setValue K.readBind a (writeMask K.readBind v.toNat)))
  )

/-- IMAGE_LOAD begins a load of the image at IMAGE_LOAD_ADDR into IMAGE_LOAD_SLOT; IMAGE_UNLOAD of a slot that work
still uses reports it and changes nothing else, and of a slot that nothing uses it takes the image out, logged in
RECORD. The log entry carries the coming boundary's tick (DEDUCED, log 33). -/
def Obligations.ImageLoadAndUnload : Prop :=
  ∀ s : State,
    (s.Accepts K.imageLoadGo 0 1 → Completes .imageLoad s (s.wrote fun s => { s with loader := { s.loader with
      op := some { addr := s.par K.imageLoadAddr, slot := s.par K.imageLoadSlot, part := s.par K.imageLoadPartition }
      result := loadResult 0 (s.par K.imageLoadSlot) true } }))
    ∧ (s.Accepts K.imageLoadGo 0 2 →
      (s.unloadable (s.par K.imageLoadSlot) = false →
        Completes .imageUnload s (s.wrote fun s => { s with loader := { s.loader with
          result := loadResult Load.slotBusy (s.par K.imageLoadSlot) false } }))
      ∧ (s.unloadable (s.par K.imageLoadSlot) = true →
        Completes .imageUnload s (s.wrote fun s =>
          let slot := s.par K.imageLoadSlot
          let digest := ((s.image slot).map (·.digest)).getD 0
          let t := s.logInput s.nextTick L.image 0 0 (at' slot 368 8 + at' 2 360 8) [digestWord digest.toNat]
          { t with loader := { t.loader with
            images := Sparse.erase t.loader.images slot, result := loadResult Load.loaded slot false } })))

/-- Queue control. On a REQUEST or FLOW queue an enable, a disable and a flush wait for the next boundary. On a queue
of another kind an enable acts at once, a disable waits for a packet boundary of both sides, and a flush acts at once
or, with a packet open on a side, stays pending, logged in RECORD. When a flush is logged and with which tick is the
model's reading (logs 33 and 34). QUEUE_CONFIG of a disabled queue: its descriptor starts from the written
configuration, with the producers that wait for it kept, and the words it held are counted as flushed and its records
discarded. That the write drops an enable or a flush of its queue that waits is a design choice (log 95); what becomes
of the words it held is the model's reading (log 66). -/
def Obligations.QueueWrites : Prop :=
  (
    ∀ (s : State) (n : Nat), n < 2 ^ 14 →
      (s.Accepts K.queueControl 0 (2 ^ 30 + n) →
        Completes (.queueEnable n) s (s.wrote fun s =>
          if (s.queue n).kind ≤ 1 then s.modQueue n fun q => { q with control := some true }
          else (s.modQueue n fun q => { q with enable := true, control := none }).postWaiting))
      ∧ (s.Accepts K.queueControl 0 (2 * 2 ^ 30 + n) →
        Completes (.queueDisable n) s (s.wrote fun s =>
          if (s.queue n).kind ≤ 1 then s.modQueue n fun q => { q with control := some false }
          else if (s.queue n).enable then s.modQueue n fun q => Queue.settled { q with control := some false }
          else s))
      ∧ (s.Accepts K.queueControl 0 (3 * 2 ^ 30 + n) →
        Completes (.queueFlush n) s (s.wrote fun s =>
          let t := s.logInput s.nextTick L.flush 0 0 (at' n 362 14) []
          if (s.queue n).kind ≤ 1 then s.modQueue n fun q => { q with flushTick := true }
          else if (s.queue n).packetOpen || (s.queue n).readOpen then t.modQueue n fun q => { q with flushPending := true }
          else t.flushNow n))
  )
  ∧ (
    ∀ (s : State) (n : Nat) (v : BitVec 128), s.Accepts K.queueConfig n v.toNat →
      let w := v.toNat / 2 ^ 32 * 2 ^ 32
      Completes (.queueConfigWrite n v) s (s.wrote fun s =>
        let t := ((s.setValue K.queueConfig n w).modQueue n fun _ => {
          base := fld w 64 64, sizeLog2 := fld w 59 5, kind := fld w 56 3, part := fld w 52 4
          ctx := fld w 40 12, cut := fld w 32 8, waiting := (s.queue n).waiting }).bump K.queueWordsFlushed (s.queue n).len
        (s.queue n).accepted.foldl (State.discardRecord (s.queue n).kind) t)
  )

/-- SIGNAL_OPEN and SIGNAL_CLOSE of the selected signal object or barrier, logged in RECORD. An opened barrier has the
parties and the context of the value, an opened object its initial count, and with a period a free place of the
aligned table; a closed one is not open. The place of the aligned table is the lowest free one (log 100) and ARRIVED
and PHASE of an opened barrier are 0 (log 101), by choice; the log entry carries the coming boundary's tick (DEDUCED,
log 33). -/
def Obligations.SignalOpenAndClose : Prop :=
  ∀ (s : State) (v : BitVec 128),
    let n := s.selected.2
    let log (s : State) (close : Bool) : State := s.logInput s.nextTick L.signalAdmin 0 0
      (at' n 358 18 + flag s.selected.1 357 + at' (if close then 2 else 1) 355 2)
      (if close then [] else [BitVec.ofNat 512 v.toNat])
    let fresh (s : State) : SigObj :=
      { count := Open.initial v, ctx := Open.ctx v, gen := (s.ctx (Open.ctx v)).gen, binary := Open.binary v, open_ := true }
    (s.Accepts K.signalOpen 0 v.toNat → s.selected.1 = true → Completes (.signalOpen v) s (s.wrote fun s =>
      let t := log s false
      t.modBarrier n fun _ =>
        { parties := Open.parties v, ctx := Open.ctx v, gen := (t.ctx (Open.ctx v)).gen, open_ := true }))
    ∧ (s.Accepts K.signalOpen 0 v.toNat → s.selected.1 = false → Open.period v = 0 →
      Completes (.signalOpen v) s (s.wrote fun s =>
        let t := (log s false).freeAlign n
        t.modObj n fun _ => fresh t))
    ∧ (s.Accepts K.signalOpen 0 v.toNat → s.selected.1 = false → Open.period v ≠ 0 →
      Completes (.signalOpen v) s (s.wrote fun s =>
        let t := (log s false).freeAlign n
        let t := t.modObj n fun _ => fresh t
        let k := t.nextAlign
        (t.modAlign k fun _ => { alignCount := Open.alignCount v, period := Open.period v, object := n }).modObj n fun x =>
          { x with aligned := true, alignIndex := k }))
    ∧ (s.Accepts K.signalClose 0 1 → s.selected.1 = true → Completes .signalClose s (s.wrote fun s =>
      (log s true).modBarrier n fun x => { x with open_ := false }))
    ∧ (s.Accepts K.signalClose 0 1 → s.selected.1 = false → Completes .signalClose s (s.wrote fun s =>
      ((log s true).freeAlign n).modObj n fun x => { x with open_ := false }))

/-- TABLE_OPEN and TABLE_CLOSE of the table of TABLE_SELECT: an open that passes its checks leaves the table waiting
for the next boundary with the descriptor as read, a closed opening that lookups still read kept aside (log 109); a
close of an OPEN table leaves it closing, TABLE_RESULT reports each, and in RECORD each that changes the table's state
is logged as it is accepted, with the coming boundary's tick (log 33), a close with its epoch. The read of the
descriptor is a request with the hint KEEP where its block can be read (R302; log 98). VOXPOR_SWAP of a table begins
its scan: the swap is noted at the table, and nothing else changes. -/
def Obligations.TableWrites : Prop :=
  (
    ∀ s : State,
      let n := s.par K.tableSelect
      let log (s t : State) (v epoch : Nat) : State :=
        if (t.table n).state = (s.table n).state then t
        else t.logInput t.nextTick L.table 0 0 (at' n 364 12 + at' v 360 4 + at' epoch 328 32) []
      (s.Accepts K.tableCommand 0 1 → Completes .tableOpen s (s.wrote fun s =>
        let d := s.readTable n
        let s := s.keepRead (s.par K.tableDescBase + 64 * n)
        let reason := s.openReason (s.table n) d
        if reason = 0 then log s (((s.tableResult n 0).retireOpening n).modTable n fun _ => { d with state := 1 }) 1 0
        else s.tableResult n reason))
      ∧ (s.Accepts K.tableCommand 0 2 → Completes .tableClose s (s.wrote fun s =>
        if (s.table n).state = 2 then log s ((s.tableResult n 0).modTable n fun d => { d with state := 3 }) 2 (s.table n).epoch.toNat
        else s.tableResult n 1))
  )
  ∧ (
    ∀ (s : State) (tn : Nat), tn < 2 ^ 16 → s.Accepts K.voxporSwap 0 tn →
      Completes (.voxporSwap tn) s (s.wrote fun s => s.modTable tn fun t => { t with swap := some { start := s.tick.number } })
  )

/-- Writes of the Link Layer and of repeatability. LINK_ENABLE is in force at once on every port, START_BARRIER_GO at
the tick master sends START on its broadcast ports and is heard by the master itself, with the master's own next
boundary in it where it is for one chip and the tick runs, SOLDER_ARM arms with its counters at zero or disarms,
RNG_PROBE_IN draws, REPLAY_CONTROL waits for the boundary, LOG_CONSUMED moves the reader's place, and what waits for
room in the log goes into it. That a START for one chip carries the master's next boundary is the model's reading (log
102). -/
def Obligations.LinkAndReplayWrites : Prop :=
  ∀ (s : State) (v : BitVec 16) (g : BitVec 128) (x : BitVec 256) (c : BitVec 32) (m : Nat),
    (s.Accepts K.linkEnable 0 v.toNat → Completes (.linkEnableWrite v) s (s.wrote fun s =>
      (List.range s.build.linkPorts).foldl (fun s p => s.enableLink p (bit v.toNat p)) (s.setValue K.linkEnable 0 v.toNat)))
    ∧ (s.Accepts K.startBarrierGo 0 g.toNat → s.par K.tickMasterChip = s.chipId →
      let r := s.startOf g.toNat
      Completes (.startBarrierGo g) s (s.wrote fun s => (s.broadcast none r).actOnStart r (bits r 32 32))
      ∧ (s.tick.running = false → r = startRecord g.toNat)
      ∧ (s.tick.running = true → bitOf (startRecord g.toNat) 27 = false → bits r 64 64 = (s.tick.number + 1).toNat))
    ∧ (s.Accepts K.solderArm 0 1 → Completes (.solderArm 1) s (s.wrote fun s =>
      { s with links := { s.links with solderArmed := true, solderMatched := 0, solderInjected := 0 } }))
    ∧ (s.Accepts K.solderArm 0 0 → Completes (.solderArm 0) s (s.wrote fun s =>
      { s with links := { s.links with solderArmed := false } }))
    ∧ (s.Accepts K.rngProbeIn 0 x.toNat → Completes (.rngProbeIn x) s (s.wrote fun s =>
      let d := gisarDraw (fld x.toNat 192 64) (fld x.toNat 108 20) (fld x.toNat 160 32) (fld x.toNat 128 32)
      { s with replay := { s.replay with probeOut := BitVec.ofNat 64 d } }))
    ∧ (m ≤ 2 → s.Accepts K.replayControl 0 m → Completes (.replayControlWrite m) s (s.wrote fun s =>
      { s with
        dict := { s.dict with
          written := s.putValue s.dict.written K.replayControl 0 m
          deferred := s.dict.deferred ++ [(dictKey K.replayControl 0, m)] }
        replay := { s.replay with wanted := some m } }))
    ∧ (s.Accepts K.logConsumed 0 c.toNat → Completes (.logConsumedWrite c) s (s.wrote fun s =>
      State.logFlow { s with replay := { s.replay with consumed := c } }))

/-- RESET_REQUEST starts the level it names: L0 of a context with cause 0x01, L1 of a port unless a reset in progress
covers it, L2 of a partition, L3, L4 which counts toward Night, and L5, which is counted and logged, ends what resets
are in progress and is absorbed in another L5 (R398). How the requests reach the sequencer is the model's reading (log
59). Other writes to the Reset Sequencer. MC_HEARTBEAT notes the time; NIGHT_RELEASE clears the history and Night and
starts an L4 that does not count; DUMP_REQUEST captures the state where no dump is held and is otherwise counted as
skipped; DUMP_ACK frees a held dump; MEM_ZERO_FILL begins the fill it describes. What a dump captures, and that it
does so at its trigger, is the model's reading (log 60). -/
def Obligations.ResetWrites : Prop :=
  (
    ∀ (s : State) (n : Nat), n < 2 ^ 12 →
      (s.Accepts K.resetRequest 0 n → Completes (.resetRequestL0 n) s (s.wrote fun s => s.startL0 n 0x01))
      ∧ (s.Accepts K.resetRequest 0 (2 ^ 28 + n) → Completes (.resetRequestL1 n) s (s.wrote fun s =>
        if s.absorbsPort n then s else s.startL1 n false))
      ∧ (s.Accepts K.resetRequest 0 (2 * 2 ^ 28 + n) → Completes (.resetRequestL2 n) s (s.wrote fun s => s.startL2 n))
      ∧ (s.Accepts K.resetRequest 0 (3 * 2 ^ 28) → Completes .resetRequestL3 s (s.wrote fun s => s.startL3))
      ∧ (s.Accepts K.resetRequest 0 (4 * 2 ^ 28) → Completes .resetRequestL4 s (s.wrote fun s => s.startL4 true))
      ∧ (s.Accepts K.resetRequest 0 (5 * 2 ^ 28) → Completes .resetRequestL5 s (s.wrote fun s =>
        if s.absorbed 5 0 then s
        else
          let s := (s.bump K.resets 1 5).logReset 5 0 0
          let s := s.enginePorts.foldl (fun s p => s.modPort p fun e =>
            { e with inL1 := false, replaying := false, suspects := [] }) s
          { s with pins := { s.pins with trayPwrReqN := false }
                   resets := { s.resets with levels := [{ level := 5 }], l0s := s.resets.l0s.filter (·.complete) } }))
  )
  ∧ (
    ∀ (s : State) (b : BitVec 8) (v : BitVec 128),
      (s.Accepts K.mcHeartbeat 0 b.toNat → Completes (.mcHeartbeat b) s (s.wrote fun s =>
        { s with resets := { s.resets with mcBeat := s.clk.units / unitsPerMs } }))
      ∧ (s.Accepts K.nightRelease 0 1 → Completes .nightRelease s (s.wrote fun s =>
        ({ s with resets := { s.resets with history := [], night := false } } : State).startL4 false))
      ∧ (s.Accepts K.dumpRequest 0 1 →
        (s.resets.dump.state = 0 → Completes .dumpRequest s (s.wrote fun s => { s with resets := { s.resets with dump := {
          state := 1, trigger := 0, cause := 0, live := s.shadowed, prev := s.shadow, tick := s.tick.number
          hc := BitVec.ofNat 32 s.clk.hc } } }))
        ∧ (s.resets.dump.state ≠ 0 → Completes .dumpRequest s (s.wrote fun s => s.bump K.dumpsSkipped)))
      ∧ (s.Accepts K.dumpAck 0 1 → s.resets.dump.state = 2 → Completes .dumpAck s (s.wrote fun s =>
        { s with resets := { s.resets with dump := {} } }))
      ∧ (s.Accepts K.memZeroFill 0 v.toNat → Completes (.memZeroFill v) s (s.wrote fun s =>
        { s with resets := { s.resets with zeroFill := some (fld v.toNat 64 64, fld v.toNat 0 64) } }))
  )

/-- START_GO ends Dawn: the units kept stopped stay stopped, memory is empty and every port of it waits for its wipe,
reset is released at every memory port, and the start stages begin. That the wipe begins at START_GO is the model's
reading (log 62). POWER_REQUEST. A request for the state in force answers at once, one for P2 with a memory port not
ONLINE or a chunk wipe-pending is refused with POWER_RESULT 2; from P0 and P1 another waits for boundaries with
POWER_RESULT 1; from P2 one for P0 or P1 ends self-refresh; from P3 one raises CORE_PWR_REQ, and the exit waits for
core power. Which requests are rejected where the spec lists none, and what the P3 exit does, are the model's readings
(logs 54 and 61). SELFTEST_REQUEST. A disruptive test (MEM_MARCH, LINK_LOOPBACK, LOGIC_BIST) accepted at Noon waits
for the next boundary; any other accepted test runs at once. That a test accepted in Dawn starts at once is the
model's reading (log 61). -/
def Obligations.StartPowerAndTestWrites : Prop :=
  (
    ∀ s : State, s.Accepts K.startGo 0 1 →
      Completes .startGo s (s.wrote fun s =>
        let s := { s with
          disp := { s.disp with unitStopped := s.disp.unitKeep, unitStopReq := [], unitStart := [] }
          power := { s.power with stage := 0, started := true, noonLate := false } }
        let s := s.wipeMemory
        let s := (s.enginePorts.filter fun p => s.portWorks p && !s.disp.unitStopped.contains p).foldl
          (fun s p => s.modPort p fun e => { e with resetN := true, expired := false }) s
        let s := s.memoryPorts.foldl (fun s p => s.modMport p fun x => { x with resetN := true }) s
        let s := (s.linkPorts.filter s.linkEnabled).foldl
          (fun s p => (s.modLport p fun l => { l with resetN := true }).trainLink p) s
        s.rebuildMaps)
  )
  ∧ (
    ∀ (s : State) (c : Instr) (t : Nat),
      (c, t) ∈ [(Instr.powerRequestP0, 0), (.powerRequestP1, 1), (.powerRequestP2, 2), (.powerRequestP3, 3)] →
      s.Accepts K.powerRequest 0 t →
      let refused : Prop := t = 2 ∧ ∃ p ∈ s.memoryPorts, (s.mport p).state ≠ .online ∨ (s.mport p).wipe ≠ {}
      (t = s.power.state → Completes c s (s.wrote fun s => { s with power := { s.power with result := 0 } }))
      ∧ (t ≠ s.power.state → refused → Completes c s (s.wrote fun s => { s with power := { s.power with result := 2 } }))
      ∧ (s.power.state ≤ 1 → t ≠ s.power.state → ¬ refused → Completes c s (s.wrote fun s =>
        { s with power := { s.power with target := some t, result := 1 } }))
      ∧ (s.power.state = 2 → t ≤ 1 → Completes c s (s.wrote fun s =>
        ({ s with power := { s.power with target := some t, result := 1 } } : State).leaveP2 t))
      ∧ (s.power.state = 2 → t = 3 → Completes c s (s.wrote fun s =>
        { s with power := { s.power with target := some 3, result := 1 } }))
      ∧ (s.power.state = 3 → t ≤ 2 → ¬ refused → s.pins.corePwrGood = false → Completes c s (s.wrote fun s =>
        { s with
          power := { s.power with target := some t, result := 1, p3Exit := true }
          pins := { s.pins with corePwrReq := true } }))
  )
  ∧ (
    ∀ (s : State) (c : Instr) (kind v : Nat) (target : BitVec 16) (force : Bool),
      (c, kind, v) ∈ [(Instr.sramBist target, T.sramBist, T.sramBist * 2 ^ 16 + target.toNat),
        (.laneCal target, T.laneCal, T.laneCal * 2 ^ 16 + target.toNat),
        (.memRetrain target, T.memRetrain, T.memRetrain * 2 ^ 16 + target.toNat),
        (.memMarch target force, T.memMarch, flag force 31 + T.memMarch * 2 ^ 16 + target.toNat),
        (.linkLoopback target force, T.linkLoopback, flag force 31 + T.linkLoopback * 2 ^ 16 + target.toNat),
        (.logicBist target force, T.logicBist, flag force 31 + T.logicBist * 2 ^ 16 + target.toNat)] →
      s.Accepts K.selftestRequest 0 v →
      (16 ≤ kind → s.power.stage = 2 → Completes c s (s.wrote fun s => { s with power := { s.power with
        selfTest := { s.power.selfTest with state := 1, kind := kind, target := target.toNat, waitTick := true } } }))
      ∧ (kind < 16 ∨ s.power.stage ≠ 2 → Completes c s (s.wrote fun s =>
        State.runTest { s with power := { s.power with
          selfTest := { s.power.selfTest with state := 1, kind := kind, target := target.toNat, waitTick := false } } }))
  )

/-- DEBUG_LEVEL and the challenge. A write of the level in force changes nothing; in DEPLOYED a write that leaves OPEN
runs the L4 first; any other takes effect at once, the Solder grants clear and below OPEN Solder is disarmed; what a
dump in progress has read at OPEN by then is a free value (R470; log 60). A read of AUTH_CHALLENGE, served after the
requests that wait (R446; log 52), returns a fresh nonce, whose value is free, in place of an earlier one. -/
def Obligations.DebugLevelAndChallenge : Prop :=
  ∀ (s : State) (v : Nat), v ≤ 2 →
    (s.Accepts K.debugLevel 0 v →
      (v = s.mgmt.debugLevel → Completes (.debugLevelWrite v) s (s.wrote id))
      ∧ (v ≠ s.mgmt.debugLevel → s.mgmt.lcCount = 2 → s.mgmt.debugLevel = 2 →
        Completes (.debugLevelWrite v) s (s.wrote fun s => s.startL4 false true (some { level := v })))
      ∧ (v ≠ s.mgmt.debugLevel → ¬ (s.mgmt.lcCount = 2 ∧ s.mgmt.debugLevel = 2) →
        Completes (.debugLevelWrite v) s (s.wrote fun s =>
          let s := if v < 2 then s.lowerInDump else s
          let s : State := { s with mgmt := { s.mgmt with debugLevel := v, solderGrant := 0 } }
          if v < 2 then { s with links := { s.links with solderArmed := false } } else s)))
    ∧ (s.Managed → s.serveWaiting.dictCheck false (readReq K.authChallenge) = D.ok →
      let w := s.serveWaiting
      let t : State := { w.bump K.dictRequests with clk := { w.clk with freeCount := w.clk.freeCount + 1 } }
      let n := Config.nonce w.clk.freeCount
      Completes .authChallenge s { t with
        mgmt := { t.mgmt with nonce := some n }
        dict := { t.dict with lastResult := D.ok, lastValue := leBytes 48 (firstHigh 48 n.toNat) } })

/-- What an accepted grant does: OBSERVE and OPEN set the debug level, OPEN in DEPLOYED after an L4 that wipes; SOLDER
names its ports; DEPLOY and RETURN set the life-cycle state and run the L4 of a transition. -/
def Obligations.GrantsTakeEffect : Prop :=
  ∀ (s : State) (c : Instr) (g : Nat) (r x : BitVec 384) (ports : BitVec 16) (nonce : BitVec 384),
    (c, g) ∈ [(Instr.grantObserve r x, G.observe), (.grantOpen r x, G.open_), (.grantSolder r x ports, G.solder),
      (.grantDeploy r x, G.deploy), (.grantReturn r x, G.return_)] →
    let n := if g = G.solder then ports.toNat else 0
    s.Accepts K.authResponse 0 (authValue r x g n) → s.mgmt.nonce = some nonce → s.mgmt.authFailures < 8 →
    s.grantRefused g = false →
    Completes c s (s.wrote fun s =>
      let s : State := { s with mgmt := { s.mgmt with nonce := none } }
      if s.grantSigned nonce r.toNat x.toNat g n then
        let s : State := { s with mgmt := { s.mgmt with authResult := 1 } }
        if g = G.observe then s.setDebug 1
        else if g = G.open_ then
          if s.mgmt.lcCount = 2 then s.startL4 false true (some { level := 2 }) else s.setDebug 2
        else if g = G.solder then { s with mgmt := { s.mgmt with solderGrant := ports } }
        else if g = G.deploy then ({ s with mgmt := { s.mgmt with lcCount := 2 } } : State).startL4 false true none true
        else ({ s with mgmt := { s.mgmt with lcCount := 3 } } : State).startL4 false true none true
      else s.authFailure 2)

/-- Writes of life-cycle, firmware and debug memory. LIFECYCLE_PROVISION installs the key and makes the chip
PROVISIONED by an L4 that wipes; FW_LOAD_DATA puts bytes of the image at FW_LOAD_OFFSET, FW_LOAD_GO begins to verify
it; DEBUG_MEM_DATA writes, and reads, the block at DEBUG_MEM_ADDR; a block that cannot be read has all ones, which is
the model's choice (log 124). FW_LOAD_DATA and the read are served after the requests that wait (R446; log 52). -/
def Obligations.ProvisionFirmwareAndDebugMemoryWrites : Prop :=
  ∀ (s : State) (key : BitVec 768) (bytes : List (BitVec 8)) (data : BitVec 512),
    (s.Accepts K.lifecycleProvision 0 (firstHigh 96 key.toNat) → Completes (.lifecycleProvision key) s (s.wrote fun s =>
      ({ s with mgmt := { s.mgmt with ownerKey := key, lcCount := 1 } } : State).startL4 false true none true))
    ∧ (s.Managed → bytes.length = 1024 →
      s.serveWaiting.dictCheck false { writeReq K.fwLoadData 0 0 with length := 1024, value := bytes } = D.ok →
      Completes (.fwLoadData bytes) s (s.serveWaiting.wrote fun s => { s with mgmt := { s.mgmt with
        fwState := 1
        fwImage := bytes.zipIdx.foldl (fun i b => Sparse.set i 0 (s.par K.fwLoadOffset + b.2) b.1.toNat)
          s.mgmt.fwImage } }))
    ∧ (s.Accepts K.fwLoadGo 0 1 → Completes .fwLoadGo s (s.wrote fun s => { s with mgmt := { s.mgmt with fwState := 2 } }))
    ∧ (s.Accepts K.debugMemData 0 data.toNat → Completes (.debugMemWrite data) s (s.wrote fun s =>
      s.writeBytes (s.par K.debugMemAddr) (leBytes 64 data.toNat)))
    ∧ (s.Managed → s.serveWaiting.dictCheck false (readReq K.debugMemData) = D.ok →
      let u := s.serveWaiting
      let r := (u.bump K.dictRequests).readBytes (u.par K.debugMemAddr) 64
      let w : Block := if r.2.1 = .ok then r.1.peekWord (r.1.par K.debugMemAddr) else BitVec.allOnes 512
      Completes .debugMemRead s { r.1 with dict := { r.1.dict with lastResult := D.ok, lastValue := leBytes 64 w.toNat } })

/-- The sources of boundaries. The divider's, an edge of TICK_IN, the holdover that begins when no edge has come, and
a START whose TIME has elapsed each produce a boundary; an edge less than 16 µs after a boundary is only counted; a
follower that misses its marks runs free, raising TICK_LOST. Morning begins once every unit is ready: in DIVIDER mode
the first boundary comes with it. In the other modes it begins once the tick is running, in LINKED mode with a
boundary too (DESIGN CHOICE, log 117), with TICK_IN the stage alone changes. A boundary in P2: TICK_NUMBER advances by
one, hc starts from 0 and TICK_OUT rises, the tick master of a LINKED ring queues its tick mark, a record of MGMT's
class 3 that carries TICK_NUMBER and no time, on every broadcast port that is UP, and nothing of the frame's work
happens. Said where no power request waits, no teardown waits for the tick, and no replay follows or is asked for. The
phases take no time (DEDUCED, log 30). -/
def Obligations.BoundariesAndTheirSources : Prop :=
  (
    ∀ (s : State) (since : Nat), s.Managed →
      (s.tick.running = true → (s.par K.tickSource ≠ 1 ∨ s.tick.holdover = true) → Completes .tickBoundary s s.boundary)
      ∧ (s.par K.tickSource = 1 → (s.power.started = true ∨ s.power.state = 3) →
        (s.tick.frameOpen = true → since < 1600 → Completes (.tickInEdge since) s (s.bump K.tickInEarly))
        ∧ (s.tick.frameOpen = false ∨ 1600 ≤ since →
          Completes (.tickInEdge since) s (State.boundary { s with tick := { s.tick with holdover := false, running := true } })))
      ∧ (s.par K.tickSource = 1 → s.tick.running = true → s.tick.holdover = false →
        Completes .tickInHoldover s (State.boundary (let t := s.raise A.tickLost
          { t with tick := { t.tick with holdover := true } })))
      ∧ (s.par K.tickSource = 2 → s.tick.running = true → 4 ≤ s.links.noMarkTicks → s.tick.freeRun = false →
        Completes .tickMarksMissing s (let t := s.raise A.tickLost
          { t with tick := { t.tick with freeRun := true } }))
      ∧ (∀ (number : BitVec 64) (at_ : Int), s.tick.startArmed = some (number, at_) →
        Completes .startTimeElapsed s (State.boundary { s with
          tick := { s.tick with number := number - 1, running := true, startArmed := none } }))
      ∧ Completes .tickOutPulseEnd s { s with tick := { s.tick with tickOut := false } }
  )
  ∧ (
    ∀ s : State, s.Running → s.morningMayBegin = true →
      (s.par K.tickSource = 0 → Completes .morningBegin s (State.boundary { s with
        power := { s.power with stage := 1 }, tick := { s.tick with running := true } }))
      ∧ (s.par K.tickSource = 2 → s.tick.running = true →
        Completes .morningBegin s (State.boundary { s with power := { s.power with stage := 1 } }))
      ∧ (s.par K.tickSource ≠ 0 → s.par K.tickSource ≠ 2 → s.tick.running = true →
        Completes .morningBegin s { s with power := { s.power with stage := 1 } })
      ∧ (s.par K.tickSource ≠ 0 → s.tick.running = false → Completes .morningBegin s s)
  )
  ∧ (
    ∀ s : State, s.Managed → s.tick.running = true → s.par K.tickSource ≠ 1 → s.power.state = 2 → s.power.target = none →
      s.resets.l0s = [] → s.replay.mode ≠ 2 → s.replay.wanted = none →
      ∃ t, Completes .tickBoundary s t ∧ t.tick.number = s.tick.number + 1 ∧ t.clk.hc = 0 ∧ t.tick.tickOut = true
        ∧ t.tick.frameOpen = true ∧ t.mat = s.mat ∧ t.adm = s.adm ∧ t.loader = s.loader ∧ t.disp = s.disp
        ∧ t.sig = s.sig ∧ t.route = s.route ∧ t.resets = s.resets ∧ t.mgmt = s.mgmt ∧ t.power = s.power
        ∧ (s.par K.tickSource = 2 → s.par K.tickMasterChip = s.chipId →
          t.links = (s.broadcast none (BitVec.ofNat 128 ((s.tick.number + 1).toNat * 2 ^ 64))).links)
        ∧ (s.par K.tickSource = 2 → s.par K.tickMasterChip ≠ s.chipId →
          t.links = { s.links with noMarkTicks := s.links.noMarkTicks + 1 })
        ∧ (s.par K.tickSource ≠ 2 → t.links = s.links)
  )

/-- MGMT records. A tick mark taken from a port gains the link's delay and the time it stayed, goes on to the other
ports, and is heard; a START loses both. The time a record stays in the chip is a free value. The record e that the
command serves then leaves the receive buffers. -/
def Obligations.TickMarksAndStarts : Prop :=
  ∀ (s : State) (p : Nat) (r : BitVec 128) (e : Delivered), s.Running → s.hasLink p = true →
    s.Serves { port := some p, src := (s.lport p).partner, vc := 3, family := Fam.mgmt, slots := [r] } e →
    let stay : Int := (Config.residence s.clk.freeCount).toNat
    let aged : State := { s with clk := { s.clk with freeCount := s.clk.freeCount + 1 } }
    let later : Int := (bits r 32 32 + (s.lport p).delay : Nat)
    let sooner : Int := (bits r 32 32 : Int) - (s.lport p).delay
    Completes (.tickMark p r) s
      (((aged.broadcast (some p) (withTime r (later + stay))).hearMark (bits r 64 64) later).takeRecord e)
    ∧ Completes (.start p r) s (((aged.broadcast (some p) (withTime r (sooner - stay))).actOnStart r sooner).takeRecord e)

/-- The Delay Lists. An expired entry leaves the head of the lists: of a torn-down generation it is only counted; a
deadline that is not met counts DEADLINES_MISSED, logs the event and marks its request late; a delayed result becomes
releasable. -/
def Obligations.ExpiriesLeaveTheDelayLists : Prop :=
  ∀ (s : State) (d : DelayEntry), s.Running → s.expired = some d →
    (d.gen ≠ (s.ctx d.ctx).gen →
      (d.release = false → Completes .deadlineExpiry s (s.dropDelay.bump K.delayStaleDropped))
      ∧ (d.release = true → Completes .delayedReleaseExpiry s (s.dropDelay.bump K.delayStaleDropped)))
    ∧ (d.gen = (s.ctx d.ctx).gen → d.release = false →
      (d.doneAtTick = true → Completes .deadlineExpiry s s.dropDelay)
      ∧ (d.doneAtTick = false → Completes .deadlineExpiry s (s.dropDelay.missDeadline d)))
    ∧ (∀ n, d.gen = (s.ctx d.ctx).gen → d.release = true → s.dropDelay.flowHold d.flow d.seq = some n →
      Completes .delayedReleaseExpiry s (
        let t := s.dropDelay.modHold n fun h => { h with delayed := false }
        if ((t.hold n).map (·.phase)) = some .complete then t.offerRelease n else t))

/-- The Step Loader. A load that passes its checks makes the image resident, one that fails keeps the slot and counts
IMAGE_LOADS_REFUSED; the instance admitted first that waits takes the lowest window of its width that is free, its
slots RESERVED for it; and an instance's next template fills its slot and is examined. That the window is the lowest
one that is free is the model's reading (log 47). -/
def Obligations.StepLoaderCommands : Prop :=
  ∀ s : State, s.Running →
    (∀ (op : LoadOp) (t : State) (r : Nat) (i : Image), s.loader.op = some op →
      (s.asking .loader).examineImage op.addr op.slot op.part = (t, r, i) →
      (State.endLoad (s.asking .loader)).stripe.stuck = none →
      let done : State := { t with loader := { t.loader with op := none, result := loadResult r op.slot false } }
      (r ≠ Load.loaded → Completes .imageLoadComplete s ((done.bump K.imageLoadsRefused).doneAsking .loader))
      ∧ (r = Load.loaded → (s.asking .loader).logRoom = true →
        Completes .imageLoadComplete s (((done.logImage op.slot 1 i.digest).putImage op.slot i).doneAsking .loader)))
    ∧ (∀ (i : Instance) (k : Nat), s.loader.instances.find? (fun i => i.base.isNone && !s.tearing i.ctx) = some i →
      s.freeWindow i.width = some k →
      Completes .windowReserve s
        ((s.modInst i.id fun i => { i with base := some (k * i.width) }).reserveSlots i (k * i.width)))
    ∧ (∀ (id b : Nat) (i : Instance), s.inst id = some i → i.base = some b → i.inst < i.count →
      (s.slot (i.slotOf i.inst)).state = .reserved → s.tearing i.ctx = false → i.prevDone = true →
      let n := i.slotOf i.inst
      Completes (.templateInstantiate id) s
        (((s.modSlot n fun _ => s.newSlot i i.inst).modInst id fun i => { i with inst := i.inst + 1 }).checkInputs n))

/-- Doorbells. A record or word written to an aperture bound to a queue is offered to that queue, and the aperture's
status shows the answer, counting the accepted words; a write to an aperture without a binding is discarded and
counted. Either way the control port answers the write with its response. The same for STEP, JOB_OPEN, JOB_CLOSE,
JOIN, LEAVE and a DATA word: which of them a record is, its own fields say. What an unbound aperture does, and that
the record's own COMMAND decides, are the model's readings (log 66). What a queue answers to an offered record, by the
tests in their order: BUSY while the service is closed, in a replay, or where the queue is disabled or of another
kind; QUEUE_FULL where it has no room; STALE_GEN where GEN is not the context's; BUSY where the record is not the
context's or is not valid now; else OK, and the record is accepted. The order of the tests is the model's reading (log
66). -/
def Obligations.DoorbellsAnswerTheirRecords : Prop :=
  (
    ∀ (s : State) (c : Instr) (a : Nat) (w : BitVec 512), s.Running → a < 2048 →
      c ∈ [.step a w, .jobOpen a w, .jobClose a w, .join a w, .leave a w, .doorbellDataWord a w] →
      let b := s.par K.doorbellBind a
      let status (t : State) (f : Doorbell → Doorbell) : State := { t with qs := { t.qs with
        doorbells := Sparse.set t.qs.doorbells {} a (f (Sparse.get t.qs.doorbells {} a)) } }
      (bit b 15 = false →
        Completes c s ((status (s.bump K.doorbellMalformed) fun d => { d with last := .busy }).emit (.controlResponse 0)))
      ∧ (bit b 15 = true →
        Completes c s (
          let x := s.offerTo (b % 2 ^ 14) w true
          let counted := match x.1 with
            | .queueFull => x.2.bump K.doorbellQueueFull
            | .staleGen => x.2.bump K.doorbellStaleGen
            | .busy => x.2.bump K.doorbellBusy
            | _ => x.2
          (status counted fun d =>
            { d with accepted := d.accepted + (if x.1 = .ok then 1 else 0), last := x.1 }).emit (.controlResponse 0)))
  )
  ∧ (
    ∀ (s : State) (n : Nat) (w : BitVec 512), ((s.queue n).kind = 0 ∨ (s.queue n).kind = 1) →
      let q := s.queue n
      let closed := s.doorbellsClosed = true ∨ s.replaying = true ∨ q.enable = false
      let full := q.isFull = true ∨ s.logRoom = false
      let stale := Req.gen w ≠ (s.ctx (Req.ctx w)).gen
      let other := Req.ctx w ≠ q.ctx ∨ s.recordPart q.kind w ≠ some (Req.part w) ∨ s.recordOk q.kind w = false
      (closed → s.offerTo n w true = (.busy, s))
      ∧ (¬ closed → full → s.offerTo n w true = (.queueFull, s))
      ∧ (¬ closed → ¬ full → stale → s.offerTo n w true = (.staleGen, s))
      ∧ (¬ closed → ¬ full → ¬ stale → other → s.offerTo n w true = (.busy, s))
      ∧ (¬ closed → ¬ full → ¬ stale → ¬ other → s.offerTo n w true = (.ok, s.acceptRecord n w))
  )

/-- A JOB_CLOSE takes effect once every request of its context accepted before it is complete: its record completes,
the job closes, and the next JOB_CLOSE of the context that was admitted, if any, waits in its place. The results of a
flow leave in FLOW_SEQ order. Records that waited for room in their queues are posted first, and then the flow's
results while they may: where the next in sequence is not releasable, where a record of a LEAVE of the flow waits
before it, or where its RESULT queue has no room for it, none leaves; otherwise it is posted, the sequence moves on by
one, and the one after it is next. -/
def Obligations.JobsCloseAndResultsLeave : Prop :=
  (
    ∀ (s : State) (c n : Nat) (h : Hold), s.Running → (s.ctx c).closeHold = some n → s.hold n = some h →
      (s.earlierDone h = true →
        let t := s.completeRequest n
        Completes (.jobCloseEffect c) s
          (t.modCtx c fun x => { x with job := false, closePending := (t.nextClose c).isSome, closeHold := t.nextClose c }))
      ∧ (s.earlierDone h = false → Completes (.jobCloseEffect c) s s)
  )
  ∧ (
    ∀ (s : State) (f : Nat), s.Running →
      Completes (.resultRelease f) s (State.releaseFlow f 17 s.postWaiting)
      ∧ ∀ (x : State) (k : Nat),
        let t := x.offerLeaves f
        let e := t.flow f
        (e.done.getLsbD 0 = false ∨ t.leaveWaits f = true → State.releaseFlow f (k + 1) x = t)
        ∧ ∀ n h, e.done.getLsbD 0 = true → t.leaveWaits f = false → t.flowHold f e.rel = some n → t.hold n = some h →
          (t.resultRoom e.resultQueue h.words = false → State.releaseFlow f (k + 1) x = t)
          ∧ (t.resultRoom e.resultQueue h.words = true → State.releaseFlow f (k + 1) x =
            State.releaseFlow f k
              ((t.post e.resultQueue n).modFlow f fun e => { e with rel := e.rel + 1, done := e.done >>> 1 }))
  )

/-- A read of a read aperture answers the word at HEAD of the queue it is bound to, as its consumer sees it, and the
word leaves the queue; where it is bound to no queue, or none of the queue's words is visible, it answers zeros. A
pending flush takes effect once no packet is open on either side of its queue, and not before. A QUEUE record of
another chip. One for a queue that is not an enabled DATA queue of the record's partition is taken and discarded, and
QUEUE_PROTOCOL is raised. Otherwise its words are offered to the queue in order, as one producer: where all of them
are done with, the record leaves; where one must wait, or the producer waits there already, the record is held with
the number of words done with. -/
def Obligations.AperturesFlushesAndQueueRecords : Prop :=
  (
    ∀ (s : State) (a n : Nat), s.Running →
      (s.apertureQueue a = none → Completes (.readApertureRead a) s { s with out := [.controlResponse 0] })
      ∧ (s.apertureQueue a = some n →
        Completes (.readApertureRead a) s (State.consumeWord { s with out := [.controlResponse (s.headWord n)] } n))
      ∧ ((s.queue n).flushPending = true → (s.queue n).packetOpen = false → (s.queue n).readOpen = false →
        Completes (.queueFlushEffect n) s (s.flushNow n))
      ∧ ((s.queue n).flushPending = false ∨ (s.queue n).packetOpen = true ∨ (s.queue n).readOpen = true →
        Completes (.queueFlushEffect n) s s)
  )
  ∧ (
    ∀ (s : State) (src : Nat) (h : BitVec 128) (words : List (BitVec 512)) (e : Delivered), s.Running →
      s.Serves { src := src, vc := 2, family := Fam.queue, slots := h :: words.flatMap blockSlots } e →
      let q := s.queue (bits (e.slots.headD 0) 114 14)
      let ok := q.enable = true ∧ q.kind = 3 ∧ q.part = bits (e.slots.headD 0) 110 4
      let waits := q.waiting.any fun x => x.1 == e.producer
      let r := State.offerWords (bits (e.slots.headD 0) 114 14) e.producer e.got s (e.queueWords.drop e.got)
      (¬ ok → Completes (.queue src h words) s ((s.raise A.queueProtocol).takeRecord e))
      ∧ (ok → waits = true → Completes (.queue src h words) s (s.holdRecord e e))
      ∧ (ok → waits = false → e.queueWords.length ≤ r.1 → Completes (.queue src h words) s (r.2.takeRecord e))
      ∧ (ok → waits = false → r.1 < e.queueWords.length →
        Completes (.queue src h words) s (r.2.holdRecord e { e with got := r.1 }))
  )

/-- Q_ENQUEUE and Q_DEQUEUE of a ready queue task: a request block that cannot be read ends the task with the read's
status, one that breaks a rule of its fields ends it CANCELLED with QUEUE_PROTOCOL, and otherwise the words move. A
Q_ENQUEUE reads its block once: one under way goes on from where it stands, under the block that it began with. Said
of a Q_DEQUEUE that has room in the log and follows no replay; one that moves nothing because it ends so is logged as
such. A producer that waits at a queue goes on with its word once the queue takes it. That such a Q_DEQUEUE is logged
with nothing taken is a design choice (log 97); in which order those who wait are served before others is the model's
reading (log 122). -/
def Obligations.QueueTasks : Prop :=
  ∀ (s : State) (n : Nat),
    let x := s.atWork n
    let t := (x.requestBlock n).1
    let st := (x.requestBlock n).2.1
    let b := (x.requestBlock n).2.2
    let refuse (q : Nat) (f : State → State) : State := f (t.logDequeueWith n q 0 0 [])
    (s.Works n Op.qEnqueue (qEnqueueEff n) → x.taskWaits n = false →
      ((x.slot n).request = 0 → Completes (.qEnqueue n) s (State.doneAsking (
        if st.isData then t.dataDone n st []
        else if t.queueReqBad n b true then t.queueRefuse n
        else State.enqueueRest n (t.modSlot n fun y => { y with request := b, out0 := 0 })) (.task n (s.slot n).inst)))
      ∧ ((x.slot n).request ≠ 0 →
        Completes (.qEnqueue n) s (State.doneAsking (x.enqueueRest n) (.task n (s.slot n).inst))))
    ∧ (s.Works n Op.qDequeue (qDequeueEff n) → t.following = false → t.logRoom = true →
      Completes (.qDequeue n) s (State.doneAsking (
        if st.isData then refuse 0 fun s => s.dataDone n st []
        else if t.queueReqBad n b false then refuse (QReq.queue b) fun s => s.queueRefuse n
        else if t.headTooLong (QReq.queue b) (QReq.words b) then refuse (QReq.queue b) fun s => s.queueRefuse n
        else
          let span := t.takeSpan (QReq.queue b) (QReq.words b) (QReq.maxPackets b) 0 0
          (t.logDequeue n (QReq.queue b) span.1 span.2).moveWords n b span.1 span.2) (.task n (s.slot n).inst)))
    ∧ (∀ (m : Nat) (e : Producer × Block), s.Running → (s.queue m).enable = true → (s.queue m).kind = 3 →
      (s.queue m).waiting.find? (s.queue m).serves = some e →
      let u := s.modQueue m fun q => { q with waiting := dropFirst (· == e) q.waiting }
      (e.1.kind = .link → Completes (.queueProducerResume m) s (u.resumeRecord m e.1))
      ∧ (e.1.kind ≠ .link → (s.queue m).admits e.1 e.2 = .taken →
        Completes (.queueProducerResume m) s ((u.enqueueData m e.1 e.2).taskResumed e.1.id e.2))
      ∧ (e.1.kind ≠ .link → (s.queue m).admits e.1 e.2 ≠ .taken →
        Completes (.queueProducerResume m) s ((u.raise A.queueProtocol).taskStopped e.1.id)))

/-- Matching. The first token that waits at a bank leaves it: a token of an old generation is only counted, one that
breaks a rule is counted, raises MATCH_PROTOCOL and tears its context down, and a matched one is applied to its slot,
which is then examined. -/
def Obligations.TokensAreMatched : Prop :=
  ∀ (s : State) (bank : Nat) (t : BitVec 128), s.Running →
    s.mat.tokens.find? (fun t => Tok.slot t % 16 == bank) = some t →
    let left : State := { s with mat := { s.mat with
      tokens := dropFirst (fun t => Tok.slot t % 16 == bank) s.mat.tokens } }
    let n := Tok.slot t
    let c := Tok.ctx t
    (Tok.gen t ≠ (s.ctx c).gen → Completes (.tokenMatch bank) s (left.bump K.tokensStaleDropped))
    ∧ (Tok.gen t = (s.ctx c).gen → (s.slot n).ctx ≠ c ∨ (s.slot n).state ≠ .waiting → Completes (.tokenMatch bank) s
        (((left.bump K.tokensProtocolDropped).raise A.matchProtocol).startL0 c 0x04))
    ∧ (Tok.gen t = (s.ctx c).gen → (s.slot n).ctx = c → (s.slot n).state = .waiting → Tok.isOperand t = false →
      (Tok.count t > (s.slot n).counter → Completes (.tokenMatch bank) s
        (((left.bump K.tokensProtocolDropped).raise A.matchProtocol).startL0 c 0x04))
      ∧ (Tok.count t ≤ (s.slot n).counter → Completes (.tokenMatch bank) s
        (((left.modSlot n fun q => { q with counter := q.counter - Tok.count t }).bump K.tokensMatched).checkInputs n)))
    ∧ (Tok.gen t = (s.ctx c).gen → (s.slot n).ctx = c → (s.slot n).state = .waiting → Tok.isOperand t = true →
      let m := mask4 (Tok.operand t)
      (Tpl.operandMask (s.slotTpl n) &&& m = 0 ∨ (s.slot n).present &&& m ≠ 0 → Completes (.tokenMatch bank) s
        (((left.bump K.tokensProtocolDropped).raise A.matchProtocol).startL0 c 0x04))
      ∧ (Tpl.operandMask (s.slotTpl n) &&& m ≠ 0 → (s.slot n).present &&& m = 0 → Completes (.tokenMatch bank) s
        (((left.modSlot n fun q => { q.setOp (Tok.operand t) (Tok.value t) with
          present := q.present ||| m, empty := if Tok.empty t then q.empty ||| m else q.empty }).bump
            K.tokensMatched).checkInputs n)))

/-- Tasks on their way. A held task that nothing holds any more is promoted; a ready null task, a task all of whose
edge operands are EMPTY and a task that a unit resolved are accepted without issue; a Dispatcher issues one item, with
a DISCARD before a suspect before a bound claimant before the Steel band before the Tin band; and the first completion
whose fence is clear has its tokens formed and its template retired. -/
def Obligations.TasksResolveIssueAndRetire : Prop :=
  ∀ (s : State) (n : Nat), s.Running →
    ((s.slot n).state = .held → (s.slot n).parked = false → s.holds n = false → s.tearing (s.slot n).ctx = false →
      Completes (.holdLift n) s (s.promote n))
    ∧ ((s.slot n).state = .ready → s.nullRoom = true → s.tearing (s.slot n).ctx = false →
      ((s.slot n).cls = 0xF → Completes (.nullTaskResolve n) s (s.accept n .ok [] false none false 0))
      ∧ ((s.slot n).skips (s.slotTpl n) = true →
        Completes (.taskSkip n) s ((s.bump K.tasksSkipped).accept n .skipped [] true none false 0))
      ∧ ((s.slot n).resolved = true → Completes (.waitResolve n) s
        (s.accept n (s.slot n).status [(s.slot n).out0] (resolvesEmpty (s.slotOp n) (s.slot n).status) none false 0)))
    ∧ (∀ (d : Nat) (t : State), d < s.dispatchers →
      (s.tryDiscard d = some t → Completes (.dispatch d) s t)
      ∧ (s.tryDiscard d = none → s.trySuspect d = some t → Completes (.dispatch d) s t)
      ∧ (s.tryDiscard d = none → s.trySuspect d = none → s.tryBound d = some t → Completes (.dispatch d) s t)
      ∧ (s.tryDiscard d = none → s.trySuspect d = none → s.tryBound d = none → s.tryBand d false = some t →
        Completes (.dispatch d) s t)
      ∧ (s.tryDiscard d = none → s.trySuspect d = none → s.tryBound d = none → s.tryBand d false = none →
        s.tryBand d true = some t → Completes (.dispatch d) s t))
    ∧ (∀ (c : PendingCompletion) (i : Instance),
      s.mat.pend.find? (fun c => !c.fenced && !s.tearing (s.slot c.slot).ctx) = some c →
      s.inst (s.slot c.slot).inst = some i →
      let t : State := { s with mat := { s.mat with pend := dropFirst (· == c) s.mat.pend } }
      Completes .tokenForm s (State.retire { t with mat := { t.mat with
        tokens := t.mat.tokens ++ (t.edgesOf i (t.slot c.slot).tmpl).map (t.edgeToken i c) } } c.slot))

/-- Records and reports of an engine port that runs a task, charged for its time on the port: a DONE record is
accepted with its outputs and the port is free, a JOB_FAULT record ends the task without a port, and any other record
is the engine's fault. So is the task watchdog once four times the declared duration has passed; a record that comes
after it is only counted, and one with no task held raises MATCH_PROTOCOL. Every fence of the port clears whose task's
writes are done. Said of a port outside its reset that has not failed. -/
def Obligations.EngineRecords : Prop :=
  ∀ (s : State) (p : Nat) (r : BitVec 320) (y : BitVec 64), s.Running → s.hasEngine p = true → (s.port p).failed = false →
    (s.port p).resetN = true →
    (∀ n, (s.port p).held = some n → (s.port p).expired = false →
      let u := (s.raced p n).chargeEngine n
      let t := (u.freeBuffer n).modPort p fun e => { e.orphan n with held := none }
      (Cmpl.status r = 0 → Completes (.completionRecord p r) s
        ((t.accept n .ok ((List.range 4).map (Cmpl.output r)) false (some p) false (u.writesOf n)).portReleased p))
      ∧ (Cmpl.status r = 1 → Completes (.completionRecord p r) s
        (((t.modSlot n fun q => { q with noPort := true }).jobFault n 0x02).portReleased p))
      ∧ (2 ≤ Cmpl.status r → Completes (.completionRecord p r) s (u.engineFault p))
      ∧ (s.overdue n = true →
        Completes (.taskWatchdogExpiry p) s
          ((((s.bump K.taskWatchdogExpiries).raise A.taskWatchdog).engineFault p).modPort p fun e =>
            { e with expired := true })))
    ∧ ((s.port p).expired = true → Completes (.completionRecord p r) s (s.bump K.completionsLateDropped)
      ∧ Completes (.yieldRecord p y) s (s.bump K.completionsLateDropped))
    ∧ ((s.port p).expired = false → (s.port p).held = none → Completes (.completionRecord p r) s (s.raise A.matchProtocol)
      ∧ Completes (.yieldRecord p y) s (s.raise A.matchProtocol))
    ∧ Completes (.writeFenceClear p) s { s with mat := { s.mat with
      pend := s.mat.pend.map fun c => if c.port == some p && s.writesOf c.slot == 0 then { c with fenced := false } else c } }

/-- Pre-emption. A claimant that has waited long enough asks for the victim's yield; a port that does not answer in
time is counted once; a yield the request did not ask for is the engine's fault and an accepted one parks the victim,
or discards it where its context is torn down. The switch then spills, restores and issues the incoming task in turn;
an incoming task to be resumed whose flow has been suspended goes back to its Ready List and is not issued. Corners of
the choice of a victim are the model's readings (logs 69 and 85). -/
def Obligations.PreemptionSwitchesTasks : Prop :=
  ∀ (s : State) (p : Nat), s.Running → s.hasEngine p = true →
    (∀ (c : ReadyEntry) (q : Nat), s.claimant p = some c → bit (s.par K.preemptEnable) (s.slot c.slot).part = true →
      s.isBound c.slot = false → c.refused = false → s.par K.preemptWaitHc ≤ s.clk.abs - c.at_ → s.victimPort p = some q →
      Completes (.preemptRequest p) s (s.requestPreempt q (s.incomingNeed c.slot) (some c.slot)))
    ∧ ((s.port p).preempt = true → (s.port p).held.isSome = true → (s.port p).lateCounted = false →
      Completes (.yieldBoundExpiry p) s ((s.bump K.yieldsLate).modPort p fun e => { e with lateCounted := true }))
    ∧ (∀ (n : Nat) (y : BitVec 64), (s.port p).failed = false → (s.port p).resetN = true → (s.port p).expired = false →
      (s.port p).held = some n →
      let asked := (s.port p).preempt = true ∧ (s.port p).preemptTag = (s.port p).issueTag
      let fits := Yield.live y % 64 = 0 ∧ Yield.live y ≤ s.scratch (Cfg.cls (s.portConfig p))
      (¬ (asked ∧ fits) → Completes (.yieldRecord p y) s (s.engineFault p))
      ∧ (asked → fits → s.tearing (s.slot n).ctx = true →
        Completes (.yieldRecord p y) s ((s.yieldTorn p n (Yield.live y)).drainStop p))
      ∧ (asked → fits → s.tearing (s.slot n).ctx = false →
        Completes (.yieldRecord p y) s ((s.yieldAccepted p n (Yield.live y)).drainStop p)))
    ∧ (∀ w : Switch, (s.port p).sw = some w →
      (∀ (d : SysDesc) (rest : List SysDesc), w.spilling = true → w.spills = d :: rest → s.writesOf d.slot = 0 →
        Completes (.spillEnd p) s (
          let t := s.modPort p fun e => { e with sw := some { w with spilling := false, spills := rest } }
          ((State.writeSpills p w.spills.length t).spillsDone p).drainStop p))
      ∧ (∀ (d : SysDesc) (rest : List SysDesc), w.spills = [] → w.spilling = false → s.comesIn w = true →
        w.restores = d :: rest →
        Completes (.restoreIssue p) s
          ((s.putDescriptor p d.word).modPort p fun e => { e with sw := some { w with restores := rest } }))
      ∧ (∀ n : Nat, w.spills = [] → w.spilling = false → w.incoming = some n →
        (s.tearing (s.slot n).ctx = true →
          Completes (.switchIncomingIssue p) s ((s.modPort p fun e => { e with sw := none }).drainStop p))
        ∧ (s.tearing (s.slot n).ctx = false → s.resumeHeld n = true →
          Completes (.switchIncomingIssue p) s (((s.dropIncoming p).spillsDone p).drainStop p))
        ∧ (s.tearing (s.slot n).ctx = false → s.resumeHeld n = false → w.restores = [] →
          Completes (.switchIncomingIssue p) s (s.issueIncoming p n w))))

/-- Engine ports and stalls. EP_READY that rises ends an L1 or makes the port ready, one that falls starts an L1 or is
the fault of the task held; a reset is released, which ends the L1 where EP_READY is high already (DEDUCED, log 116),
and fails the port where the engine does not come back; a stop of an idle unit takes effect. A data task, a
Dispatcher, a data unit and a task without an engine that make no progress are reset at their level. -/
def Obligations.EnginePortsAndStalls : Prop :=
  ∀ (s : State) (p n : Nat), s.Running →
    (s.hasEngine p = true →
      ((s.port p).failed = false → (s.port p).resetN = true →
        ((s.port p).inL1 = true → Completes (.epReadyRise p) s (s.finishL1 p))
        ∧ ((s.port p).inL1 = false →
          Completes (.epReadyRise p) s (s.modPort p fun e => { e with epReady := true, restoring := false }))
        ∧ ((s.port p).epReady = true →
          let t := s.modPort p fun e => { e with epReady := false }
          Completes (.epReadyFall p) s (if (s.port p).held.isSome then t.engineFault p else t.requestL1 p false)))
      ∧ ((s.port p).inL1 = true → (s.port p).resetN = false → s.resets.night = false → s.power.state ≠ 2 →
        let t := s.modPort p fun e => { e with resetN := true }
        ((s.port p).epReady = false → Completes (.epResetRelease p) s t)
        ∧ ((s.port p).epReady = true → Completes (.epResetRelease p) s (t.finishL1 p)))
      ∧ (((s.port p).inL1 = true ∧ (s.port p).resetN = true) ∨ (s.port p).restoring = true →
        Completes (.engineResetTimeout p) s (s.failPort p)))
    ∧ (∀ u, s.disp.unitStopReq.contains u = true → s.unitIdle u = true →
      let t : State := { s with disp := { s.disp with
        unitStopReq := s.disp.unitStopReq.filter (· ≠ u), unitStopped := uniq (s.disp.unitStopped ++ [u]) } }
      Completes (.unitStopEffect u) s (if u < 64 then t.stopPort u else t))
    ∧ ((s.slot n).state = .issued → (s.slot n).cls = 0xC → s.overdue n = true → s.mat.aborts.contains n = false →
      Completes (.dataTaskWatchdogExpiry n) s
        (((s.bump K.taskWatchdogExpiries).raise A.taskWatchdog).startL0 (s.slot n).ctx 0x05))
    ∧ (s.mat.aborts.contains n = true → Completes (.dataUnitStall n) s ((s.raise A.dataUnitStall).startL3))
    ∧ (∀ d, s.hasCandidate d = true → Completes (.dispatchStall d) s ((s.raise A.dispatchStall).startL3))
    ∧ ((s.mat.ready.any fun e => e.slot == n && !e.data) = true →
      (∀ e < 64, ∀ q, s.mapPort (s.slot n).part (s.slot n).cls e = some q → s.portWorks q = false) →
      Completes (.noEngine n) s (s.startL0 (s.slot n).ctx 0x06))

/-- Signals that reach an object or barrier of this chip. A SIGNAL of amount a at a live counting object adds a, or
saturates it and raises SIGNAL_SATURATED; at a live binary object it sets COUNT to 1 or counts an overrun; a barrier
takes the arrival, and its last one starts the next phase and resolves the parked arrivals. A command for a closed
target is dropped and counted, one with a bad field, or received over a link for another chip, raises SIGNAL_PROTOCOL
too; one that must enter a full held-signal buffer stays on its link. A command of a source on this chip goes on
stamped with the current tick, an engine's once no write is ahead of it, and one of the host DMA port, which the log
takes first, is held where the log has no room. Commands held for their tick are applied in arrival order, and sources
that waited go on. Objects that hold a command back for its stamp are left out of the first half. -/
def Obligations.SignalsAndArrivalsApply : Prop :=
  ∀ s : State,
    let dropped := s.bump K.signalsDroppedClosed
    (∀ w : SigCmd,
      let cmd := w.cmd
      let o := Sig.number cmd
      let a := Sig.amount cmd
      (Sig.bad cmd = true → s.applyCommand w = dropped.raise A.signalProtocol)
      ∧ (Sig.bad cmd = false → Sig.op cmd ≠ 1 →
        (s.objLive o = false → s.applyCommand w = dropped)
        ∧ (s.objLive o = true → (s.obj o).aligned = false ∨ s.stampLater cmd = false →
          ((s.obj o).binary = false → (s.obj o).count.toNat + a ≤ 0xFFFFFFFF → s.applyCommand w =
            ((s.modObj o fun x => { x with count := x.count + BitVec.ofNat 32 a }).bump K.signalsApplied).serve o)
          ∧ ((s.obj o).binary = false → (s.obj o).count.toNat + a > 0xFFFFFFFF → s.applyCommand w =
            (((s.modObj o fun x => { x with count := 0xFFFFFFFF, sat := true }).bump K.signalsSaturated).raise
              A.signalSaturated).serve o)
          ∧ ((s.obj o).binary = true → (s.obj o).count = 0 →
            s.applyCommand w = ((s.modObj o fun x => { x with count := 1 }).bump K.signalsApplied).serve o)
          ∧ ((s.obj o).binary = true → (s.obj o).count ≠ 0 → s.applyCommand w =
            (s.modObj o fun x => { x with overrun := Nat.min 255 (x.overrun + 1) }).bump K.signalsCoalesced)))
      ∧ (Sig.bad cmd = false → Sig.op cmd = 1 →
        (s.barrierLive o = false → s.applyCommand w = dropped)
        ∧ (s.barrierLive o = true → (s.barrier o).arrived + 1 < (s.barrier o).parties →
          s.applyCommand w = s.modBarrier o fun x => { x with arrived := x.arrived + 1 })
        ∧ (s.barrierLive o = true → (s.barrier o).parties ≤ (s.barrier o).arrived + 1 → s.applyCommand w =
          (let t := s.modBarrier o fun x => { x with arrived := 0, phase := x.phase + 1, waiters := [] }
          (t.each (s.barrier o).waiters fun t n => t.resolve n .ok).bump K.barrierPhases))))
    ∧ (∀ (c : Instr) (p : Nat) (cmd : BitVec 64) (e : Delivered), s.Running →
      c ∈ [.signal (.link p) cmd, .arrive (.link p) cmd] →
      let vc := if Sig.op cmd = 1 then 3 else 2
      s.Serves { port := some p, src := (s.lport p).partner, vc := vc, family := Fam.signal, slots := [cmd.setWidth 128] } e →
      (Sig.chip cmd ≠ s.chipId → Completes c s ((dropped.raise A.signalProtocol).takeRecord e))
      ∧ (Sig.chip cmd = s.chipId →
        (s.mustWait cmd = true → Completes c s (s.holdRecord e e))
        ∧ (s.mustWait cmd = false → Completes c s ((s.applyCommand { cmd := cmd, src := .link p }).takeRecord e))))
    ∧ (∀ (c : Instr) (src : SignalSource) (x : SigSource) (cmd : BitVec 64), s.Running →
      c ∈ [.signal src cmd, .arrive src cmd] → s.sourceOf src = some x → (∀ p, src ≠ .link p) →
      s.sig.inbound.find? (fun c => c.isFrom src cmd) = none → s.writesBefore (s.handed x cmd) = true →
      (src ≠ .hostDma → Completes c s (s.localCommand (s.handed x cmd)))
      ∧ (src = .hostDma → s.logRoom = true → Completes c s (s.hostCommand (s.handed x cmd)))
      ∧ (src = .hostDma → s.logRoom = false → Completes c s
        (State.logWaits { s with sig := { s.sig with inbound := s.sig.inbound ++ [s.handed x cmd] } })))
    ∧ (s.Running →
      let due := s.sig.held.filter fun c => !s.stampLater c.cmd
      let t : State := { s with sig := { s.sig with held := s.sig.held.filter fun c => s.stampLater c.cmd } }
      Completes .heldSignalApply s (t.each due State.applyCommand).resumeSources)

/-- A signal of an engine port carries the context and generation its port stamps: handed over by a task of a
generation that has ended, it is dropped and counted in SIGNALS_STALE_DROPPED, once the writes before it are accepted
and no earlier command of its port waits. A SIGNAL is handed over behind the writes its port sent before it, an ARRIVE
behind none. The sources other than engine ports carry neither context nor generation. -/
def Obligations.StaleEngineSignalsAreDropped : Prop :=
  (∀ (s : State) (c : Instr) (p ctx : Nat) (gen : BitVec 16) (cmd : BitVec 64) (w : SigCmd), s.Running →
    c ∈ [.signal (.engine p) cmd, .arrive (.engine p) cmd] →
    s.sig.inbound.find? (fun x => x.isFrom (.engine p) cmd) = some w → w.src = .engine p ctx gen →
    s.writesBefore w = true → s.sourceWaits w.src = false → gen ≠ (s.ctx ctx).gen →
    Completes c s (State.bump { s with sig := { s.sig with inbound := dropFirst (· == w) s.sig.inbound } }
      K.signalsStaleDropped))
  ∧ (∀ (s : State) (p n : Nat) (cmd : BitVec 64), (s.port p).held = some n →
    (s.signalBeat p n cmd).sig.inbound = s.sig.inbound ++ [
      { cmd := s.stamped cmd, src := .engine p (s.slot n).ctx (s.slot n).gen
        behind := if Sig.op cmd = 1 then [] else (s.port p).sent.map (·.1) }])
  ∧ (∀ (s : State) (p q : Nat), s.sourceOf .hostDma = some .hostDma ∧ s.sourceOf (.queue q) = some (.queue q)
    ∧ s.sourceOf (.link p) = some (.link p))

/-- SIG_WAIT, BARRIER_ARRIVE and SIG_POST. A wait for COUNT 0, for more than a binary object holds, or on a closed
target is CANCELLED with SIGNAL_PROTOCOL; on a target of an ended generation it is ABANDONED; a wait that COUNT covers
takes it and resolves; any other parks at the tail. An arrival parks and arrives. A post on this chip hands its
command to the Signal Unit, one for another chip sends it. -/
def Obligations.WaitsArrivalsAndPosts : Prop :=
  ∀ (s : State) (n : Nat), s.Running →
    let arg := Tpl.arg (s.slotTpl n)
    let t := s.modSlot n fun q => { q with op0 := out64 arg }
    (s.examined n Op.sigWait = true →
      let o := fld arg 30 18
      let k := fld arg 0 30
      let x := t.obj o
      let bad := x.open_ = false ∨ k = 0 ∨ (x.binary = true ∧ k ≠ 1)
      (bad → Completes (.sigWait n) s ((t.raise A.signalProtocol).resolve n .cancelled))
      ∧ (¬ bad → t.objLive o = false → Completes (.sigWait n) s (t.resolve n .abandoned))
      ∧ (¬ bad → t.objLive o = true → x.waiters = [] → k ≤ x.count.toNat → Completes (.sigWait n) s
        (((t.modObj o fun x => { x with count := x.count - BitVec.ofNat 32 k }).bump K.waitsImmediate).resolve n .ok))
      ∧ (¬ bad → t.objLive o = true → x.waiters ≠ [] ∨ k > x.count.toNat → Completes (.sigWait n) s
        (((t.modObj o fun x => { x with waiters := x.waiters ++ [(n, k)] }).bump K.waitsParked).modSlot n fun q =>
          { q with parked := true })))
    ∧ (s.examined n Op.barrierArrive = true →
      let b := fld arg 30 12
      ((t.barrier b).open_ = false →
        Completes (.barrierArrive n) s ((t.raise A.signalProtocol).resolve n .cancelled))
      ∧ ((t.barrier b).open_ = true → t.barrierLive b = false →
        Completes (.barrierArrive n) s (t.resolve n .abandoned))
      ∧ (t.barrierLive b = true → Completes (.barrierArrive n) s
        (((t.modBarrier b fun x => { x with waiters := x.waiters ++ [n] }).modSlot n fun q =>
          { q with parked := true }).arriveAt b)))
    ∧ (let cmd := sigPostCommand arg s.tick.number.toNat
      ((s.slot n).state = .ready → (s.slot n).cls = 0xC → (s.slot n).resolved = false → s.postsHere (s.slotTpl n) = true →
        s.tearing (s.slot n).ctx = false → s.sourceWaits (.task n) = false → Completes (.sigPost n) s (
          if Sig.bad cmd then (s.raise A.signalProtocol).resolve n .cancelled
          else s.localCommand { cmd := cmd, src := .task n }))
      ∧ (s.Works n Op.sigPost (fun s => if (s.slot n).unaccepted = 0 then s.postAway n else s) →
        let x := s.atWork n
        let cmd := sigPostCommand (Tpl.arg (x.slotTpl n)) x.tick.number.toNat
        let sent := (x.modSlot n fun q => { q with unaccepted := 1, status := .ok }).sendRecord (Sig.chip cmd)
          (if Sig.op cmd = 1 then 3 else 2) Fam.signal [cmd.setWidth 128] (.task n)
        (x.slot n).unaccepted = 0 → Completes (.sigPost n) s (State.doneAsking
          (if x.canPlace (Sig.chip cmd) then sent else sent.dataDone n .cancelled []) (.task n (s.slot n).inst))))

/-- DMA_COPY, DMA_FILL and DIGEST. A request block that cannot be read ends the task with the read's status and a
malformed one CANCELLED; a copy writes each block it read, or all ones where it could not, and ends with the worst
status; a fill writes its pattern to every block; a digest writes SHA-256 of the range as 64 bytes and returns it as
four outputs. An item that an abort waits for only returns its completion: the abort and the item are gone, the credit
is back. Said of every data-task operation. -/
def Obligations.DmaTasksAndAborts : Prop :=
  (
    ∀ (s : State) (n : Nat),
      let t := ((s.atWork n).requestBlock n).1
      let st := ((s.atWork n).requestBlock n).2.1
      let r := ((s.atWork n).requestBlock n).2.2
      let done (t : State) : State := t.doneAsking (.task n (s.slot n).inst)
      (s.Works n Op.dmaCopy (dmaCopyEff n) → Completes (.dmaCopy n) s (done (
        if st ≠ .ok then t.dataDone n st []
        else if Dma.copyOk r = false then t.dataDone n .cancelled []
        else
          let block (x : State × Status) (i : Nat) : State × Status :=
            let b := x.1.taskRead n (Dma.src r + 64 * i) 64
            (b.1.taskWrite n (Dma.dst r + 64 * i) (if b.2.1 = .ok then b.2.2 else List.replicate 64 0xFF#8), x.2.worse b.2.1)
          let x := (List.range (Dma.bytes r / 64)).foldl block (t, .ok)
          x.1.dataDone n x.2 [out64 (Dma.bytes r / 64)])))
      ∧ (s.Works n Op.dmaFill (dmaFillEff n) → Completes (.dmaFill n) s (done (
        if st ≠ .ok then t.dataDone n st []
        else if Dma.fillOk r = false then t.dataDone n .cancelled []
        else
          let x := t.each (List.range (Dma.bytes r / 64)) fun x i =>
            x.taskWrite n (Dma.dst r + 64 * i) ((List.range 8).flatMap fun _ => leBytes 8 (Dma.pattern r))
          x.dataDone n .ok [out64 (Dma.bytes r / 64)])))
      ∧ (s.Works n Op.digest (digestEff n) → Completes (.digest n) s (done (
        if st ≠ .ok then t.dataDone n st []
        else if digestOk r = false then t.dataDone n .cancelled []
        else
          let b := t.taskRead n (bits r 448 64) (bits r 384 64)
          if b.2.1 ≠ .ok then b.1.dataDone n b.2.1 []
          else
            let d := sha256 b.2.2
            (b.1.taskWrite n (bits r 320 64) (d ++ List.replicate 32 0)).dataDone n .ok
              ((List.range 4).map fun i => out64 (ofLe (slice d (8 * i) 8))))))
  )
  ∧ (
    ∀ (s : State) (c : Instr) (n : Nat), s.Running → s.mat.aborts.contains n = true →
      c ∈ [.qEnqueue n, .qDequeue n, .dmaCopy n, .dmaFill n, .digest n, .embGather n, .embPool n, .embScore n,
        .embUpdate n, .expSelect n, .expSend n, .expReturn n] →
      let t := s.arriveItem n
      Completes c s { t with mat := { t.mat with aborts := dropFirst (· == n) t.mat.aborts, credits := t.mat.credits + 1 } }
  )

/-- Lookups and their remote parts. EMB_GATHER, EMB_POOL and EMB_SCORE read their request, note the table their step
touches and begin; the exchange point sends the partials of the frame by chip number; a request of another chip waits
for its tick or is served; a reply that no partial waits for is counted, one with a status fails its bag with it, and
one that fits adds its part; a STATUS that is no final result is handled as CANCELLED and raises LINK_PROTOCOL. A
partial that is not answered fails with TIMEOUT. -/
def Obligations.LookupsAndRemotePartials : Prop :=
  ∀ s : State, s.Running → s.embStopped = false →
    (∀ (n : Nat) (c : Instr) (op : Nat), s.Works n op (fun s => s.lookup n op) →
      (c, op) ∈ [(.embGather n, Op.embGather), (.embPool n, Op.embPool), (.embScore n, Op.embScore)] →
      let x := s.atWork n
      let t := (x.requestBlock n).1
      let st := (x.requestBlock n).2.1
      let r := (x.requestBlock n).2.2
      let u := t.modInst (t.slot n).inst fun i => { i with
        tables := if i.tables.contains (lookupTable op r) then i.tables else i.tables ++ [lookupTable op r] }
      let l : Lookup := { slot := n, op := op, req := r, table := lookupTable op r }
      x.embStopped = false → x.lookupOf n = none → Completes c s (State.doneAsking
        (if st ≠ .ok then t.dataDone n st [] else if op = Op.embScore then u.scoreLookup l else u.poolLookup l)
        (.task n (s.slot n).inst)))
    ∧ (s.tick.frameOpen = true → s.tick.exchangePointDone = false →
      let due := sortBy (fun a b => decide (a.chip < b.chip)) (s.emb.partials.filter fun p => !p.sent)
      let leave (p : Partial) : Partial := { p with sent := true, sentAt := s.clk.units }
      let t : State := { s with
        tick := { s.tick with exchangePointDone := true }
        emb := { s.emb with partials := modWhere (fun p => !p.sent) leave s.emb.partials } }
      Completes .exchangePoint s (t.each due fun t p => t.sendRemote p.chip 0 p.header p.payload))
    ∧ (∀ (src : Nat) (h : BitVec 128) (payload : List (BitVec 128)) (e : Delivered),
      s.Serves { src := src, vc := Rem.kind h % 2, family := Fam.remote, slots := h :: payload } e →
      let r : RemoteRec := { src := src, header := h, payload := payload }
      let t : State := if (Status.ofFinal (Rem.status h)).isNone then s.raise A.linkProtocol else s
      (Rem.kind h = 0 → Completes (.poolReq src h payload) s ((t.serveRemote r).takeRecord e))
      ∧ (Rem.kind h = 2 → Completes (.scoreReq src h payload) s ((t.serveRemote r).takeRecord e))
      ∧ (∀ score : Bool, (Rem.kind h = if score then 3 else 1) →
        let c : Instr := if score then .scoreReply src h payload else .poolReply src h payload
        (t.pendingFor h score = none → Completes c s ((t.bump K.remoteRepliesStale).takeRecord e))
        ∧ (∀ p, t.pendingFor h score = some p → Completes c s (State.takeRecord (
          if Rem.status h ≠ 0 then t.partialFails p ((Status.ofFinal (Rem.status h)).getD .cancelled)
          else ((t.freePartial p).modLookup p.slot (if score then takeScore r p else takePool r t p)).finishLookup p.slot)
          e))))
    ∧ (∀ r : RemoteRec,
      (s.tickLater (Rem.tick r.header) = true →
        s.serveRemote r = { s with emb := { s.emb with heldRecords := s.emb.heldRecords ++ [r] } })
      ∧ (s.tickLater (Rem.tick r.header) = false →
        let f (t : State) : State := if Rem.kind r.header = 0 then t.servePool r else t.serveScore r
        (f (s.asking r.reader)).stripe.stuck = none →
        ((f (s.asking r.reader)).stripe.heldReads.any fun h => h.src == r.reader) = false →
        s.serveRemote r = (f (s.asking r.reader)).doneAsking r.reader))
    ∧ (∀ (tag : Nat) (p : Partial), s.emb.partials.find? (fun p => p.sent && p.tag.toNat == tag) = some p →
      Completes (.remoteTimeout tag) s ((s.bump K.remoteTimeouts).partialFails p .timeout))

/-- Updates and the versions they leave. EMB_UPDATE checks its request, then stages its rows as far as resources
allow; a staged update is published; a fold raises FLOOR_TICK as it starts (DESIGN CHOICE, log 125), copies the one
version of an entry home and, its copy complete, publishes a LOC HOME version; a migration copies a row to the Hot Row
Store and publishes the copy after every version there is, or gives its slot back where the row cannot be read; a row
idle for long enough is demoted. -/
def Obligations.UpdatesFoldsAndMigrations : Prop :=
  ∀ s : State, s.Running → s.embStopped = false →
    (∀ n : Nat, s.Works n Op.embUpdate (embUpdateEff n) →
      let w := s.atWork n
      let t := (w.requestBlock n).1
      let st := (w.requestBlock n).2.1
      let r := (w.requestBlock n).2.2
      let table := t.tableOf n (Upd.table r)
      w.embStopped = false → w.updateOf n = none → Completes (.embUpdate n) s (State.doneAsking (
        if st ≠ .ok then t.dataDone n st []
        else if t.tableFor n (Upd.table r) = false ∨ table.voxpor = true ∨ table.live = false ∨ t.power.stage = 1
            ∨ t.par K.liveUpdateEnable = 0 ∨ Upd.rows r = 0 ∨ Upd.rows r > 65536 then t.cancelUpdate n
        else
          let x := t.readArray n (Upd.index r) 8 (Upd.rows r)
          let worst := x.2.foldl (fun st e => st.worse e.1) Status.ok
          if x.2.any fun e => e.1 == .ok && !x.1.ownsRow table (e.2 % 2 ^ 40) then x.1.cancelUpdate n
          else if worst ≠ .ok then x.1.dataDone n worst []
          else
            let u : Update := { slot := n, table := Upd.table r, opening := table.openTick, count := Upd.rows r }
            State.advanceUpdate { x.1 with emb := { x.1.emb with updates := x.1.emb.updates ++ [u] } } n)
        (.task n (s.slot n).inst)))
    ∧ (∀ n : Nat,
      let who : MemSource := .task n (s.slot n).inst
      (State.advanceUpdate (s.asking who) n).stripe.stuck = none →
      Completes (.updatePublish n) s (((State.advanceUpdate (s.asking who) n).doneAsking who).tryPublish n))
    ∧ (∀ (i : Nat) (v : Version) (t : State) (bytes : List Byte), s.par K.foldEnable ≠ 0 → s.foldable i = some v →
      s.newestBytes (s.ovl i).table (s.ovl i).row 1 = (t, .ok, bytes) →
      let home := (s.table (s.ovl i).table).homeBase + (s.ovl i).row * (s.table (s.ovl i).table).stride
      let u := ((t.raiseFloor (s.ovl i).table v.stamp).writeBytes home bytes 1).putOvl i fun e => { e with folding := true }
      Completes (.foldStart i) s { u with emb := { u.emb with folds := u.emb.folds ++ [{ index := i, stamp := v.stamp }] } })
    ∧ (∀ i : Nat, s.emb.folds.any (fun f => f.index == i) = true →
      let v : Version := { stamp := s.nextTick.truncate 32, loc := .home }
      (s.ovl i).hasRoom = true ∨ (∃ w ∈ (s.ovl i).versions, w.stamp = v.stamp) →
      let t := (s.publishVersion i v).putOvl i fun e => { e with folding := false, demote := false }
      Completes (.foldCopyComplete i) s (State.bump { t with emb := { t.emb with
        folds := t.emb.folds.filter fun f => f.index ≠ i } } K.rowsFolded))
    ∧ (∀ (table row : Nat) (m : Migration) (t : State) (st : Status) (bytes : List Byte),
      s.emb.migrations.find? (fun m => m.table == table && m.row == row && !m.published) = some m →
      s.newestBytes table row 1 = (t, st, bytes) → st ≠ .ok →
      let u := t.freeSlot .hot m.off
      Completes (.migrationCopyComplete table row) s
        { u with emb := { u.emb with migrations := dropFirst (· == m) u.emb.migrations } })
    ∧ (∀ (table row : Nat) (m : Migration) (t : State) (bytes : List Byte) (i : Nat),
      s.emb.migrations.find? (fun m => m.table == table && m.row == row && !m.published) = some m →
      s.newestBytes table row 1 = (t, .ok, bytes) → s.takeableOvl table row false = some i →
      (s.ovl i).inUse = false ∨ (s.ovl i).hasRoom = true →
      let next := s.nextTick.truncate 32
      let stamp := match (s.ovl i).versions.getLast? with
        | none => next
        | some w => laterTick next (w.stamp + 1)
      let v : Version := { stamp := stamp, loc := .hot, addr := m.off }
      let u := ((t.hotWrite m.off bytes).claimOvl i table row false).putOvl i fun e => { e with
        versions := addVersion e.versions v, idle := 0 }
      Completes (.migrationCopyComplete table row) s (State.bump { u with emb := { u.emb with
        migrations := modWhere (· == m) (fun x => { x with published := true }) u.emb.migrations } } K.rowsMigrated))
    ∧ (∀ (i : Nat) (v : Version), (s.ovl i).inUse = true → (s.ovl i).replica = false → (s.ovl i).demote = false →
      (s.ovl i).versions.getLast? = some v → v.loc = .hot → s.par K.hotIdleTicks ≤ (s.ovl i).idle →
      Completes (.hotRowDemotion i) s ((s.modOvl i fun e => { e with demote := true }).bump K.rowsDemoted))

/-- Replicas and scans. A REPLICA is stored in the place of an earlier one of its row, a LEASE extends its owner's
limit and a DROP ends a replica; the scans of a Voxpor table's inactive copy and of an open table's rows give the
digests. -/
def Obligations.ReplicasAndScans : Prop :=
  ∀ s : State, s.Running →
    (∀ (src : Nat) (h : BitVec 128) (payload : List (BitVec 128)) (e : Delivered), s.embStopped = false →
      let serves (l : List (BitVec 128)) : Prop := s.Serves { src := src, family := Fam.replica, slots := l } e
      (Rep.kind h = 0 → serves (h :: payload) →
        Completes (.replica src h payload) s ((s.storeReplica src h payload).takeRecord e))
      ∧ (Rep.kind h = 1 → serves [h] → Completes (.lease src h) s (State.takeRecord { s with emb := { s.emb with
          leases := Sparse.set s.emb.leases 0 (Rep.owner h) ((Rep.limit h).toNat + 1) } } e))
      ∧ (Rep.kind h = 2 → serves [h] →
        (s.findOvl (Rep.table h) (Rep.row h) true = none → Completes (.drop src h) s (s.takeRecord e))
        ∧ (∀ i, s.findOvl (Rep.table h) (Rep.row h) true = some i → Completes (.drop src h) s
          ((s.putOvl i fun x => { x with dropped := true, dropLimit := Rep.limit h }).takeRecord e))))
    ∧ (∀ (n : Nat) (w : Swap) (t : State) (d : Nat), (s.table n).swap = some w → w.scanned = false →
      s.scanInactive n = (t, some d) →
      Completes (.voxporScanComplete n) s
        (t.modTable n fun x => { x with swap := some { w with scanned := true, digest := d } }))
    ∧ (∀ (n : Nat) (snap : BitVec 64) (t : State) (d : Nat), (s.table n).scan = some snap →
      s.scanRows n (fun s i => s.readRow none n i false snap.toNat 1) = (t, some d) →
      Completes (.tableDigestScanComplete n) s ((t.modTable n fun x => { x with
        scan := none, digestValid := true, whole := false, sum := if x.whole then x.sum else add256 x.sum d
        records := x.records.map fun r => if r.valid then r else { r with digest := add256 r.digest d, valid := true }
        }).syncTable n))

/-- Routing tasks. EXP_SELECT counts itself and, for a sound request, selects, caps and writes the assignments, its
outputs their number, the experts used and the tokens placed; EXP_SEND opens its exchange or waits while 8 are open,
and opens it when one closes; EXP_RETURN sends its rows; EXP_RECV and EXP_COLLECT resolve once their exchange can
tell, and park until then. What EXP_RETURN and EXP_COLLECT of a closed exchange do is the model's reading (log 75). -/
def Obligations.RoutingTasks : Prop :=
  ∀ (s : State) (n : Nat), s.Running →
    let y := s.atWork n
    let done (t : State) : State := t.doneAsking (.task n (s.slot n).inst)
    (s.Works n Op.expSelect (expSelectEff n) →
      let t := (y.requestBlock n).1.bump K.routeSelects
      let st := (y.requestBlock n).2.1
      let r := (y.requestBlock n).2.2
      let map := t.readArray n (Sel.mapAddr r) 4 (Sel.experts r)
      let group := map.1.readArray n (Sel.groupAddr r) 2 (Sel.group r)
      let lists := (map.2 ++ group.2).foldl (fun st e => st.worse e.1) Status.ok
      let x := group.1.readScores n r
      let sel := (List.range (Sel.experts r)).map fun e =>
        bestOf (Sel.capacity r) (columnCands (Sel.minEnable r) (Sel.minScore r) e x.2.2)
      let taken := (List.range (Sel.tokens r)).map fun t => (takersOf sel t).length
      let kept := (List.range (Sel.tokens r)).map (keptOf (Sel.cap r) sel)
      let total := (kept.map List.length).sum
      let used := (List.range (Sel.experts r)).filter fun c => kept.any fun k => k.any fun e => e.2 == c
      (st = .ok → Sel.inRange r = true → lists = .ok →
        group.1.groupOk (group.2.map (·.2)) = true → mapOk (map.2.map (·.2)) (group.2.map (·.2)) = true → x.2.1 = .ok →
        (Sel.cap r ≠ 0 ∨ ∀ k ∈ taken, k ≤ 8) →
        Completes (.expSelect n) s (done (
          let u := (x.1.bump K.routeNan (x.2.2.map fun row => (row.filter fIsNaN).length).sum).bump K.tokensCapped
            (taken.sum - total)
          (u.writeSelection n r (map.2.map (·.2)) (group.2.map (·.2)) kept).dataDone n .ok
            [out64 total, out64 used.length, out64 (kept.filter fun k => !k.isEmpty).length])))
      ∧ (st ≠ .ok → Completes (.expSelect n) s (done (t.dataDone n st [])))
      ∧ (st = .ok → Sel.inRange r = false → Completes (.expSelect n) s (done (t.cancelRoute n K.routesCancelled))))
    ∧ (s.Works n Op.expSend (expSendEff n) → (y.slot n).unaccepted = 0 → y.route.sendWaits.contains n = false →
      (y.route.exchanges.length < 8 → Completes (.expSend n) s (done (y.openExchange n)))
      ∧ (8 ≤ y.route.exchanges.length → Completes (.expSend n) s
        (done { y with route := { y.route with sendWaits := y.route.sendWaits ++ [n] } })))
    ∧ (∀ rest, s.route.sendWaits = n :: rest → s.route.exchanges.length < 8 → s.isItem n Op.expSend = true →
      Completes (.exchangeOpen n) s (State.openExchange { s with route := { s.route with sendWaits := rest } } n))
    ∧ (s.Works n Op.expReturn (expReturnEff n) → (y.slot n).unaccepted = 0 →
      (y.exchange (y.argTag n) = none →
        Completes (.expReturn n) s (done ((y.raise A.exchangeProtocol).dataDone n .cancelled [])))
      ∧ (∀ x, y.exchange (y.argTag n) = some x → Completes (.expReturn n) s (done (
        (((y.returnRecords n x).1.modExchange x.tag fun x => { x with returnTask := some n }).sendExchange n
          (y.returnRecords n x).2)))))
    ∧ (s.examined n Op.expRecv = true → ∀ x, s.exchange (s.argTag n) = some x →
      Completes (.expRecv n) s (
        match x.recvOutcome (s.argExpert n) with
        | some st => s.resolveRecv (s.argTag n) n (s.argExpert n) st
        | none => (s.modSlot n fun q => { q with parked := true }).modExchange (s.argTag n) fun x =>
            { x with recvParked := x.recvParked ++ [(n, s.argExpert n)] }))
    ∧ (s.examined n Op.expCollect = true → ∀ x, s.exchange (s.argTag n) = some x →
      Completes (.expCollect n) s (
        match x.collectOutcome with
        | some st => s.resolveCollect (s.argTag n) n st
        | none => (s.modSlot n fun q => { q with parked := true }).modExchange (s.argTag n) fun x =>
            { x with collectParked := some n }))

/-- Exchange records. A SEND_COUNT, SEND_ROW, RETURN_COUNT or RETURN_ROW of an open exchange is processed there; one
of a later exchange waits in the early buffer; one of a closed exchange is counted as stale. A record that is to enter
a buffer without room for it is held (which records those are: DEDUCED, log 75), and so is none else. A STATUS that is
no final result raises LINK_PROTOCOL, and is CANCELLED where it is used. An exchange that times out resolves what it
can. -/
def Obligations.ExchangeRecords : Prop :=
  ∀ (s : State) (src : Nat) (h : BitVec 128) (payload : List (BitVec 128)) (e : Delivered), s.Running →
    let r : RemoteRec := { src := src, header := h, payload := payload }
    let tag := Exc.tag h
    (∀ (c : Instr) (kind : Nat), Exc.kind h = kind →
      (c, kind) ∈ [(.sendCount src h payload, 0), (.sendRow src h payload, 1), (.returnCount src h payload, 2),
        (.returnRow src h payload, 3)] →
      s.Serves { src := src, vc := 3 - kind % 2, family := Fam.exchange, slots := h :: payload } e →
      (s.recordHeld r = true → Completes c s (s.holdRecord e e))
      ∧ (s.recordHeld r = false →
        let t : State := if (Status.ofFinal (Exc.status h)).isNone then s.raise A.linkProtocol else s
        (∀ x, t.exchange tag = some x → Completes c s (State.takeRecord
          (if kind = 0 then t.takeSendCount x r else if kind = 1 then t.takeSendRow x r
            else if kind = 2 then t.takeReturnCount x r else t.takeReturnRow x r) e))
        ∧ (t.exchange tag = none → t.tagLater tag = true →
          Completes c s (State.takeRecord { t with route := { t.route with early := t.route.early ++ [r] } } e))
        ∧ (t.exchange tag = none → t.tagLater tag = false →
          Completes c s ((t.bump K.exchangeRecordsStale).takeRecord e))))
    ∧ (∀ tag, Completes (.exchangeTimeout tag) s
      (((s.modExchange tag fun x => { x with timedOut := true }).serveRecvs tag).serveCollect tag))

/-- Requests at the engine and host ports. A read or write of a port whose task's generation is current goes to memory
inside the windows of its partition; outside them it answers zeros, or is dropped, and counts a violation; of a task
gone stale it answers zeros, or is dropped, and is counted. The host DMA port reads and writes where it may. A signal
beat hands its command over behind the writes before it. What a request with no live task gets is the model's reading
(log 70). -/
def Obligations.PortRequests : Prop :=
  ∀ (s : State) (p n : Nat), s.Running →
    (∀ (addr : BitVec 37) (tag : Nat) (hint : BitVec 2), s.hasEngine p = true → s.channelsOpen p = true → tag < 256 →
      (s.port p).reads.any (fun r => r.tag == tag) = false →
      let a := addr.toNat * 64
      let q := s.slot n
      (s.liveStamp p = none → Completes (.engineReadRequest p addr tag hint) s
        ((s.bump K.memStaleDropped).emit (.readData p tag 0 0)))
      ∧ (s.liveStamp p = some n → s.inWindow q.part a 64 = false → Completes (.engineReadRequest p addr tag hint) s
        ((s.emit (.readData p tag 0 0)).violation n))
      ∧ (s.liveStamp p = some n → s.inWindow q.part a 64 = true →
        let id := (s.port p).nextRead
        Completes (.engineReadRequest p addr tag hint) s
        ((s.modPort p fun e => { e with
          reads := e.reads ++ [{ tag := tag, addr := a, slot := some n, id := id }], nextRead := id + 1 }).requestRead
            (.engine p id) a q.ctx q.gen hint.toNat (s.par K.partitionCacheWays q.part))))
    ∧ (∀ b : WriteBeat, s.hasEngine p = true → s.channelsOpen p = true →
      (s.liveStamp p = none → Completes (.engineWriteBeat p b) s
        (s.bump (if b.signal then K.signalsStaleDropped else K.staleWritesDropped)))
      ∧ (s.liveStamp p = some n → Completes (.engineWriteBeat p b) s (
        if b.signal then (s.endRun p).signalBeat p n (b.data.setWidth 64)
        else if b.remote ∧ b.chip ≠ s.chipId then s.remoteBeat p n b
        else (s.endRun p).localBeat n b)))
    ∧ (∀ (addr : BitVec 37) (tag part : Nat) (data : BitVec 512),
      let a := addr.toNat * 64
      let violated := (s.bump K.partitionViolations).raise A.partitionViolation
      (s.hostMay a part = true →
        Completes (.hostDmaRead addr tag part) s (s.requestRead (.hostDma tag) a 0 0 0 (s.hostWays a part))
        ∧ Completes (.hostDmaWrite addr part false data) s
          (s.requestWrite .unit a 0 (s.hostWays a part) data))
      ∧ (s.hostMay a part = false →
        Completes (.hostDmaRead addr tag part) s (violated.emit (.hostResponse tag 3 0))
        ∧ Completes (.hostDmaWrite addr part false data) s violated)
      ∧ Completes (.hostDmaWrite addr part true data) s { s with sig := { s.sig with
        inbound := s.sig.inbound ++ [{ cmd := s.stamped (data.setWidth 64), src := .hostDma }] } })
    ∧ (∀ (addr size : Nat) (data : BitVec 512), addr < 2 ^ 20 → size ≤ 6 → addr % 2 ^ size = 0 →
      Completes (.controlRequest true addr size data) s ((s.controlWrite addr size data).emit (.controlResponse 0))
      ∧ (size < 6 ∨ addr < 0x40000 ∨ 0x80000 ≤ addr →
        Completes (.controlRequest false addr size data) s (s.emit (.controlResponse (s.controlRead addr size)))))

/-- Memory responses and waits. A response of a LOST port is counted late, one of a port in its reset is not heard,
one that answers no request it can answer raises MEM_PROTOCOL, and any other completes its tag: a read is decoded once
its check block is there too, unless its generation is stale, when it is counted and zeros answer it (DESIGN CHOICE,
log 121); a check block goes to the blocks that wait for it, a write that failed is counted and marks its block, a
repair goes on or is asked for again. A request a port does not answer loses the port, and one held too long ends
without its data: the read of a unit that runs again fails when it does. Which responses answer nothing (log 50), how
a unit's read waits (logs 40 and 111) and when a block is left as one that does not decode (log 110) are the model's
readings. -/
def Obligations.MemoryResponses : Prop :=
  ∀ (s : State) (p : Nat) (r : BitVec 16) (data : BitVec 512), s.Running → s.hasMemory p = true →
    let read : Instr := .memReadResponse p (r.extractLsb' 6 10) (r.extractLsb' 3 3) data
    (∀ (c : Instr) (ok : MemOp → Nat → Bool),
      (c, ok) ∈ [(read, fun op st => op.isRead && decide (st ≤ 1)),
        (.memWriteResponse p r, fun op st => op == .write && decide (st ≤ 1)),
        (.repairResponse p r, fun op st => op == .repair && decide (2 ≤ st ∧ st ≤ 4))] →
      ((s.mport p).resetN = false → Completes c s s)
      ∧ ((s.mport p).resetN = true → (s.mport p).state = .lost → Completes c s (s.bump K.memLateDropped))
      ∧ ((s.mport p).resetN = true → (s.mport p).state ≠ .lost → (∀ t ∈ (s.mport p).tags, t.tag = Rsp.tag r → ok t.op (Rsp.status r) = false) →
        Completes c s (s.raise A.memProtocol)))
    ∧ (∀ t : MemTag, (s.mport p).resetN = true → (s.mport p).state ≠ .lost → (s.mport p).tags.find? (fun t => t.tag == Rsp.tag r) = some t →
      let x := s.modMport p fun x => { x with tags := x.tags.filter fun y => y.tag ≠ t.tag }
      let error := Rsp.status r == 1
      (t.op.isRead = true → Rsp.status r ≤ 1 → Completes read s (State.stripeSettle (
        if t.chk then x.checkArrived p t data error
        else if x.readStale t.src t.ctx t.gen then x.dropRead t.src
        else x.blockArrived p t data error)))
      ∧ (t.op = .write → Rsp.status r = 0 → Completes (.memWriteResponse p r) s x.stripeSettle)
      ∧ (t.op = .write → Rsp.status r = 1 →
        let y := x.bump K.memWriteErrors
        let y : State := { y with stripe := { y.stripe with badWrites := uniq (y.stripe.badWrites ++ [t.key]) } }
        Completes (.memWriteResponse p r) s (if t.chk then y else y.markWeak t.addr).stripeSettle)
      ∧ (t.op = .repair → Rsp.status r = 2 → Completes (.repairResponse p r) s
          (x.modMport p fun x => { x with
            ops := modWhere (fun o => o.page == t.addr) (fun o => { o with phase := .restoring }) x.ops }).stripeSettle)
      ∧ (t.op = .repair → Rsp.status r = 3 ∨ Rsp.status r = 4 → Completes (.repairResponse p r) s
          (((x.modMport p fun x => { x with ops := x.ops.filter fun o => o.page ≠ t.addr }).queuePage p
            t.addr true).stripeSettle)))
    ∧ (∀ tag : Nat, (s.mport p).tags.any (fun t => t.tag == tag) = true → Completes (.memTimeout p tag) s (s.losePort p))
    ∧ (∀ (n : Nat) (h : HeldRead), s.stripe.heldReads.find? (fun h => h.id == n) = some h →
      let x : State := { s with stripe := { s.stripe with heldReads := s.stripe.heldReads.filter fun x => x.id ≠ h.id } }
      (h.src.runsAgain = true → Completes (.reconstructTimeout n) s
        { x with stripe := { x.stripe with expired := uniq (x.stripe.expired ++ [h.src]) } })
      ∧ (h.src.runsAgain = false →
        (h.uncorr = true → Completes (.reconstructTimeout n) s (x.answerRead h.src .dataUncorrectable 0))
        ∧ (h.uncorr = false → Completes (.reconstructTimeout n) s
          ((x.bump K.requestsUnavailable).answerRead h.src .dataUnavailable 0))))
    ∧ (∀ (n : Nat) (h : HeldWrite), s.stripe.heldReads.find? (fun h => h.id == n) = none →
      s.stripe.heldWrites.find? (fun h => h.id == n) = some h →
      (s.writeFate h.addr = .held → Completes (.reconstructTimeout n) s (s.writeTimesOut h))
      ∧ (s.writeFate h.addr ≠ .held → Completes (.reconstructTimeout n) s s))

/-- MEM_PORT_CONTROL: OFFLINE_RETRAIN and OFFLINE_REPLACE mark the port, whose grant follows when the rules for taking
a port offline allow it, and RESTORE of a LOST port whose controller answered starts the rebuild of every chunk. -/
def Obligations.MemPortControlWrites : Prop :=
  ∀ (s : State) (p : Nat), p < 32 →
    (s.Accepts K.memPortControl 0 (2 ^ 12 + p) → Completes (.offlineRetrain p) s (s.wrote fun s =>
      s.modMport p fun x => { x with bySoftware := true, replace := false }))
    ∧ (s.Accepts K.memPortControl 0 (2 * 2 ^ 12 + p) → Completes (.offlineReplace p) s (s.wrote fun s =>
      s.modMport p fun x => { x with bySoftware := true, replace := true }))
    ∧ (s.Accepts K.memPortControl 0 (3 * 2 ^ 12 + p) true → Completes (.restore p true) s (s.wrote fun s =>
      s.enterRebuild p true))

/-- Memory ports through their states. The controller's request is noted, granted when the group may spare the port,
and the port is OFFLINE once its tags are answered; when the request is withdrawn it rebuilds: a chunk all of whose
rows have been written leaves the bitmap, and with the last the port is ONLINE. A restored page whose blocks have been
written becomes usable, and its retirement is recorded. The scrubber of a group passes a row over whose chunk waits
for its wipe, and otherwise reads every block of the row's members; it takes no row but the one it has reached. The
wipe goes on chunk by chunk, training ends ONLINE, and self-refresh follows its acknowledge. -/
def Obligations.MemoryPortStates : Prop :=
  ∀ (s : State) (p : Nat), s.Running → s.hasMemory p = true →
    let g := p / s.groupSize
    Completes (.portOfflineRise p) s (s.modMport p fun x => { x with offline := true })
    ∧ (s.mayGrant p = true → Completes (.portOfflineGrant p) s
      ((s.modMport p fun x => { x with state := .draining }).leavePort p []).stripeSettle)
    ∧ ((s.mport p).state = .draining → (s.mport p).tags = [] →
      ((s.mport p).offline = true ∨ (s.mport p).bySoftware = true →
        Completes (.drainComplete p) s (s.modMport p fun x => { x with state := .offline, grant := true }))
      ∧ ((s.mport p).offline = false → (s.mport p).bySoftware = false →
        Completes (.drainComplete p) s (s.enterRebuild p false)))
    ∧ (∀ lost : Bool, (s.mport p).offline = true → (s.mport p).state = .offline → (s.mport p).grant = true →
      Completes (.portOfflineFall p lost) s
        ((s.modMport p fun x => { x with offline := false }).enterRebuild p (lost || (s.mport p).replace)))
    ∧ ((s.mport p).state = .rebuilding → s.rebuildTurn p = true →
      ((s.bitmapOf g).first s.chunks = none → Completes (.rebuildChunkComplete p) s (s.rebuilt p).stripeSettle)
      ∧ (∀ k, (s.bitmapOf g).first s.chunks = some k → s.chunkRows k ≤ (s.mport p).rebuildRow →
        let map := (s.bitmapOf g).del k
        let t := State.modMport { s with stripe := { s.stripe with bitmap := Sparse.set s.stripe.bitmap {} g map } } p
          fun x => { x with rebuildRow := 0 }
        Completes (.rebuildChunkComplete p) s
          (if (map.first s.chunks).isNone then t.rebuilt p else t).stripeSettle))
    ∧ (∀ (page : Nat) (o : PageOp), (s.mport p).ops.find? (fun o => o.page == page && o.phase == .restored) = some o →
      s.othersOnline p = true →
      let entered (e : Nat) : State := s.modMport p fun x => { x with
        ops := x.ops.filter fun o => o.page ≠ page, retire := Sparse.set x.retire 0 o.place e }
      (o.spare = none → Completes (.pageRestoreComplete p page) s
        (entered (retireWord ((((s.mport p).retireEntry page).map fun e => fld e.2 62 2).getD 0 + 1) 0 page)).stripeSettle)
      ∧ (∀ k, o.spare = some k → Completes (.pageRestoreComplete p page) s
        (State.stripeSettle ((((entered (retireWord 3 k page)).raise A.pageRetired).logEvent 0x0007 U.stripe
          (at' p 0 5 + at' page 12 25 + at' k 40 10)).bump K.pagesRetired))))
    ∧ (s.resets.night = false → s.par K.scrubPeriodH ≠ 0 → g < s.groups → (∀ q ∈ s.groupPorts g, (s.mport q).state = .online) →
      s.stripe.rows.any (fun w => w.kind == .scrub && w.group == g) = false →
      let row := Sparse.get s.stripe.scrubRow 0 g
      s.unusable g row = [] →
      (s.chunkPending g (row / 256) = true → Completes (.scrubRow g row) s (s.scrubbed { group := g, row := row }))
      ∧ (s.chunkPending g (row / 256) = false →
        (∀ h ∈ s.stripe.heldWrites, (s.place h.addr).group ≠ g ∨ (s.place h.addr).row ≠ row) →
        Completes (.scrubRow g row) s (s.startRow .scrub g row)))
    ∧ (∀ row, row ≠ Sparse.get s.stripe.scrubRow 0 g → Completes (.scrubRow g row) s s)
    ∧ (∀ k, s.resets.night = false → (s.mport p).state = .online → (s.mport p).wipe.first s.chunks = some k →
      Completes (.memWipeChunk p k) s (s.zeroChunk p k).pumpAll)
    ∧ (s.power.started = true → s.pins.corePwrGood = true → (s.mport p).resetN = true → (s.mport p).state = .untrained →
      (s.mport p).trained = false → Completes (.memTrainingComplete p) s
        (s.modMport p fun x => { x with state := .online, trained := true }).stripeSettle)
    ∧ (∀ level : Bool, Completes (.selfRefreshAck p level) s
      ((s.modMport p fun x => { x with ackRefresh := level }).refreshDone).stripeSettle)

/-- Memory. A WRITE record stores only to the words its header names, a zero fill only to the blocks of its range, and
a DEBUG_MEM_DATA write only to the 64 bytes at DEBUG_MEM_ADDR: every other byte reads as before, and memory keeps its
canonical form. A word that is written to a block whose row no held write waits for, and which is accepted there and
then, is what every later read of the block finds. -/
def Obligations.StoresLeaveOtherBytes : Prop :=
  (
    ∀ s : State, Memory.wf s.stripe.mem = true →
      let same (t : State) (lo hi : Nat) : Prop := Memory.wf t.stripe.mem = true
        ∧ ∀ a, a < lo ∨ hi ≤ a → Sparse.get t.stripe.mem 0 a = Sparse.get s.stripe.mem 0 a
      (∀ (src : Nat) (h : BitVec 128) (beats : List (BitVec 512)), s.Running →
        ∃ t, Completes (.write src h beats) s t ∧ same t (bits h 64 64) (bits h 64 64 + 64 * bits h 53 7))
      ∧ (∀ a n, s.Running → s.resets.zeroFill = some (a, n) → 0 < n →
        ∃ t, Completes .memZeroFillComplete s t ∧ same t (a / 64 * 64) ((a + n - 1) / 64 * 64 + 64))
      ∧ (∀ data : BitVec 512, s.Accepts K.debugMemData 0 data.toNat →
        ∃ t, Completes (.debugMemWrite data) s t ∧ same t (s.par K.debugMemAddr) (s.par K.debugMemAddr + 64))
  )
  ∧ (
    ∀ (s : State) (a : Nat) (w : BitVec 512), Memory.wf s.stripe.mem = true → a % 64 = 0 →
      (s.wipeFirst a).rowHeld a = false → (s.wipeFirst a).writeFate a = .put → (s.writeWord a w).peekWord a = w
  )

/-- Links. Of the receive lanes that lose their signal one alone is given up in the set this side announces; two at
once, or the last, take the link DOWN, as does the last lane of the announced set (log 91), an announced lane change
that is not answered or a partner that has gone silent; once the partner has echoed the announced lanes the port
switches to them where its codewords allow; a port trains while core power is good, LP4 and on staying in TRAINING
before Noon (log 117), identifies itself, and is UP once its partner's identity is accepted, with the delay that its
echoes measured, REFUSED where it is not; it trains again after DOWN and asks again when REFUSED. -/
def Obligations.LinkStates : Prop :=
  ∀ (s : State) (p : Nat), s.Running → s.hasLink p = true →
    (∀ level : BitVec 16, (s.lport p).state = .up →
      let l := s.lport p
      let fell := l.signalOk &&& ~~~ level
      let active := l.rxLanes &&& fell
      let own := l.lanes &&& fell
      let t := s.modLport p fun l => { l with signalOk := level }
      Completes (.laneSignalLoss p level) s (
        if active = 0 ∧ own = 0 then t
        else if (laneList active).length ≥ 2 ∨ (active ≠ 0 ∧ active = l.rxLanes) ∨ own = l.lanes then t.linkDown p false
        else (t.modLport p fun l => { l with removed := l.removed ||| active ||| own }).announceLanes p))
    ∧ (∀ c : LaneChange, (s.lport p).change = some c → (s.lport p).state = .up →
      (c.acked = true → (s.lport p).txTurn = 0 → (s.lport p).txIndex % 1024 = 0 → Completes (.laneChangeSwitch p) s
        ((s.modLport p fun l => { l with lanes := c.lanes, txOn := c.lanes, change := none, owed := true }).announceLanes p))
      ∧ (c.acked = false → Completes (.laneChangeAckTimeout p) s (s.linkDown p false)))
    ∧ ((s.lport p).state = .up → Completes (.linkDeadTimeout p) s (s.linkDown p false))
    ∧ ((s.lport p).state = .training → s.pins.corePwrGood = true →
      ((s.lport p).locked = false → Completes (.trainingTimeout p) s (s.bump K.linkTrainFails 1 p))
      ∧ ((s.lport p).loopback = false →
        (p < 4 ∨ 2 ≤ s.power.stage → Completes (.trainingLock p) s
          ((s.modLport p fun l => { l with state := .identify, locked := false }).emit (.identity p (s.identityBlock p))))
        ∧ (4 ≤ p → s.power.stage < 2 →
          Completes (.trainingLock p) s (s.modLport p fun l => { l with locked := true }))))
    ∧ (∀ (block : BitVec 512) (echoes : List (Nat × Nat)), s.pins.corePwrGood = true →
      (s.lport p).state = .identify ∨ (s.lport p).state = .refused →
      (s.refusesPartner block = true → Completes (.identityBlock p block echoes) s
        ((s.modLport p fun l => { l with state := .refused, neighbor := block }).raise A.linkPartnerRefused))
      ∧ (s.refusesPartner block = false → Completes (.identityBlock p block echoes) s (
        let t := s.modLport p fun l => l.accepted block (delayOf echoes) (BitVec.ofNat 16 (s.laneTarget p))
        let t := t.logEvent 0x0009 U.linkLayer ((t.lport p).linkDetail p)
        if bits block 368 32 ≠ t.par K.tickPeriodUs then t.raise A.linkTickMismatch else t)))
    ∧ ((s.lport p).state = .down → (s.lport p).loopback = false → s.linkEnabled p = true →
      Completes (.downRetrain p) s (s.modLport p fun l =>
        { l.freshLine with state := .training, removed := 0, txOn := 0xFFFF, resetN := true, locked := false }))
    ∧ ((s.lport p).state = .refused → Completes (.refusedRetry p) s (s.emit (.identity p (s.identityBlock p))))

/-- Flits. A port that is UP sends the flit that is due: an owed control flit, a replay, virtual channel 3, then 0 to
2 in turn. Lane words that arrive complete codewords, and with them the next flit: one that is damaged is discarded, a
data flit out of sequence or without room is discarded with NAK or STOP, and any other is acknowledged and placed; a
control flit gives the partner's state and its replays. A WRITE record stores its words where they lie in a window of
its partition. -/
def Obligations.FlitsAndWriteRecords : Prop :=
  ∀ (s : State) (p : Nat), s.Running →
    (s.hasLink p = true → (s.lport p).state = .up →
      let l := s.lport p
      (l.owed = true → Completes (.flitTransmit p) s (s.sendControl p))
      ∧ (∀ vc, l.owed = false → (List.range 4).find? l.replays = some vc → Completes (.flitTransmit p) s (s.sendReplay p vc))
      ∧ (l.owed = false → (List.range 4).find? l.replays = none → l.offers 3 = true →
        Completes (.flitTransmit p) s (s.sendNew p 3))
      ∧ (∀ vc, l.owed = false → (List.range 4).find? l.replays = none → l.offers 3 = false →
        [l.rr, (l.rr + 1) % 3, (l.rr + 2) % 3].find? l.offers = some vc →
        Completes (.flitTransmit p) s ((s.modLport p fun l => { l with rr := (vc + 1) % 3 }).sendNew p vc))
      ∧ Completes (.controlFlitPeriod p) s (s.modLport p fun l => { l with owed := true })
      ∧ (∀ vc, Completes (.linkReplayTimeout p vc) s (s.startReplay p vc))
      ∧ (∀ (control : Bool) (words : List (BitVec 4 × BitVec 256)),
        let c : Instr := if control then .controlFlit p words else .dataFlit p (words.map (·.1)) (words.map (·.2))
        let t := s.receiveWords p words
        (t.lport p).nextFlit = none → Completes c s t)
      ∧ (∀ (control : Bool) (words : List (BitVec 4 × BitVec 256)) (f : Flit) (good : Bool),
        let c : Instr := if control then .controlFlit p words else .dataFlit p (words.map (·.1)) (words.map (·.2))
        ((s.receiveWords p words).lport p).nextFlit = some (f, good) →
        let t := (s.receiveWords p words).modLport p LinkPort.dropFlitBits
        let vc := Flit.vc f
        let slot := Flit.payload f 0
        let heard := t.modLport p fun l => ((List.range 4).foldl (fun l vc => l.hearVc slot vc) l).hearLanes slot
        let replay (t : State) (vc : Nat) : State := if (t.lport p).state = .up then t.startReplay p vc else t
        let u := t.modLport p fun l => l.modTx (Flit.ackVc f) fun x => x.acked (Flit.ackSeq f)
        let owes (l : LinkPort) : LinkPort :=
          { l.modRx vc fun r => { r with expect := r.expect + 1, nak := false } with owed := true, ackVc := vc }
        Completes c s (
          if good = false ∨ Flit.crc f ≠ Flit.crcDue f then (if control then t else t.bump K.flitsDiscarded 1 p)
          else if Flit.family f = Fam.control then heard.each ((List.range 4).filter fun vc => bitOf slot (72 + vc)) replay
          else if Flit.seq f ≠ ((u.lport p).rxVc vc).expect then u.discardFlit p vc false
          else if u.rxUsed p vc (Flit.cls f) ≥ 32 then u.discardFlit p vc true
          else (u.modLport p owes).placeFlit (some p) f [(.transit p (Flit.cls f), Flit.slots f)])))
    ∧ (∀ (src : Nat) (h : BitVec 128) (beats : List (BitVec 512)) (e : Delivered),
      s.Serves { src := src, vc := 2, family := Fam.write, slots := h :: beats.flatMap blockSlots } e →
      let addr := bits h 64 64
      let n := bits h 53 7
      (s.inWindow (bits h 60 4) addr (64 * n) = true → Completes (.write src h beats) s
        ((s.each (beats.take n).zipIdx fun t e => t.writeWord (addr + 64 * e.2) e.1).takeRecord e))
      ∧ (s.inWindow (bits h 60 4) addr (64 * n) = false → Completes (.write src h beats) s
        (((s.bump K.partitionViolations n).raise A.partitionViolation).takeRecord e)))

/-- Teardowns and the levels of reset. A drain that ends starts L1 of the ports that still hold tasks of the context
and goes on to its cleanup; cleanup ends, or its overrun resets the partition; a level that takes too long starts the
next one, but not an L4 that waits in Dawn for START_GO; levels that are done complete together. Each expiry of the
controller's watchdog restarts the controller, which starts its firmware if it accepts it and raises FW_REJECTED if
not; a second one within the window starts an L4 too. Firmware and nonces. Firmware that is verified starts, or is
refused with FW_REJECTED; a nonce that expires is gone. -/
def Obligations.TeardownsLevelsAndFirmware : Prop :=
  (
    ∀ (s : State) (c : Nat), s.out = [] →
      (s.Running →
        (∀ l : L0, s.resets.l0s.find? (fun x => x.ctx == c && !x.complete && !x.waitTick) = some l →
          let holding := (List.range s.build.enginePorts).filter fun p => ((s.port p).held.map (s.slotOfCtx c)).getD false
          Completes (.l0DrainEnd c) s (
            let t := s.each holding fun s p => s.startL1 p false
            (t.abortItems (t.slotOfCtx c)).l0Step4 l))
        ∧ ((s.ctx c).tearing = .cleanup →
          Completes (.cleanupWalksComplete c) s (s.endCleanup c)
          ∧ Completes (.cleanupOverrun c) s (s.startL2 (s.ctx c).part)))
      ∧ (s.pins.resetN = true → ∀ r : LevelReset, argMin (fun r => 5 - r.level) s.resets.levels = some r →
        (r.level = 2 → Completes .levelTimeout s s.startL3)
        ∧ (r.level = 3 → Completes .levelTimeout s (s.startL4 r.counts))
        ∧ (r.level = 4 → s.power.started = true → Completes .levelTimeout s s.startL5)
        ∧ (r.level = 4 → s.power.started = false → Completes .levelTimeout s s))
      ∧ Completes .resetLevelComplete s (s.each (s.resets.levels.filter s.levelDone) State.levelComplete)
      ∧ (s.Managed →
        (s.mgmt.fwState = 3 →
          let t : State := { s with resets := { s.resets with mcExpired := some s.ms } }
          (∀ m, s.resets.mcExpired = some m → s.ms - m < s.par K.escalateWindowS * 1000 →
            Completes .mcWatchdogExpiry s (t.mcRestart.startL4 true))
          ∧ (s.resets.mcExpired = none ∨ (∃ m, s.resets.mcExpired = some m ∧ s.par K.escalateWindowS * 1000 ≤ s.ms - m) →
            Completes .mcWatchdogExpiry s t.mcRestart))
        ∧ (s.mgmt.fwState = 5 → Completes .mcRestartComplete s (
          if s.fwAccepted then s.fwStart
          else State.raise { s with mgmt := { s.mgmt with fwState := 4 } } A.fwRejected)))
  )
  ∧ (
    ∀ s : State, s.Managed →
      (s.mgmt.fwState = 2 → Completes .fwVerifyComplete s (
        let t : State := { s with mgmt := { s.mgmt with fwState := 4 } }
        if s.fwAccepted then s.fwStart else t.raise A.fwRejected))
      ∧ Completes .authNonceExpiry s { s with mgmt := { s.mgmt with nonce := none } }
  )

/-- Dumps, fills and SRAM. A dump that is under way is assembled from what was captured, the data of the units that a
lowering of the level found unread being zero; a zero fill writes zeros to its blocks; a failing bank takes the
array's spare or raises SRAM_NO_SPARE; an uncorrectable word raises SRAM_UNCORRECTABLE, and then a structure of a live
context starts its L0 and one not in use is rewritten as zero, a shared one starts L3, a row of the Hot Row Store
reads uncorrectable, a replay buffer takes its port DOWN with that flit's records, the controller restarts, and the
overlay cache is left as it is; the controller's words alone are left in P3. What a dump captures (log 60) and what
each failing word resets (log 63) are the model's readings. -/
def Obligations.DumpsFillsAndSram : Prop :=
  ∀ s : State,
    (∀ gone : List Nat, s.Managed → s.resets.dump.state = 1 →
      let d := s.resets.dump
      let data (u : Nat) : Bool := match d.read with
        | some n => decide (u ≤ n)
        | none => s.mgmt.debugLevel == 2
      let unit (u : Nat) : List Byte :=
        if gone.contains u then unitRecord u true d.prev.tick.number ((s.ofShadow d.prev).unitBody (data u) u)
        else unitRecord u false d.tick ((s.ofShadow d.live).unitBody (data u) u)
      let bytes := d.image ((List.range 25).flatMap fun i => unit (i + 1))
      Completes (.dumpComplete gone) s { s with resets := { s.resets with dump :=
        { state := 2, bytes := bytes, trigger := d.trigger, cause := d.cause, tick := d.tick, hc := d.hc } } })
    ∧ (∀ a n : Nat, s.Running → s.resets.zeroFill = some (a, n) →
      let t := s.each (blocksOf a n) fun s b => s.writeWord b 0
      Completes .memZeroFillComplete s { t with resets := { t.resets with zeroFill := none } })
    ∧ (∀ a bank : Nat, s.Running → bank < 32 →
      ((s.sramArray a).spared = none → (s.sramArray a).testing = false → Completes (.sramBankRotation a bank) s
        ((s.modSram a fun x => { x with spared := some bank }).raise A.sramBankSpared))
      ∧ ((s.sramArray a).spared ≠ none ∨ (s.sramArray a).testing = true →
        Completes (.sramBankRotation a bank) s (s.raise A.sramNoSpare)))
    ∧ (s.Running →
      let t := s.raise A.sramUncorrectable
      (∀ w, w ∉ [SramWord.shared, .overlayCache, .controller] → (∀ n, w ≠ .hotRow n) →
        (∀ p vc k, w ≠ .replayBuffer p vc k) →
        (∀ c, t.sramContext w = some c → Completes (.sramUncorrectable w) s (t.startL0 c 0x07))
        ∧ (t.sramContext w = none → Completes (.sramUncorrectable w) s (t.zeroWord w)))
      ∧ Completes (.sramUncorrectable .shared) s t.startL3
      ∧ Completes (.sramUncorrectable .overlayCache) s t
      ∧ (∀ off, Completes (.sramUncorrectable (.hotRow off)) s (t.spoilHot off))
      ∧ Completes (.sramUncorrectable .controller) s t.mcRestart
      ∧ (∀ p vc place, Completes (.sramUncorrectable (.replayBuffer p vc place)) s
        (if (t.lport p).state = .up then (t.loseReplay p vc place).linkDown p false else t)))
    ∧ (s.Managed → s.power.state = 3 →
      Completes (.sramUncorrectable .controller) s (s.raise A.sramUncorrectable).mcRestart)

/-- The pins of reset and core power. RESET_N low resets the chip at once, asks the tray for its power no more, and
holds it while it is low; an L5 in progress goes on once the pin is high; core power that fails outside P3 is a reset
that counts; core power that comes back ends a P3 exit. What such a reset keeps is the model's reading (log 59). -/
def Obligations.ResetAndCorePowerPins : Prop :=
  ∀ s : State, s.out = [] →
    (s.pins.resetN = true → Completes .resetNAssert s (
      let five := s.resets.levels.filter fun r => r.level == 5
      let t := State.restartL4 { s with resets := { s.resets with
        levels := s.resets.levels.filter fun r => decide (r.level ≠ 5) } } false
      { t with resets := { t.resets with levels := t.resets.levels ++ five }
               pins := { t.pins with resetN := false, trayPwrReqN := true } }))
    ∧ (s.pins.resetN = false → Completes .resetNAssert s s)
    ∧ ((∀ r ∈ s.resets.levels, r.level ≠ 5) →
      Completes .resetNRelease s { s with pins := { s.pins with resetN := true, trayPwrReqN := true } })
    ∧ ((∃ r ∈ s.resets.levels, r.level = 5) →
      Completes .resetNRelease s { s with pins := { s.pins with resetN := true, trayPwrReqN := false } })
    ∧ (let t : State := { s with pins := { s.pins with corePwrGood := false } }
      Completes .corePwrGoodFall s (
        if s.pins.corePwrReq = true ∧ s.pins.resetN = true ∧ s.power.p3Exit = false then t.restartL4 true else t))
    ∧ (let t : State := { s with pins := { s.pins with corePwrGood := true } }
      Completes .corePwrGoodRise s (if s.power.p3Exit = true ∧ s.pins.corePwrReq = true then t.exitP3 else t))

/-- Power and its sensors. At the Noon limit every unit that is late is lost, failed or noted as degraded; a sample
sets what is hot and cool and a trip enters P3; the throttle moves one step at a time, raising THROTTLE as it leaves
full rate; a clock or a region supply measured out of its range raises its alarm, a region without a port of the build
being none; a drain is noted once it is reached and given up when it takes too long; a self-test ends with its result.
Which range a clock is compared with is the model's reading (log 83), as is what a late port becomes (log 62). -/
def Obligations.PowerAndSensors : Prop :=
  ∀ s : State,
    (s.Running → s.power.started = true → s.power.stage < 2 → s.power.noonLate = false → Completes .noonLimit s (
      let mem := s.memoryPorts.filter fun p => (s.mport p).state != .online
      let t := s.each mem fun s p => (s.losePort p).raise A.startDegraded
      let t := t.each (s.enginePorts.filter s.engineLate) fun s p => (s.failPort p).raise A.startDegraded
      let t := t.each (s.linkPorts.filter s.linkLate) fun s _ => s.raise A.startDegraded
      { t with power := { t.power with noonLate := true } }))
    ∧ (s.Managed →
      (∀ l : List Int,
        let hi := (readingRange l).1
        let lo := (readingRange l).2
        let limit : Int := s.par K.thermalThrottleC * 100
        let gradient : Int := s.par K.thermalGradientC * 100
        let t : State := { s with power := { s.power with
          sensors := l, hot := decide (hi ≥ limit ∨ hi - lo > gradient)
          cool := decide (hi ≤ limit - 300 ∧ hi - lo ≤ gradient - 300) } }
        let trip : Int := (t.par K.thermalTripC * 100 : Nat)
        (l = [] ∨ hi < trip ∨ s.power.state = 3 → Completes (.thermalSample l) s t)
        ∧ (l ≠ [] → hi ≥ trip → s.power.state ≠ 3 →
          Completes (.thermalSample l) s 
            ((((t.raise A.thermalTrip).abandonPower).enterP3).modPower fun x => { x with tripped := true })))
      ∧ (∀ k, s.power.throttle = k →
        (s.power.hot = true → 0 < k → Completes (.throttleStep true) s (
          let t : State := { s with power := { s.power with throttle := k - 1 } }
          if k = 8 then t.raise A.throttle else t))
        ∧ (s.power.cool = true → k < 8 →
          Completes (.throttleStep false) s { s with power := { s.power with throttle := k + 1 } }))
      ∧ (∀ clock khz : Nat,
        let t : State := if clock = 0 then { s with power := { s.power with hclkKhz := khz } } else s
        Completes (.clockRange clock khz) s (if t.clockOut clock khz then t.raise A.clockRange else t))
      ∧ (∀ (region : Nat) (mv : Int), s.regionPresent region = true → Completes (.voltageRange region mv) s (
        let t : State := { s with power := { s.power with
          voltages := Sparse.set s.power.voltages 0 region (BitVec.ofInt 32 mv).toNat } }
        if mv > 150 ∨ mv < -150 then t.raise A.voltageRange else t))
      ∧ (∀ (region : Nat) (mv : Int), s.regionPresent region = false → Completes (.voltageRange region mv) s s))
    ∧ (s.out = [] → Completes .clockLowerSettle s { s with power := { s.power with settle := none } })
    ∧ (s.Running → s.power.draining = true →
      (s.drainReached = true → Completes .powerDrainComplete s { s with power := { s.power with drained := true } })
      ∧ (s.power.drained = false → Completes .p2DrainTimeout s s.abandonPower))
    ∧ (s.Running → s.power.selfTest.state = 2 → ∀ pass : Bool, Completes (.selftestComplete pass) s (
      let x := s.power.selfTest
      let word := testWord x.kind x.target (if pass then 0 else 1)
      let t := State.endTest { s with power := { s.power with selfTest := { result := word } } } x pass
      if pass then t else t.raise A.selftestFail))
    ∧ (s.Running → s.power.selfTest.state = 1 → s.power.selfTest.waitTick = false →
      Completes .selftestDrainTimeout s (s.each s.testHolders State.startL2).testMayRun)

/-- A write of INDEX:SUB to COUNTER_CLEAR makes every element of that event counter zero at once, SAT with it, and is
not logged; one that names an object that is not an event counter is refused with RANGE. -/
def Obligations.CounterClearZeroesItsCounter : Prop :=
  ∀ (s : State) (v : BitVec 32),
    let key := v.toNat / 65536 * 256 + v.toNat / 256 % 256
    (s.Accepts K.counterClear 0 v.toNat →
      ∃ t, Completes (.counterClear v) s t ∧ t.replay = s.replay
        ∧ ∀ e < 2 ^ 20, t.counterAt key e = 0 ∧ Sparse.get t.dict.acc 0 (dictKey key e) = 0)
    ∧ (∀ w : BitVec 32, s.Accepts K.counterClear 0 w.toNat →
      (∀ r, objDesc key = some r → r.cls ≠ 2) → s.dictCheck false (writeReq K.counterClear 0 v.toNat) = D.range)

/-- Event counters. An event counted adds to what the counter and its accumulator hold together, whatever is
forwarded, as long as the sum stays below the top, and changes no other counter; a forwarded sum moves from the
accumulator to the counter, which stops at 2^48 − 1. -/
def Obligations.CountersCountAndForward : Prop :=
  (∀ (s : State) (key e : Nat) (r : ObjDesc), s.Running → objDesc key = some r → r.cls = 2 → e < r.elements →
    let k := dictKey key e
    Completes (.counterSumForward key e) s { s with dict := { s.dict with
      acc := Sparse.erase s.dict.acc k
      counters := Sparse.set s.dict.counters 0 k
        (Nat.min (2 ^ 48 - 1) (Sparse.get s.dict.counters 0 k + Sparse.get s.dict.acc 0 k)) } })
  ∧ (∀ (s : State) (key n e : Nat), Sparse.wf 0 s.dict.acc = true → Sparse.wf 0 s.dict.counters = true →
    let total (s : State) (k : Nat) : Nat := Sparse.get s.dict.counters 0 k + Sparse.get s.dict.acc 0 k
    (total s (dictKey key e) + n < 2 ^ 48 → total (s.bump key n e) (dictKey key e) = total s (dictKey key e) + n)
    ∧ ∀ k, k ≠ dictKey key e → total (s.bump key n e) k = total s k)

/-- Alarms. An occurrence adds one to its latch's COUNT, sets LAST, sets FIRST where COUNT was zero, and sets PENDING;
no other latch changes. ALARM_N is low once a pending latch is not masked, and high where none is or while RESET_N is
low. ALARM_ACK clears PENDING unless HELD is set; ALARM_MASK keeps the bits of the alarms that exist (the model's
choice, log 64). -/
def Obligations.AlarmsLatchAndDriveThePin : Prop :=
  (
    (∀ (s : State) (code : Nat), Sparse.wf {} s.tele.latches = true →
      let hc := BitVec.ofNat 32 s.clk.hc
      let old : Latch := Sparse.get s.tele.latches {} code
      let new : Latch := Sparse.get (s.raise code).tele.latches {} code
      new.count = Nat.min (2 ^ 48 - 1) (old.count + 1) ∧ new.pending = true ∧ new.held = old.held
      ∧ new.lastTick = s.tick.number ∧ new.lastHc = hc
      ∧ new.firstTick = (if old.count = 0 then s.tick.number else old.firstTick)
      ∧ new.firstHc = (if old.count = 0 then hc else old.firstHc)
      ∧ ∀ c, c ≠ code → Sparse.get (s.raise code).tele.latches {} c = Sparse.get s.tele.latches {} c)
    ∧ (∀ s : State, Sparse.wf {} s.tele.latches = true →
      ((State.settle s).pins.alarmN = false ↔ s.pins.resetN = true
        ∧ ∃ c, (Sparse.get s.tele.latches {} c).pending = true ∧ bit (s.par K.alarmMask) c = false))
  )
  ∧ (
    ∀ (s : State) (code : Nat) (m : BitVec 128),
      (code < 128 → s.Accepts K.alarmAck 0 code → Completes (.alarmAck code) s (s.wrote fun s =>
        s.modLatch code fun l => { l with pending := l.held && l.pending }))
      ∧ (s.Accepts K.alarmMask 0 m.toNat → Completes (.alarmMaskWrite m) s (s.wrote fun s =>
        s.setValue K.alarmMask 0 (writeMask K.alarmMask m.toNat)))
  )

/-- The replay log. Outside RECORD an input writes nothing; in RECORD it takes the next place among its boundary's
entries, and, where the ring has room for them all and no earlier words wait for it, its header and then its body
words are written one after the other, each at the device address of the ring's place that the produced index names: a
word that memory accepts there and then is what that address reads as. The header carries the entry's boundary, its
place among that boundary's entries, its kind, the number of its body words, its context, its generation and its
arguments. -/
def Obligations.LoggedInputsTakeTheirPlace : Prop :=
  let put (t : State) (w : BitVec 512) : State :=
    (State.modReplay (t.writeWord (t.logAddr t.replay.produced) w) fun r =>
      { r with produced := r.produced + 1, backlog := r.backlog.drop 1 }).bump K.replayEntries
  (∀ (s : State) (tick : BitVec 64) (kind ctx gen args : Nat) (body : List (BitVec 512)),
    let order := Sparse.get s.replay.orders 0 tick.toNat
    let h := logHeader tick.toNat order kind body.length ctx gen args
    let t := s.logInput tick kind ctx gen args body
    (s.replay.mode ≠ 1 → t = s)
    ∧ (s.replay.mode = 1 → Sparse.wf 0 s.replay.orders = true →
      Sparse.get t.replay.orders 0 tick.toNat = order + 1
      ∧ t.replay.consumed = s.replay.consumed ∧ t.tick = s.tick ∧ t.mat = s.mat ∧ t.adm = s.adm ∧ t.qs = s.qs
      ∧ (s.replay.backlog = [] → s.logUsed + 1 + body.length ≤ s.logSize →
        t.replay.produced = s.replay.produced + 1 + BitVec.ofNat 32 body.length ∧ t.replay.backlog = []
        ∧ t = (h :: body).foldl put { s with replay := { s.replay with
          orders := Sparse.set (s.replay.orders.filter fun e => decide (s.tick.number.toNat ≤ e.1)) 0 tick.toNat (order + 1)
          backlog := h :: body } }))
    ∧ (kind < 256 → body.length < 16 → ctx < 4096 → gen < 2 ^ 16 → args < 2 ^ 376 → order < 2 ^ 32 →
      bits h 448 64 = tick.toNat ∧ bits h 416 32 = order ∧ bits h 408 8 = kind ∧ bits h 404 4 = body.length
        ∧ bits h 392 12 = ctx ∧ bits h 376 16 = gen ∧ bits h 0 376 = args))
  ∧ (∀ (u : State) (w : BitVec 512),
    let a := u.par K.replayLogBase + u.replay.produced.toNat % 2 ^ u.par K.replayLogLog2 * 64
    Memory.wf u.stripe.mem = true → a % 64 = 0 → (u.wipeFirst a).rowHeld a = false →
    (u.wipeFirst a).writeFate a = .put → (put u w).peekWord a = w)
end

