-- ==== Sys2Proof/Laws/Sparse.lean ====
section
/-! SUPPORT. Laws of the sparse tables and of memory as one: what reading after writing gives, and that the canonical form
(indices strictly rising, no entry equal to what an unlisted one reads as) is kept. -/
namespace Sys2Proof

variable {α : Type}

@[simp] theorem Sparse.find_nil (k : Nat) : Sparse.find ([] : Sparse α) k = none := rfl

@[simp] theorem Sparse.get_nil (d : α) (k : Nat) : Sparse.get [] d k = d := rfl

/-- A listed entry reads as it was listed. -/
@[simp] theorem Sparse.find_insert_self (m : Sparse α) (k : Nat) (v : α) : Sparse.find (Sparse.insert m k v) k = some v := by
  induction m with
  | nil => simp [Sparse.insert, Sparse.find]
  | cons e t ih =>
    obtain ⟨i, w⟩ := e
    unfold Sparse.insert
    split
    · simp [Sparse.find]
    · split
      · simp [Sparse.find]
      · rename_i h; simp [Sparse.find, h, ih]

/-- Listing an entry leaves every other entry. -/
theorem Sparse.find_insert_ne (m : Sparse α) {k j : Nat} (v : α) (h : j ≠ k) :
    Sparse.find (Sparse.insert m k v) j = Sparse.find m j := by
  induction m with
  | nil => simp [Sparse.insert, Sparse.find, Ne.symm h]
  | cons e t ih =>
    obtain ⟨i, w⟩ := e
    unfold Sparse.insert
    split
    · simp [Sparse.find, Ne.symm h]
    · split
      · rename_i hi; subst hi; simp [Sparse.find, Ne.symm h]
      · simp only [Sparse.find, ih]

/-- Removing an entry leaves every other entry. -/
theorem Sparse.find_erase_ne (m : Sparse α) {k j : Nat} (h : j ≠ k) :
    Sparse.find (Sparse.erase m k) j = Sparse.find m j := by
  induction m with
  | nil => rfl
  | cons e t ih =>
    obtain ⟨i, w⟩ := e
    unfold Sparse.erase
    split
    · rename_i hi; subst hi; simp [Sparse.find, Ne.symm h]
    · split
      · rfl
      · simp only [Sparse.find, ih]

/-- The canonical form, unfolded at one entry. -/
theorem Sparse.wf_cons [DecidableEq α] (d : α) (i : Nat) (v : α) (t : Sparse α) :
    Sparse.wf d ((i, v) :: t) = true ↔ v ≠ d ∧ (∀ e ∈ t, i < e.1) ∧ Sparse.wf d t = true := by
  simp [Sparse.wf, and_assoc]

/-- An index below every listed one is not listed. -/
theorem Sparse.find_none_of_lt {m : Sparse α} {k : Nat} (h : ∀ e ∈ m, k < e.1) : Sparse.find m k = none := by
  induction m with
  | nil => rfl
  | cons e t ih =>
    obtain ⟨i, w⟩ := e
    have hi : k < i := h (i, w) (List.mem_cons_self ..)
    have : i ≠ k := by omega
    simp [Sparse.find, this, ih fun e he => h e (List.mem_cons_of_mem _ he)]

/-- In canonical form a removed entry is unlisted. -/
theorem Sparse.find_erase_self [DecidableEq α] {d : α} {m : Sparse α} (h : Sparse.wf d m = true) (k : Nat) :
    Sparse.find (Sparse.erase m k) k = none := by
  induction m with
  | nil => rfl
  | cons e t ih =>
    obtain ⟨i, w⟩ := e
    obtain ⟨_, h2, h3⟩ := (Sparse.wf_cons d i w t).1 h
    unfold Sparse.erase
    split
    · rename_i hi; subst hi; exact Sparse.find_none_of_lt h2
    · split
      · rename_i hi hk
        refine Sparse.find_none_of_lt fun e he => ?_
        rcases List.mem_cons.1 he with rfl | he
        · exact hk
        · exact lt_trans hk (h2 e he)
      · rename_i hi _; simp [Sparse.find, hi, ih h3]

/-- A table entry reads as it was written. -/
theorem Sparse.get_set_self [DecidableEq α] {d : α} {m : Sparse α} (h : Sparse.wf d m = true) (k : Nat) (v : α) :
    Sparse.get (Sparse.set m d k v) d k = v := by
  unfold Sparse.set Sparse.get
  split
  · rename_i hv; simp [Sparse.find_erase_self h, hv]
  · simp

/-- Writing a table entry leaves every other entry. -/
theorem Sparse.get_set_ne [DecidableEq α] (m : Sparse α) (d : α) {k j : Nat} (v : α) (h : j ≠ k) :
    Sparse.get (Sparse.set m d k v) d j = Sparse.get m d j := by
  unfold Sparse.set Sparse.get
  split
  · rw [Sparse.find_erase_ne m h]
  · rw [Sparse.find_insert_ne m v h]

/-- An entry of a table with one entry removed was listed before. -/
theorem Sparse.mem_erase {m : Sparse α} {k : Nat} {e : Nat × α} (h : e ∈ Sparse.erase m k) : e ∈ m := by
  induction m with
  | nil => exact h
  | cons x t ih =>
    obtain ⟨i, w⟩ := x
    unfold Sparse.erase at h
    split at h
    · exact List.mem_cons_of_mem _ h
    · split at h
      · exact h
      · rcases List.mem_cons.1 h with rfl | h
        · exact List.mem_cons_self ..
        · exact List.mem_cons_of_mem _ (ih h)

/-- An entry of a table with one entry written is that entry or was listed before. -/
theorem Sparse.mem_insert {m : Sparse α} {k : Nat} {v : α} {e : Nat × α} (h : e ∈ Sparse.insert m k v) :
    e = (k, v) ∨ e ∈ m := by
  induction m with
  | nil => simpa [Sparse.insert] using h
  | cons x t ih =>
    obtain ⟨i, w⟩ := x
    unfold Sparse.insert at h
    split at h
    · simpa using h
    · split at h
      · rcases List.mem_cons.1 h with rfl | h
        · exact .inl rfl
        · exact .inr (List.mem_cons_of_mem _ h)
      · rcases List.mem_cons.1 h with rfl | h
        · exact .inr (List.mem_cons_self ..)
        · exact (ih h).imp_right (List.mem_cons_of_mem _)

/-- Removing an entry keeps the canonical form. -/
theorem Sparse.wf_erase [DecidableEq α] {d : α} {m : Sparse α} (h : Sparse.wf d m = true) (k : Nat) :
    Sparse.wf d (Sparse.erase m k) = true := by
  induction m with
  | nil => rfl
  | cons e t ih =>
    obtain ⟨i, w⟩ := e
    obtain ⟨h1, h2, h3⟩ := (Sparse.wf_cons d i w t).1 h
    unfold Sparse.erase
    split
    · exact h3
    · split
      · exact h
      · exact (Sparse.wf_cons ..).2 ⟨h1, fun e he => h2 e (Sparse.mem_erase he), ih h3⟩

/-- Listing an entry other than the default keeps the canonical form. -/
theorem Sparse.wf_insert [DecidableEq α] {d : α} {m : Sparse α} (h : Sparse.wf d m = true) (k : Nat) {v : α} (hv : v ≠ d) :
    Sparse.wf d (Sparse.insert m k v) = true := by
  induction m with
  | nil => simp [Sparse.insert, Sparse.wf, hv]
  | cons e t ih =>
    obtain ⟨i, w⟩ := e
    obtain ⟨h1, h2, h3⟩ := (Sparse.wf_cons d i w t).1 h
    unfold Sparse.insert
    split
    · rename_i hk
      refine (Sparse.wf_cons ..).2 ⟨hv, fun e he => ?_, h⟩
      rcases List.mem_cons.1 he with rfl | he
      · exact hk
      · exact lt_trans hk (h2 e he)
    · split
      · rename_i hi; subst hi; exact (Sparse.wf_cons ..).2 ⟨hv, h2, h3⟩
      · rename_i hk hi
        refine (Sparse.wf_cons ..).2 ⟨h1, fun e he => ?_, ih h3⟩
        rcases Sparse.mem_insert he with rfl | he
        · simp only; omega
        · exact h2 e he

/-- Writing an entry keeps the canonical form. -/
theorem Sparse.wf_set [DecidableEq α] {d : α} {m : Sparse α} (h : Sparse.wf d m = true) (k : Nat) (v : α) :
    Sparse.wf d (Sparse.set m d k v) = true := by
  unfold Sparse.set
  split
  · exact Sparse.wf_erase h k
  · rename_i hv; exact Sparse.wf_insert h k hv

namespace Machine

/-- Memory after reset is in canonical form: it lists nothing. -/
theorem reset_mem_wf : Memory.wf State.reset.stripe.mem = true := rfl

/-- Writing bytes keeps memory in canonical form. -/
theorem memPut_wf {m : List Host.Cell} (h : Memory.wf m = true) (a : Nat) (bs : List Byte) :
    Memory.wf (memPut m a bs) = true := by
  induction bs generalizing m a with
  | nil => exact h
  | cons b t ih => exact ih (Sparse.wf_set h a b) (a + 1)

/-- Writing bytes leaves every byte outside them. -/
theorem memPut_outside (m : List Host.Cell) (a : Nat) (bs : List Byte) {j : Nat} (h : j < a ∨ a + bs.length ≤ j) :
    Sparse.get (memPut m a bs) 0 j = Sparse.get m 0 j := by
  induction bs generalizing m a with
  | nil => rfl
  | cons b t ih =>
    simp only [List.length_cons] at h
    rw [memPut, ih _ _ (by omega), Sparse.get_set_ne m 0 b (by omega)]

/-- A byte written reads as it was written. -/
theorem memPut_inside {m : List Host.Cell} (h : Memory.wf m = true) (a : Nat) (bs : List Byte) (i : Nat)
    (hi : i < bs.length) : Sparse.get (memPut m a bs) 0 (a + i) = bs[i] := by
  induction bs generalizing m a i with
  | nil => simp at hi
  | cons b t ih =>
    cases i with
    | zero =>
      simp only [memPut, Nat.add_zero, List.getElem_cons_zero]
      rw [memPut_outside _ _ _ (.inl (Nat.lt_succ_self a))]
      exact Sparse.get_set_self h a b
    | succ i =>
      have := ih (Sparse.wf_set h a b) (a + 1) i (by simpa using hi)
      simpa [memPut, Nat.add_assoc, Nat.add_comm 1 i] using this

/-- Bytes read back as they were written. -/
theorem memBytes_memPut {m : List Host.Cell} (h : Memory.wf m = true) (a : Nat) (bs : List Byte) :
    memBytes (memPut m a bs) a bs.length = bs := by
  have key : ∀ (n a : Nat) (m : List Host.Cell) (l : List Byte), l.length = n →
      (∀ i (hi : i < l.length), Sparse.get m 0 (a + i) = l[i]) → memBytes m a n = l := by
    intro n
    induction n with
    | zero => intro a m l hl _; simp [memBytes, List.length_eq_zero_iff.1 hl]
    | succ n ih =>
      intro a m l hl hi
      cases l with
      | nil => simp at hl
      | cons b t =>
        have h0 := hi 0 (by simp)
        simp only [Nat.add_zero, List.getElem_cons_zero] at h0
        have ht := ih (a + 1) m t (by simpa using hl) fun i hi' => by
          have := hi (i + 1) (by simpa using hi')
          simpa [Nat.add_assoc, Nat.add_comm 1 i] using this
        rw [memBytes, h0, ht]
  exact key _ _ _ _ rfl fun i hi => memPut_inside h a bs i hi

end Machine
end Sys2Proof
end

