-- ==== Sys2Proof/Laws/State.lean ====
section
/-! SUPPORT. What each named update of the state leaves of every part of it: a lemma per part and update. -/
namespace Sys2Proof.Machine

variable (s : State)

/-! Parts of the state after modLatch. -/
@[simp] theorem modLatch_build (c : Nat) (f : Latch → Latch) : (s.modLatch c f).build = s.build := rfl
@[simp] theorem modLatch_clk (c : Nat) (f : Latch → Latch) : (s.modLatch c f).clk = s.clk := rfl
@[simp] theorem modLatch_tick (c : Nat) (f : Latch → Latch) : (s.modLatch c f).tick = s.tick := rfl
@[simp] theorem modLatch_dict (c : Nat) (f : Latch → Latch) : (s.modLatch c f).dict = s.dict := rfl
@[simp] theorem modLatch_loader (c : Nat) (f : Latch → Latch) : (s.modLatch c f).loader = s.loader := rfl
@[simp] theorem modLatch_mat (c : Nat) (f : Latch → Latch) : (s.modLatch c f).mat = s.mat := rfl
@[simp] theorem modLatch_disp (c : Nat) (f : Latch → Latch) : (s.modLatch c f).disp = s.disp := rfl
@[simp] theorem modLatch_adm (c : Nat) (f : Latch → Latch) : (s.modLatch c f).adm = s.adm := rfl
@[simp] theorem modLatch_qs (c : Nat) (f : Latch → Latch) : (s.modLatch c f).qs = s.qs := rfl
@[simp] theorem modLatch_sig (c : Nat) (f : Latch → Latch) : (s.modLatch c f).sig = s.sig := rfl
@[simp] theorem modLatch_emb (c : Nat) (f : Latch → Latch) : (s.modLatch c f).emb = s.emb := rfl
@[simp] theorem modLatch_route (c : Nat) (f : Latch → Latch) : (s.modLatch c f).route = s.route := rfl
@[simp] theorem modLatch_stripe (c : Nat) (f : Latch → Latch) : (s.modLatch c f).stripe = s.stripe := rfl
@[simp] theorem modLatch_links (c : Nat) (f : Latch → Latch) : (s.modLatch c f).links = s.links := rfl
@[simp] theorem modLatch_replay (c : Nat) (f : Latch → Latch) : (s.modLatch c f).replay = s.replay := rfl
@[simp] theorem modLatch_resets (c : Nat) (f : Latch → Latch) : (s.modLatch c f).resets = s.resets := rfl
@[simp] theorem modLatch_power (c : Nat) (f : Latch → Latch) : (s.modLatch c f).power = s.power := rfl
@[simp] theorem modLatch_mgmt (c : Nat) (f : Latch → Latch) : (s.modLatch c f).mgmt = s.mgmt := rfl
@[simp] theorem modLatch_win (c : Nat) (f : Latch → Latch) : (s.modLatch c f).win = s.win := rfl
@[simp] theorem modLatch_shadow (c : Nat) (f : Latch → Latch) : (s.modLatch c f).shadow = s.shadow := rfl
@[simp] theorem modLatch_pins (c : Nat) (f : Latch → Latch) : (s.modLatch c f).pins = s.pins := rfl
@[simp] theorem modLatch_out (c : Nat) (f : Latch → Latch) : (s.modLatch c f).out = s.out := rfl
@[simp] theorem modLatch_pending (c : Nat) (f : Latch → Latch) : (s.modLatch c f).pending = s.pending := rfl

/-! Parts of the state after modCtx. -/
@[simp] theorem modCtx_build (c : Nat) (f : Ctx → Ctx) : (s.modCtx c f).build = s.build := rfl
@[simp] theorem modCtx_clk (c : Nat) (f : Ctx → Ctx) : (s.modCtx c f).clk = s.clk := rfl
@[simp] theorem modCtx_tick (c : Nat) (f : Ctx → Ctx) : (s.modCtx c f).tick = s.tick := rfl
@[simp] theorem modCtx_dict (c : Nat) (f : Ctx → Ctx) : (s.modCtx c f).dict = s.dict := rfl
@[simp] theorem modCtx_tele (c : Nat) (f : Ctx → Ctx) : (s.modCtx c f).tele = s.tele := rfl
@[simp] theorem modCtx_loader (c : Nat) (f : Ctx → Ctx) : (s.modCtx c f).loader = s.loader := rfl
@[simp] theorem modCtx_mat (c : Nat) (f : Ctx → Ctx) : (s.modCtx c f).mat = s.mat := rfl
@[simp] theorem modCtx_disp (c : Nat) (f : Ctx → Ctx) : (s.modCtx c f).disp = s.disp := rfl
@[simp] theorem modCtx_qs (c : Nat) (f : Ctx → Ctx) : (s.modCtx c f).qs = s.qs := rfl
@[simp] theorem modCtx_sig (c : Nat) (f : Ctx → Ctx) : (s.modCtx c f).sig = s.sig := rfl
@[simp] theorem modCtx_emb (c : Nat) (f : Ctx → Ctx) : (s.modCtx c f).emb = s.emb := rfl
@[simp] theorem modCtx_route (c : Nat) (f : Ctx → Ctx) : (s.modCtx c f).route = s.route := rfl
@[simp] theorem modCtx_stripe (c : Nat) (f : Ctx → Ctx) : (s.modCtx c f).stripe = s.stripe := rfl
@[simp] theorem modCtx_links (c : Nat) (f : Ctx → Ctx) : (s.modCtx c f).links = s.links := rfl
@[simp] theorem modCtx_replay (c : Nat) (f : Ctx → Ctx) : (s.modCtx c f).replay = s.replay := rfl
@[simp] theorem modCtx_resets (c : Nat) (f : Ctx → Ctx) : (s.modCtx c f).resets = s.resets := rfl
@[simp] theorem modCtx_power (c : Nat) (f : Ctx → Ctx) : (s.modCtx c f).power = s.power := rfl
@[simp] theorem modCtx_mgmt (c : Nat) (f : Ctx → Ctx) : (s.modCtx c f).mgmt = s.mgmt := rfl
@[simp] theorem modCtx_win (c : Nat) (f : Ctx → Ctx) : (s.modCtx c f).win = s.win := rfl
@[simp] theorem modCtx_shadow (c : Nat) (f : Ctx → Ctx) : (s.modCtx c f).shadow = s.shadow := rfl
@[simp] theorem modCtx_pins (c : Nat) (f : Ctx → Ctx) : (s.modCtx c f).pins = s.pins := rfl
@[simp] theorem modCtx_out (c : Nat) (f : Ctx → Ctx) : (s.modCtx c f).out = s.out := rfl
@[simp] theorem modCtx_pending (c : Nat) (f : Ctx → Ctx) : (s.modCtx c f).pending = s.pending := rfl

/-! Parts of the state after putHold. -/
@[simp] theorem putHold_build (h : Nat) (v : Hold) : (s.putHold h v).build = s.build := rfl
@[simp] theorem putHold_clk (h : Nat) (v : Hold) : (s.putHold h v).clk = s.clk := rfl
@[simp] theorem putHold_tick (h : Nat) (v : Hold) : (s.putHold h v).tick = s.tick := rfl
@[simp] theorem putHold_dict (h : Nat) (v : Hold) : (s.putHold h v).dict = s.dict := rfl
@[simp] theorem putHold_tele (h : Nat) (v : Hold) : (s.putHold h v).tele = s.tele := rfl
@[simp] theorem putHold_loader (h : Nat) (v : Hold) : (s.putHold h v).loader = s.loader := rfl
@[simp] theorem putHold_mat (h : Nat) (v : Hold) : (s.putHold h v).mat = s.mat := rfl
@[simp] theorem putHold_disp (h : Nat) (v : Hold) : (s.putHold h v).disp = s.disp := rfl
@[simp] theorem putHold_qs (h : Nat) (v : Hold) : (s.putHold h v).qs = s.qs := rfl
@[simp] theorem putHold_sig (h : Nat) (v : Hold) : (s.putHold h v).sig = s.sig := rfl
@[simp] theorem putHold_emb (h : Nat) (v : Hold) : (s.putHold h v).emb = s.emb := rfl
@[simp] theorem putHold_route (h : Nat) (v : Hold) : (s.putHold h v).route = s.route := rfl
@[simp] theorem putHold_stripe (h : Nat) (v : Hold) : (s.putHold h v).stripe = s.stripe := rfl
@[simp] theorem putHold_links (h : Nat) (v : Hold) : (s.putHold h v).links = s.links := rfl
@[simp] theorem putHold_replay (h : Nat) (v : Hold) : (s.putHold h v).replay = s.replay := rfl
@[simp] theorem putHold_resets (h : Nat) (v : Hold) : (s.putHold h v).resets = s.resets := rfl
@[simp] theorem putHold_power (h : Nat) (v : Hold) : (s.putHold h v).power = s.power := rfl
@[simp] theorem putHold_mgmt (h : Nat) (v : Hold) : (s.putHold h v).mgmt = s.mgmt := rfl
@[simp] theorem putHold_win (h : Nat) (v : Hold) : (s.putHold h v).win = s.win := rfl
@[simp] theorem putHold_shadow (h : Nat) (v : Hold) : (s.putHold h v).shadow = s.shadow := rfl
@[simp] theorem putHold_pins (h : Nat) (v : Hold) : (s.putHold h v).pins = s.pins := rfl
@[simp] theorem putHold_out (h : Nat) (v : Hold) : (s.putHold h v).out = s.out := rfl
@[simp] theorem putHold_pending (h : Nat) (v : Hold) : (s.putHold h v).pending = s.pending := rfl

/-! Parts of the state after freeHold. -/
@[simp] theorem freeHold_build (h : Nat) : (s.freeHold h).build = s.build := rfl
@[simp] theorem freeHold_clk (h : Nat) : (s.freeHold h).clk = s.clk := rfl
@[simp] theorem freeHold_tick (h : Nat) : (s.freeHold h).tick = s.tick := rfl
@[simp] theorem freeHold_dict (h : Nat) : (s.freeHold h).dict = s.dict := rfl
@[simp] theorem freeHold_tele (h : Nat) : (s.freeHold h).tele = s.tele := rfl
@[simp] theorem freeHold_loader (h : Nat) : (s.freeHold h).loader = s.loader := rfl
@[simp] theorem freeHold_mat (h : Nat) : (s.freeHold h).mat = s.mat := rfl
@[simp] theorem freeHold_disp (h : Nat) : (s.freeHold h).disp = s.disp := rfl
@[simp] theorem freeHold_qs (h : Nat) : (s.freeHold h).qs = s.qs := rfl
@[simp] theorem freeHold_sig (h : Nat) : (s.freeHold h).sig = s.sig := rfl
@[simp] theorem freeHold_emb (h : Nat) : (s.freeHold h).emb = s.emb := rfl
@[simp] theorem freeHold_route (h : Nat) : (s.freeHold h).route = s.route := rfl
@[simp] theorem freeHold_stripe (h : Nat) : (s.freeHold h).stripe = s.stripe := rfl
@[simp] theorem freeHold_links (h : Nat) : (s.freeHold h).links = s.links := rfl
@[simp] theorem freeHold_replay (h : Nat) : (s.freeHold h).replay = s.replay := rfl
@[simp] theorem freeHold_resets (h : Nat) : (s.freeHold h).resets = s.resets := rfl
@[simp] theorem freeHold_power (h : Nat) : (s.freeHold h).power = s.power := rfl
@[simp] theorem freeHold_mgmt (h : Nat) : (s.freeHold h).mgmt = s.mgmt := rfl
@[simp] theorem freeHold_win (h : Nat) : (s.freeHold h).win = s.win := rfl
@[simp] theorem freeHold_shadow (h : Nat) : (s.freeHold h).shadow = s.shadow := rfl
@[simp] theorem freeHold_pins (h : Nat) : (s.freeHold h).pins = s.pins := rfl
@[simp] theorem freeHold_out (h : Nat) : (s.freeHold h).out = s.out := rfl
@[simp] theorem freeHold_pending (h : Nat) : (s.freeHold h).pending = s.pending := rfl

/-! Parts of the state after modHold. -/
@[simp] theorem modHold_build (h : Nat) (f : Hold → Hold) : (s.modHold h f).build = s.build := by
  unfold State.modHold; split <;> rfl
@[simp] theorem modHold_clk (h : Nat) (f : Hold → Hold) : (s.modHold h f).clk = s.clk := by
  unfold State.modHold; split <;> rfl
@[simp] theorem modHold_tick (h : Nat) (f : Hold → Hold) : (s.modHold h f).tick = s.tick := by
  unfold State.modHold; split <;> rfl
@[simp] theorem modHold_dict (h : Nat) (f : Hold → Hold) : (s.modHold h f).dict = s.dict := by
  unfold State.modHold; split <;> rfl
@[simp] theorem modHold_tele (h : Nat) (f : Hold → Hold) : (s.modHold h f).tele = s.tele := by
  unfold State.modHold; split <;> rfl
@[simp] theorem modHold_loader (h : Nat) (f : Hold → Hold) : (s.modHold h f).loader = s.loader := by
  unfold State.modHold; split <;> rfl
@[simp] theorem modHold_mat (h : Nat) (f : Hold → Hold) : (s.modHold h f).mat = s.mat := by
  unfold State.modHold; split <;> rfl
@[simp] theorem modHold_disp (h : Nat) (f : Hold → Hold) : (s.modHold h f).disp = s.disp := by
  unfold State.modHold; split <;> rfl
@[simp] theorem modHold_qs (h : Nat) (f : Hold → Hold) : (s.modHold h f).qs = s.qs := by
  unfold State.modHold; split <;> rfl
@[simp] theorem modHold_sig (h : Nat) (f : Hold → Hold) : (s.modHold h f).sig = s.sig := by
  unfold State.modHold; split <;> rfl
@[simp] theorem modHold_emb (h : Nat) (f : Hold → Hold) : (s.modHold h f).emb = s.emb := by
  unfold State.modHold; split <;> rfl
@[simp] theorem modHold_route (h : Nat) (f : Hold → Hold) : (s.modHold h f).route = s.route := by
  unfold State.modHold; split <;> rfl
@[simp] theorem modHold_stripe (h : Nat) (f : Hold → Hold) : (s.modHold h f).stripe = s.stripe := by
  unfold State.modHold; split <;> rfl
@[simp] theorem modHold_links (h : Nat) (f : Hold → Hold) : (s.modHold h f).links = s.links := by
  unfold State.modHold; split <;> rfl
@[simp] theorem modHold_replay (h : Nat) (f : Hold → Hold) : (s.modHold h f).replay = s.replay := by
  unfold State.modHold; split <;> rfl
@[simp] theorem modHold_resets (h : Nat) (f : Hold → Hold) : (s.modHold h f).resets = s.resets := by
  unfold State.modHold; split <;> rfl
@[simp] theorem modHold_power (h : Nat) (f : Hold → Hold) : (s.modHold h f).power = s.power := by
  unfold State.modHold; split <;> rfl
@[simp] theorem modHold_mgmt (h : Nat) (f : Hold → Hold) : (s.modHold h f).mgmt = s.mgmt := by
  unfold State.modHold; split <;> rfl
@[simp] theorem modHold_win (h : Nat) (f : Hold → Hold) : (s.modHold h f).win = s.win := by
  unfold State.modHold; split <;> rfl
@[simp] theorem modHold_shadow (h : Nat) (f : Hold → Hold) : (s.modHold h f).shadow = s.shadow := by
  unfold State.modHold; split <;> rfl
@[simp] theorem modHold_pins (h : Nat) (f : Hold → Hold) : (s.modHold h f).pins = s.pins := by
  unfold State.modHold; split <;> rfl
@[simp] theorem modHold_out (h : Nat) (f : Hold → Hold) : (s.modHold h f).out = s.out := by
  unfold State.modHold; split <;> rfl
@[simp] theorem modHold_pending (h : Nat) (f : Hold → Hold) : (s.modHold h f).pending = s.pending := by
  unfold State.modHold; split <;> rfl

/-! Parts of the state after modFlow. -/
@[simp] theorem modFlow_build (n : Nat) (f : Flow → Flow) : (s.modFlow n f).build = s.build := rfl
@[simp] theorem modFlow_clk (n : Nat) (f : Flow → Flow) : (s.modFlow n f).clk = s.clk := rfl
@[simp] theorem modFlow_tick (n : Nat) (f : Flow → Flow) : (s.modFlow n f).tick = s.tick := rfl
@[simp] theorem modFlow_dict (n : Nat) (f : Flow → Flow) : (s.modFlow n f).dict = s.dict := rfl
@[simp] theorem modFlow_tele (n : Nat) (f : Flow → Flow) : (s.modFlow n f).tele = s.tele := rfl
@[simp] theorem modFlow_loader (n : Nat) (f : Flow → Flow) : (s.modFlow n f).loader = s.loader := rfl
@[simp] theorem modFlow_mat (n : Nat) (f : Flow → Flow) : (s.modFlow n f).mat = s.mat := rfl
@[simp] theorem modFlow_disp (n : Nat) (f : Flow → Flow) : (s.modFlow n f).disp = s.disp := rfl
@[simp] theorem modFlow_qs (n : Nat) (f : Flow → Flow) : (s.modFlow n f).qs = s.qs := rfl
@[simp] theorem modFlow_sig (n : Nat) (f : Flow → Flow) : (s.modFlow n f).sig = s.sig := rfl
@[simp] theorem modFlow_emb (n : Nat) (f : Flow → Flow) : (s.modFlow n f).emb = s.emb := rfl
@[simp] theorem modFlow_route (n : Nat) (f : Flow → Flow) : (s.modFlow n f).route = s.route := rfl
@[simp] theorem modFlow_stripe (n : Nat) (f : Flow → Flow) : (s.modFlow n f).stripe = s.stripe := rfl
@[simp] theorem modFlow_links (n : Nat) (f : Flow → Flow) : (s.modFlow n f).links = s.links := rfl
@[simp] theorem modFlow_replay (n : Nat) (f : Flow → Flow) : (s.modFlow n f).replay = s.replay := rfl
@[simp] theorem modFlow_resets (n : Nat) (f : Flow → Flow) : (s.modFlow n f).resets = s.resets := rfl
@[simp] theorem modFlow_power (n : Nat) (f : Flow → Flow) : (s.modFlow n f).power = s.power := rfl
@[simp] theorem modFlow_mgmt (n : Nat) (f : Flow → Flow) : (s.modFlow n f).mgmt = s.mgmt := rfl
@[simp] theorem modFlow_win (n : Nat) (f : Flow → Flow) : (s.modFlow n f).win = s.win := rfl
@[simp] theorem modFlow_shadow (n : Nat) (f : Flow → Flow) : (s.modFlow n f).shadow = s.shadow := rfl
@[simp] theorem modFlow_pins (n : Nat) (f : Flow → Flow) : (s.modFlow n f).pins = s.pins := rfl
@[simp] theorem modFlow_out (n : Nat) (f : Flow → Flow) : (s.modFlow n f).out = s.out := rfl
@[simp] theorem modFlow_pending (n : Nat) (f : Flow → Flow) : (s.modFlow n f).pending = s.pending := rfl

/-! Parts of the state after modSlot. -/
@[simp] theorem modSlot_build (n : Nat) (f : Slot → Slot) : (s.modSlot n f).build = s.build := rfl
@[simp] theorem modSlot_clk (n : Nat) (f : Slot → Slot) : (s.modSlot n f).clk = s.clk := rfl
@[simp] theorem modSlot_tick (n : Nat) (f : Slot → Slot) : (s.modSlot n f).tick = s.tick := rfl
@[simp] theorem modSlot_dict (n : Nat) (f : Slot → Slot) : (s.modSlot n f).dict = s.dict := rfl
@[simp] theorem modSlot_tele (n : Nat) (f : Slot → Slot) : (s.modSlot n f).tele = s.tele := rfl
@[simp] theorem modSlot_loader (n : Nat) (f : Slot → Slot) : (s.modSlot n f).loader = s.loader := rfl
@[simp] theorem modSlot_disp (n : Nat) (f : Slot → Slot) : (s.modSlot n f).disp = s.disp := rfl
@[simp] theorem modSlot_adm (n : Nat) (f : Slot → Slot) : (s.modSlot n f).adm = s.adm := rfl
@[simp] theorem modSlot_qs (n : Nat) (f : Slot → Slot) : (s.modSlot n f).qs = s.qs := rfl
@[simp] theorem modSlot_sig (n : Nat) (f : Slot → Slot) : (s.modSlot n f).sig = s.sig := rfl
@[simp] theorem modSlot_emb (n : Nat) (f : Slot → Slot) : (s.modSlot n f).emb = s.emb := rfl
@[simp] theorem modSlot_route (n : Nat) (f : Slot → Slot) : (s.modSlot n f).route = s.route := rfl
@[simp] theorem modSlot_stripe (n : Nat) (f : Slot → Slot) : (s.modSlot n f).stripe = s.stripe := rfl
@[simp] theorem modSlot_links (n : Nat) (f : Slot → Slot) : (s.modSlot n f).links = s.links := rfl
@[simp] theorem modSlot_replay (n : Nat) (f : Slot → Slot) : (s.modSlot n f).replay = s.replay := rfl
@[simp] theorem modSlot_resets (n : Nat) (f : Slot → Slot) : (s.modSlot n f).resets = s.resets := rfl
@[simp] theorem modSlot_power (n : Nat) (f : Slot → Slot) : (s.modSlot n f).power = s.power := rfl
@[simp] theorem modSlot_mgmt (n : Nat) (f : Slot → Slot) : (s.modSlot n f).mgmt = s.mgmt := rfl
@[simp] theorem modSlot_win (n : Nat) (f : Slot → Slot) : (s.modSlot n f).win = s.win := rfl
@[simp] theorem modSlot_shadow (n : Nat) (f : Slot → Slot) : (s.modSlot n f).shadow = s.shadow := rfl
@[simp] theorem modSlot_pins (n : Nat) (f : Slot → Slot) : (s.modSlot n f).pins = s.pins := rfl
@[simp] theorem modSlot_out (n : Nat) (f : Slot → Slot) : (s.modSlot n f).out = s.out := rfl
@[simp] theorem modSlot_pending (n : Nat) (f : Slot → Slot) : (s.modSlot n f).pending = s.pending := rfl

/-! Parts of the state after modQueue. -/
@[simp] theorem modQueue_build (n : Nat) (f : Queue → Queue) : (s.modQueue n f).build = s.build := rfl
@[simp] theorem modQueue_clk (n : Nat) (f : Queue → Queue) : (s.modQueue n f).clk = s.clk := rfl
@[simp] theorem modQueue_tick (n : Nat) (f : Queue → Queue) : (s.modQueue n f).tick = s.tick := rfl
@[simp] theorem modQueue_dict (n : Nat) (f : Queue → Queue) : (s.modQueue n f).dict = s.dict := rfl
@[simp] theorem modQueue_tele (n : Nat) (f : Queue → Queue) : (s.modQueue n f).tele = s.tele := rfl
@[simp] theorem modQueue_loader (n : Nat) (f : Queue → Queue) : (s.modQueue n f).loader = s.loader := rfl
@[simp] theorem modQueue_mat (n : Nat) (f : Queue → Queue) : (s.modQueue n f).mat = s.mat := rfl
@[simp] theorem modQueue_disp (n : Nat) (f : Queue → Queue) : (s.modQueue n f).disp = s.disp := rfl
@[simp] theorem modQueue_adm (n : Nat) (f : Queue → Queue) : (s.modQueue n f).adm = s.adm := rfl
@[simp] theorem modQueue_sig (n : Nat) (f : Queue → Queue) : (s.modQueue n f).sig = s.sig := rfl
@[simp] theorem modQueue_emb (n : Nat) (f : Queue → Queue) : (s.modQueue n f).emb = s.emb := rfl
@[simp] theorem modQueue_route (n : Nat) (f : Queue → Queue) : (s.modQueue n f).route = s.route := rfl
@[simp] theorem modQueue_stripe (n : Nat) (f : Queue → Queue) : (s.modQueue n f).stripe = s.stripe := rfl
@[simp] theorem modQueue_links (n : Nat) (f : Queue → Queue) : (s.modQueue n f).links = s.links := rfl
@[simp] theorem modQueue_replay (n : Nat) (f : Queue → Queue) : (s.modQueue n f).replay = s.replay := rfl
@[simp] theorem modQueue_resets (n : Nat) (f : Queue → Queue) : (s.modQueue n f).resets = s.resets := rfl
@[simp] theorem modQueue_power (n : Nat) (f : Queue → Queue) : (s.modQueue n f).power = s.power := rfl
@[simp] theorem modQueue_mgmt (n : Nat) (f : Queue → Queue) : (s.modQueue n f).mgmt = s.mgmt := rfl
@[simp] theorem modQueue_win (n : Nat) (f : Queue → Queue) : (s.modQueue n f).win = s.win := rfl
@[simp] theorem modQueue_shadow (n : Nat) (f : Queue → Queue) : (s.modQueue n f).shadow = s.shadow := rfl
@[simp] theorem modQueue_pins (n : Nat) (f : Queue → Queue) : (s.modQueue n f).pins = s.pins := rfl
@[simp] theorem modQueue_out (n : Nat) (f : Queue → Queue) : (s.modQueue n f).out = s.out := rfl
@[simp] theorem modQueue_pending (n : Nat) (f : Queue → Queue) : (s.modQueue n f).pending = s.pending := rfl

/-! Parts of the state after modObj. -/
@[simp] theorem modObj_build (n : Nat) (f : SigObj → SigObj) : (s.modObj n f).build = s.build := rfl
@[simp] theorem modObj_clk (n : Nat) (f : SigObj → SigObj) : (s.modObj n f).clk = s.clk := rfl
@[simp] theorem modObj_tick (n : Nat) (f : SigObj → SigObj) : (s.modObj n f).tick = s.tick := rfl
@[simp] theorem modObj_dict (n : Nat) (f : SigObj → SigObj) : (s.modObj n f).dict = s.dict := rfl
@[simp] theorem modObj_tele (n : Nat) (f : SigObj → SigObj) : (s.modObj n f).tele = s.tele := rfl
@[simp] theorem modObj_loader (n : Nat) (f : SigObj → SigObj) : (s.modObj n f).loader = s.loader := rfl
@[simp] theorem modObj_mat (n : Nat) (f : SigObj → SigObj) : (s.modObj n f).mat = s.mat := rfl
@[simp] theorem modObj_disp (n : Nat) (f : SigObj → SigObj) : (s.modObj n f).disp = s.disp := rfl
@[simp] theorem modObj_adm (n : Nat) (f : SigObj → SigObj) : (s.modObj n f).adm = s.adm := rfl
@[simp] theorem modObj_qs (n : Nat) (f : SigObj → SigObj) : (s.modObj n f).qs = s.qs := rfl
@[simp] theorem modObj_emb (n : Nat) (f : SigObj → SigObj) : (s.modObj n f).emb = s.emb := rfl
@[simp] theorem modObj_route (n : Nat) (f : SigObj → SigObj) : (s.modObj n f).route = s.route := rfl
@[simp] theorem modObj_stripe (n : Nat) (f : SigObj → SigObj) : (s.modObj n f).stripe = s.stripe := rfl
@[simp] theorem modObj_links (n : Nat) (f : SigObj → SigObj) : (s.modObj n f).links = s.links := rfl
@[simp] theorem modObj_replay (n : Nat) (f : SigObj → SigObj) : (s.modObj n f).replay = s.replay := rfl
@[simp] theorem modObj_resets (n : Nat) (f : SigObj → SigObj) : (s.modObj n f).resets = s.resets := rfl
@[simp] theorem modObj_power (n : Nat) (f : SigObj → SigObj) : (s.modObj n f).power = s.power := rfl
@[simp] theorem modObj_mgmt (n : Nat) (f : SigObj → SigObj) : (s.modObj n f).mgmt = s.mgmt := rfl
@[simp] theorem modObj_win (n : Nat) (f : SigObj → SigObj) : (s.modObj n f).win = s.win := rfl
@[simp] theorem modObj_shadow (n : Nat) (f : SigObj → SigObj) : (s.modObj n f).shadow = s.shadow := rfl
@[simp] theorem modObj_pins (n : Nat) (f : SigObj → SigObj) : (s.modObj n f).pins = s.pins := rfl
@[simp] theorem modObj_out (n : Nat) (f : SigObj → SigObj) : (s.modObj n f).out = s.out := rfl
@[simp] theorem modObj_pending (n : Nat) (f : SigObj → SigObj) : (s.modObj n f).pending = s.pending := rfl

/-! Parts of the state after modBarrier. -/
@[simp] theorem modBarrier_build (n : Nat) (f : Barrier → Barrier) : (s.modBarrier n f).build = s.build := rfl
@[simp] theorem modBarrier_clk (n : Nat) (f : Barrier → Barrier) : (s.modBarrier n f).clk = s.clk := rfl
@[simp] theorem modBarrier_tick (n : Nat) (f : Barrier → Barrier) : (s.modBarrier n f).tick = s.tick := rfl
@[simp] theorem modBarrier_dict (n : Nat) (f : Barrier → Barrier) : (s.modBarrier n f).dict = s.dict := rfl
@[simp] theorem modBarrier_tele (n : Nat) (f : Barrier → Barrier) : (s.modBarrier n f).tele = s.tele := rfl
@[simp] theorem modBarrier_loader (n : Nat) (f : Barrier → Barrier) : (s.modBarrier n f).loader = s.loader := rfl
@[simp] theorem modBarrier_mat (n : Nat) (f : Barrier → Barrier) : (s.modBarrier n f).mat = s.mat := rfl
@[simp] theorem modBarrier_disp (n : Nat) (f : Barrier → Barrier) : (s.modBarrier n f).disp = s.disp := rfl
@[simp] theorem modBarrier_adm (n : Nat) (f : Barrier → Barrier) : (s.modBarrier n f).adm = s.adm := rfl
@[simp] theorem modBarrier_qs (n : Nat) (f : Barrier → Barrier) : (s.modBarrier n f).qs = s.qs := rfl
@[simp] theorem modBarrier_emb (n : Nat) (f : Barrier → Barrier) : (s.modBarrier n f).emb = s.emb := rfl
@[simp] theorem modBarrier_route (n : Nat) (f : Barrier → Barrier) : (s.modBarrier n f).route = s.route := rfl
@[simp] theorem modBarrier_stripe (n : Nat) (f : Barrier → Barrier) : (s.modBarrier n f).stripe = s.stripe := rfl
@[simp] theorem modBarrier_links (n : Nat) (f : Barrier → Barrier) : (s.modBarrier n f).links = s.links := rfl
@[simp] theorem modBarrier_replay (n : Nat) (f : Barrier → Barrier) : (s.modBarrier n f).replay = s.replay := rfl
@[simp] theorem modBarrier_resets (n : Nat) (f : Barrier → Barrier) : (s.modBarrier n f).resets = s.resets := rfl
@[simp] theorem modBarrier_power (n : Nat) (f : Barrier → Barrier) : (s.modBarrier n f).power = s.power := rfl
@[simp] theorem modBarrier_mgmt (n : Nat) (f : Barrier → Barrier) : (s.modBarrier n f).mgmt = s.mgmt := rfl
@[simp] theorem modBarrier_win (n : Nat) (f : Barrier → Barrier) : (s.modBarrier n f).win = s.win := rfl
@[simp] theorem modBarrier_shadow (n : Nat) (f : Barrier → Barrier) : (s.modBarrier n f).shadow = s.shadow := rfl
@[simp] theorem modBarrier_pins (n : Nat) (f : Barrier → Barrier) : (s.modBarrier n f).pins = s.pins := rfl
@[simp] theorem modBarrier_out (n : Nat) (f : Barrier → Barrier) : (s.modBarrier n f).out = s.out := rfl
@[simp] theorem modBarrier_pending (n : Nat) (f : Barrier → Barrier) : (s.modBarrier n f).pending = s.pending := rfl

/-! Parts of the state after modAlign. -/
@[simp] theorem modAlign_build (n : Nat) (f : AlignEntry → AlignEntry) : (s.modAlign n f).build = s.build := rfl
@[simp] theorem modAlign_clk (n : Nat) (f : AlignEntry → AlignEntry) : (s.modAlign n f).clk = s.clk := rfl
@[simp] theorem modAlign_tick (n : Nat) (f : AlignEntry → AlignEntry) : (s.modAlign n f).tick = s.tick := rfl
@[simp] theorem modAlign_dict (n : Nat) (f : AlignEntry → AlignEntry) : (s.modAlign n f).dict = s.dict := rfl
@[simp] theorem modAlign_tele (n : Nat) (f : AlignEntry → AlignEntry) : (s.modAlign n f).tele = s.tele := rfl
@[simp] theorem modAlign_loader (n : Nat) (f : AlignEntry → AlignEntry) : (s.modAlign n f).loader = s.loader := rfl
@[simp] theorem modAlign_mat (n : Nat) (f : AlignEntry → AlignEntry) : (s.modAlign n f).mat = s.mat := rfl
@[simp] theorem modAlign_disp (n : Nat) (f : AlignEntry → AlignEntry) : (s.modAlign n f).disp = s.disp := rfl
@[simp] theorem modAlign_adm (n : Nat) (f : AlignEntry → AlignEntry) : (s.modAlign n f).adm = s.adm := rfl
@[simp] theorem modAlign_qs (n : Nat) (f : AlignEntry → AlignEntry) : (s.modAlign n f).qs = s.qs := rfl
@[simp] theorem modAlign_emb (n : Nat) (f : AlignEntry → AlignEntry) : (s.modAlign n f).emb = s.emb := rfl
@[simp] theorem modAlign_route (n : Nat) (f : AlignEntry → AlignEntry) : (s.modAlign n f).route = s.route := rfl
@[simp] theorem modAlign_stripe (n : Nat) (f : AlignEntry → AlignEntry) : (s.modAlign n f).stripe = s.stripe := rfl
@[simp] theorem modAlign_links (n : Nat) (f : AlignEntry → AlignEntry) : (s.modAlign n f).links = s.links := rfl
@[simp] theorem modAlign_replay (n : Nat) (f : AlignEntry → AlignEntry) : (s.modAlign n f).replay = s.replay := rfl
@[simp] theorem modAlign_resets (n : Nat) (f : AlignEntry → AlignEntry) : (s.modAlign n f).resets = s.resets := rfl
@[simp] theorem modAlign_power (n : Nat) (f : AlignEntry → AlignEntry) : (s.modAlign n f).power = s.power := rfl
@[simp] theorem modAlign_mgmt (n : Nat) (f : AlignEntry → AlignEntry) : (s.modAlign n f).mgmt = s.mgmt := rfl
@[simp] theorem modAlign_win (n : Nat) (f : AlignEntry → AlignEntry) : (s.modAlign n f).win = s.win := rfl
@[simp] theorem modAlign_shadow (n : Nat) (f : AlignEntry → AlignEntry) : (s.modAlign n f).shadow = s.shadow := rfl
@[simp] theorem modAlign_pins (n : Nat) (f : AlignEntry → AlignEntry) : (s.modAlign n f).pins = s.pins := rfl
@[simp] theorem modAlign_out (n : Nat) (f : AlignEntry → AlignEntry) : (s.modAlign n f).out = s.out := rfl
@[simp] theorem modAlign_pending (n : Nat) (f : AlignEntry → AlignEntry) : (s.modAlign n f).pending = s.pending := rfl

/-! Parts of the state after modPort. -/
@[simp] theorem modPort_build (p : Nat) (f : EnginePort → EnginePort) : (s.modPort p f).build = s.build := rfl
@[simp] theorem modPort_clk (p : Nat) (f : EnginePort → EnginePort) : (s.modPort p f).clk = s.clk := rfl
@[simp] theorem modPort_tick (p : Nat) (f : EnginePort → EnginePort) : (s.modPort p f).tick = s.tick := rfl
@[simp] theorem modPort_dict (p : Nat) (f : EnginePort → EnginePort) : (s.modPort p f).dict = s.dict := rfl
@[simp] theorem modPort_tele (p : Nat) (f : EnginePort → EnginePort) : (s.modPort p f).tele = s.tele := rfl
@[simp] theorem modPort_loader (p : Nat) (f : EnginePort → EnginePort) : (s.modPort p f).loader = s.loader := rfl
@[simp] theorem modPort_mat (p : Nat) (f : EnginePort → EnginePort) : (s.modPort p f).mat = s.mat := rfl
@[simp] theorem modPort_adm (p : Nat) (f : EnginePort → EnginePort) : (s.modPort p f).adm = s.adm := rfl
@[simp] theorem modPort_qs (p : Nat) (f : EnginePort → EnginePort) : (s.modPort p f).qs = s.qs := rfl
@[simp] theorem modPort_sig (p : Nat) (f : EnginePort → EnginePort) : (s.modPort p f).sig = s.sig := rfl
@[simp] theorem modPort_emb (p : Nat) (f : EnginePort → EnginePort) : (s.modPort p f).emb = s.emb := rfl
@[simp] theorem modPort_route (p : Nat) (f : EnginePort → EnginePort) : (s.modPort p f).route = s.route := rfl
@[simp] theorem modPort_stripe (p : Nat) (f : EnginePort → EnginePort) : (s.modPort p f).stripe = s.stripe := rfl
@[simp] theorem modPort_links (p : Nat) (f : EnginePort → EnginePort) : (s.modPort p f).links = s.links := rfl
@[simp] theorem modPort_replay (p : Nat) (f : EnginePort → EnginePort) : (s.modPort p f).replay = s.replay := rfl
@[simp] theorem modPort_resets (p : Nat) (f : EnginePort → EnginePort) : (s.modPort p f).resets = s.resets := rfl
@[simp] theorem modPort_power (p : Nat) (f : EnginePort → EnginePort) : (s.modPort p f).power = s.power := rfl
@[simp] theorem modPort_mgmt (p : Nat) (f : EnginePort → EnginePort) : (s.modPort p f).mgmt = s.mgmt := rfl
@[simp] theorem modPort_win (p : Nat) (f : EnginePort → EnginePort) : (s.modPort p f).win = s.win := rfl
@[simp] theorem modPort_shadow (p : Nat) (f : EnginePort → EnginePort) : (s.modPort p f).shadow = s.shadow := rfl
@[simp] theorem modPort_pins (p : Nat) (f : EnginePort → EnginePort) : (s.modPort p f).pins = s.pins := rfl
@[simp] theorem modPort_out (p : Nat) (f : EnginePort → EnginePort) : (s.modPort p f).out = s.out := rfl
@[simp] theorem modPort_pending (p : Nat) (f : EnginePort → EnginePort) : (s.modPort p f).pending = s.pending := rfl

/-! Parts of the state after modSpill. -/
@[simp] theorem modSpill_build (n : Nat) (f : SpillRec → SpillRec) : (s.modSpill n f).build = s.build := rfl
@[simp] theorem modSpill_clk (n : Nat) (f : SpillRec → SpillRec) : (s.modSpill n f).clk = s.clk := rfl
@[simp] theorem modSpill_tick (n : Nat) (f : SpillRec → SpillRec) : (s.modSpill n f).tick = s.tick := rfl
@[simp] theorem modSpill_dict (n : Nat) (f : SpillRec → SpillRec) : (s.modSpill n f).dict = s.dict := rfl
@[simp] theorem modSpill_tele (n : Nat) (f : SpillRec → SpillRec) : (s.modSpill n f).tele = s.tele := rfl
@[simp] theorem modSpill_loader (n : Nat) (f : SpillRec → SpillRec) : (s.modSpill n f).loader = s.loader := rfl
@[simp] theorem modSpill_mat (n : Nat) (f : SpillRec → SpillRec) : (s.modSpill n f).mat = s.mat := rfl
@[simp] theorem modSpill_adm (n : Nat) (f : SpillRec → SpillRec) : (s.modSpill n f).adm = s.adm := rfl
@[simp] theorem modSpill_qs (n : Nat) (f : SpillRec → SpillRec) : (s.modSpill n f).qs = s.qs := rfl
@[simp] theorem modSpill_sig (n : Nat) (f : SpillRec → SpillRec) : (s.modSpill n f).sig = s.sig := rfl
@[simp] theorem modSpill_emb (n : Nat) (f : SpillRec → SpillRec) : (s.modSpill n f).emb = s.emb := rfl
@[simp] theorem modSpill_route (n : Nat) (f : SpillRec → SpillRec) : (s.modSpill n f).route = s.route := rfl
@[simp] theorem modSpill_stripe (n : Nat) (f : SpillRec → SpillRec) : (s.modSpill n f).stripe = s.stripe := rfl
@[simp] theorem modSpill_links (n : Nat) (f : SpillRec → SpillRec) : (s.modSpill n f).links = s.links := rfl
@[simp] theorem modSpill_replay (n : Nat) (f : SpillRec → SpillRec) : (s.modSpill n f).replay = s.replay := rfl
@[simp] theorem modSpill_resets (n : Nat) (f : SpillRec → SpillRec) : (s.modSpill n f).resets = s.resets := rfl
@[simp] theorem modSpill_power (n : Nat) (f : SpillRec → SpillRec) : (s.modSpill n f).power = s.power := rfl
@[simp] theorem modSpill_mgmt (n : Nat) (f : SpillRec → SpillRec) : (s.modSpill n f).mgmt = s.mgmt := rfl
@[simp] theorem modSpill_win (n : Nat) (f : SpillRec → SpillRec) : (s.modSpill n f).win = s.win := rfl
@[simp] theorem modSpill_shadow (n : Nat) (f : SpillRec → SpillRec) : (s.modSpill n f).shadow = s.shadow := rfl
@[simp] theorem modSpill_pins (n : Nat) (f : SpillRec → SpillRec) : (s.modSpill n f).pins = s.pins := rfl
@[simp] theorem modSpill_out (n : Nat) (f : SpillRec → SpillRec) : (s.modSpill n f).out = s.out := rfl
@[simp] theorem modSpill_pending (n : Nat) (f : SpillRec → SpillRec) : (s.modSpill n f).pending = s.pending := rfl

/-! Parts of the state after modTable. -/
@[simp] theorem modTable_build (n : Nat) (f : Table → Table) : (s.modTable n f).build = s.build := rfl
@[simp] theorem modTable_clk (n : Nat) (f : Table → Table) : (s.modTable n f).clk = s.clk := rfl
@[simp] theorem modTable_tick (n : Nat) (f : Table → Table) : (s.modTable n f).tick = s.tick := rfl
@[simp] theorem modTable_dict (n : Nat) (f : Table → Table) : (s.modTable n f).dict = s.dict := rfl
@[simp] theorem modTable_tele (n : Nat) (f : Table → Table) : (s.modTable n f).tele = s.tele := rfl
@[simp] theorem modTable_loader (n : Nat) (f : Table → Table) : (s.modTable n f).loader = s.loader := rfl
@[simp] theorem modTable_mat (n : Nat) (f : Table → Table) : (s.modTable n f).mat = s.mat := rfl
@[simp] theorem modTable_disp (n : Nat) (f : Table → Table) : (s.modTable n f).disp = s.disp := rfl
@[simp] theorem modTable_adm (n : Nat) (f : Table → Table) : (s.modTable n f).adm = s.adm := rfl
@[simp] theorem modTable_qs (n : Nat) (f : Table → Table) : (s.modTable n f).qs = s.qs := rfl
@[simp] theorem modTable_sig (n : Nat) (f : Table → Table) : (s.modTable n f).sig = s.sig := rfl
@[simp] theorem modTable_route (n : Nat) (f : Table → Table) : (s.modTable n f).route = s.route := rfl
@[simp] theorem modTable_stripe (n : Nat) (f : Table → Table) : (s.modTable n f).stripe = s.stripe := rfl
@[simp] theorem modTable_links (n : Nat) (f : Table → Table) : (s.modTable n f).links = s.links := rfl
@[simp] theorem modTable_replay (n : Nat) (f : Table → Table) : (s.modTable n f).replay = s.replay := rfl
@[simp] theorem modTable_resets (n : Nat) (f : Table → Table) : (s.modTable n f).resets = s.resets := rfl
@[simp] theorem modTable_power (n : Nat) (f : Table → Table) : (s.modTable n f).power = s.power := rfl
@[simp] theorem modTable_mgmt (n : Nat) (f : Table → Table) : (s.modTable n f).mgmt = s.mgmt := rfl
@[simp] theorem modTable_win (n : Nat) (f : Table → Table) : (s.modTable n f).win = s.win := rfl
@[simp] theorem modTable_shadow (n : Nat) (f : Table → Table) : (s.modTable n f).shadow = s.shadow := rfl
@[simp] theorem modTable_pins (n : Nat) (f : Table → Table) : (s.modTable n f).pins = s.pins := rfl
@[simp] theorem modTable_out (n : Nat) (f : Table → Table) : (s.modTable n f).out = s.out := rfl
@[simp] theorem modTable_pending (n : Nat) (f : Table → Table) : (s.modTable n f).pending = s.pending := rfl

/-! Parts of the state after modOvl. -/
@[simp] theorem modOvl_build (n : Nat) (f : Overlay → Overlay) : (s.modOvl n f).build = s.build := rfl
@[simp] theorem modOvl_clk (n : Nat) (f : Overlay → Overlay) : (s.modOvl n f).clk = s.clk := rfl
@[simp] theorem modOvl_tick (n : Nat) (f : Overlay → Overlay) : (s.modOvl n f).tick = s.tick := rfl
@[simp] theorem modOvl_dict (n : Nat) (f : Overlay → Overlay) : (s.modOvl n f).dict = s.dict := rfl
@[simp] theorem modOvl_tele (n : Nat) (f : Overlay → Overlay) : (s.modOvl n f).tele = s.tele := rfl
@[simp] theorem modOvl_loader (n : Nat) (f : Overlay → Overlay) : (s.modOvl n f).loader = s.loader := rfl
@[simp] theorem modOvl_mat (n : Nat) (f : Overlay → Overlay) : (s.modOvl n f).mat = s.mat := rfl
@[simp] theorem modOvl_disp (n : Nat) (f : Overlay → Overlay) : (s.modOvl n f).disp = s.disp := rfl
@[simp] theorem modOvl_adm (n : Nat) (f : Overlay → Overlay) : (s.modOvl n f).adm = s.adm := rfl
@[simp] theorem modOvl_qs (n : Nat) (f : Overlay → Overlay) : (s.modOvl n f).qs = s.qs := rfl
@[simp] theorem modOvl_sig (n : Nat) (f : Overlay → Overlay) : (s.modOvl n f).sig = s.sig := rfl
@[simp] theorem modOvl_route (n : Nat) (f : Overlay → Overlay) : (s.modOvl n f).route = s.route := rfl
@[simp] theorem modOvl_stripe (n : Nat) (f : Overlay → Overlay) : (s.modOvl n f).stripe = s.stripe := rfl
@[simp] theorem modOvl_links (n : Nat) (f : Overlay → Overlay) : (s.modOvl n f).links = s.links := rfl
@[simp] theorem modOvl_replay (n : Nat) (f : Overlay → Overlay) : (s.modOvl n f).replay = s.replay := rfl
@[simp] theorem modOvl_resets (n : Nat) (f : Overlay → Overlay) : (s.modOvl n f).resets = s.resets := rfl
@[simp] theorem modOvl_power (n : Nat) (f : Overlay → Overlay) : (s.modOvl n f).power = s.power := rfl
@[simp] theorem modOvl_mgmt (n : Nat) (f : Overlay → Overlay) : (s.modOvl n f).mgmt = s.mgmt := rfl
@[simp] theorem modOvl_win (n : Nat) (f : Overlay → Overlay) : (s.modOvl n f).win = s.win := rfl
@[simp] theorem modOvl_shadow (n : Nat) (f : Overlay → Overlay) : (s.modOvl n f).shadow = s.shadow := rfl
@[simp] theorem modOvl_pins (n : Nat) (f : Overlay → Overlay) : (s.modOvl n f).pins = s.pins := rfl
@[simp] theorem modOvl_out (n : Nat) (f : Overlay → Overlay) : (s.modOvl n f).out = s.out := rfl
@[simp] theorem modOvl_pending (n : Nat) (f : Overlay → Overlay) : (s.modOvl n f).pending = s.pending := rfl

/-! Parts of the state after modMport. -/
@[simp] theorem modMport_build (p : Nat) (f : MemPort → MemPort) : (s.modMport p f).build = s.build := rfl
@[simp] theorem modMport_clk (p : Nat) (f : MemPort → MemPort) : (s.modMport p f).clk = s.clk := rfl
@[simp] theorem modMport_tick (p : Nat) (f : MemPort → MemPort) : (s.modMport p f).tick = s.tick := rfl
@[simp] theorem modMport_dict (p : Nat) (f : MemPort → MemPort) : (s.modMport p f).dict = s.dict := rfl
@[simp] theorem modMport_tele (p : Nat) (f : MemPort → MemPort) : (s.modMport p f).tele = s.tele := rfl
@[simp] theorem modMport_loader (p : Nat) (f : MemPort → MemPort) : (s.modMport p f).loader = s.loader := rfl
@[simp] theorem modMport_mat (p : Nat) (f : MemPort → MemPort) : (s.modMport p f).mat = s.mat := rfl
@[simp] theorem modMport_disp (p : Nat) (f : MemPort → MemPort) : (s.modMport p f).disp = s.disp := rfl
@[simp] theorem modMport_adm (p : Nat) (f : MemPort → MemPort) : (s.modMport p f).adm = s.adm := rfl
@[simp] theorem modMport_qs (p : Nat) (f : MemPort → MemPort) : (s.modMport p f).qs = s.qs := rfl
@[simp] theorem modMport_sig (p : Nat) (f : MemPort → MemPort) : (s.modMport p f).sig = s.sig := rfl
@[simp] theorem modMport_emb (p : Nat) (f : MemPort → MemPort) : (s.modMport p f).emb = s.emb := rfl
@[simp] theorem modMport_route (p : Nat) (f : MemPort → MemPort) : (s.modMport p f).route = s.route := rfl
@[simp] theorem modMport_links (p : Nat) (f : MemPort → MemPort) : (s.modMport p f).links = s.links := rfl
@[simp] theorem modMport_replay (p : Nat) (f : MemPort → MemPort) : (s.modMport p f).replay = s.replay := rfl
@[simp] theorem modMport_resets (p : Nat) (f : MemPort → MemPort) : (s.modMport p f).resets = s.resets := rfl
@[simp] theorem modMport_power (p : Nat) (f : MemPort → MemPort) : (s.modMport p f).power = s.power := rfl
@[simp] theorem modMport_mgmt (p : Nat) (f : MemPort → MemPort) : (s.modMport p f).mgmt = s.mgmt := rfl
@[simp] theorem modMport_win (p : Nat) (f : MemPort → MemPort) : (s.modMport p f).win = s.win := rfl
@[simp] theorem modMport_shadow (p : Nat) (f : MemPort → MemPort) : (s.modMport p f).shadow = s.shadow := rfl
@[simp] theorem modMport_pins (p : Nat) (f : MemPort → MemPort) : (s.modMport p f).pins = s.pins := rfl
@[simp] theorem modMport_out (p : Nat) (f : MemPort → MemPort) : (s.modMport p f).out = s.out := rfl
@[simp] theorem modMport_pending (p : Nat) (f : MemPort → MemPort) : (s.modMport p f).pending = s.pending := rfl

/-! Parts of the state after modLport. -/
@[simp] theorem modLport_build (p : Nat) (f : LinkPort → LinkPort) : (s.modLport p f).build = s.build := rfl
@[simp] theorem modLport_clk (p : Nat) (f : LinkPort → LinkPort) : (s.modLport p f).clk = s.clk := rfl
@[simp] theorem modLport_tick (p : Nat) (f : LinkPort → LinkPort) : (s.modLport p f).tick = s.tick := rfl
@[simp] theorem modLport_dict (p : Nat) (f : LinkPort → LinkPort) : (s.modLport p f).dict = s.dict := rfl
@[simp] theorem modLport_tele (p : Nat) (f : LinkPort → LinkPort) : (s.modLport p f).tele = s.tele := rfl
@[simp] theorem modLport_loader (p : Nat) (f : LinkPort → LinkPort) : (s.modLport p f).loader = s.loader := rfl
@[simp] theorem modLport_mat (p : Nat) (f : LinkPort → LinkPort) : (s.modLport p f).mat = s.mat := rfl
@[simp] theorem modLport_disp (p : Nat) (f : LinkPort → LinkPort) : (s.modLport p f).disp = s.disp := rfl
@[simp] theorem modLport_adm (p : Nat) (f : LinkPort → LinkPort) : (s.modLport p f).adm = s.adm := rfl
@[simp] theorem modLport_qs (p : Nat) (f : LinkPort → LinkPort) : (s.modLport p f).qs = s.qs := rfl
@[simp] theorem modLport_sig (p : Nat) (f : LinkPort → LinkPort) : (s.modLport p f).sig = s.sig := rfl
@[simp] theorem modLport_emb (p : Nat) (f : LinkPort → LinkPort) : (s.modLport p f).emb = s.emb := rfl
@[simp] theorem modLport_route (p : Nat) (f : LinkPort → LinkPort) : (s.modLport p f).route = s.route := rfl
@[simp] theorem modLport_stripe (p : Nat) (f : LinkPort → LinkPort) : (s.modLport p f).stripe = s.stripe := rfl
@[simp] theorem modLport_replay (p : Nat) (f : LinkPort → LinkPort) : (s.modLport p f).replay = s.replay := rfl
@[simp] theorem modLport_resets (p : Nat) (f : LinkPort → LinkPort) : (s.modLport p f).resets = s.resets := rfl
@[simp] theorem modLport_power (p : Nat) (f : LinkPort → LinkPort) : (s.modLport p f).power = s.power := rfl
@[simp] theorem modLport_mgmt (p : Nat) (f : LinkPort → LinkPort) : (s.modLport p f).mgmt = s.mgmt := rfl
@[simp] theorem modLport_win (p : Nat) (f : LinkPort → LinkPort) : (s.modLport p f).win = s.win := rfl
@[simp] theorem modLport_shadow (p : Nat) (f : LinkPort → LinkPort) : (s.modLport p f).shadow = s.shadow := rfl
@[simp] theorem modLport_pins (p : Nat) (f : LinkPort → LinkPort) : (s.modLport p f).pins = s.pins := rfl
@[simp] theorem modLport_out (p : Nat) (f : LinkPort → LinkPort) : (s.modLport p f).out = s.out := rfl
@[simp] theorem modLport_pending (p : Nat) (f : LinkPort → LinkPort) : (s.modLport p f).pending = s.pending := rfl

/-! Parts of the state after modInst. -/
@[simp] theorem modInst_build (n : Nat) (f : Instance → Instance) : (s.modInst n f).build = s.build := rfl
@[simp] theorem modInst_clk (n : Nat) (f : Instance → Instance) : (s.modInst n f).clk = s.clk := rfl
@[simp] theorem modInst_tick (n : Nat) (f : Instance → Instance) : (s.modInst n f).tick = s.tick := rfl
@[simp] theorem modInst_dict (n : Nat) (f : Instance → Instance) : (s.modInst n f).dict = s.dict := rfl
@[simp] theorem modInst_tele (n : Nat) (f : Instance → Instance) : (s.modInst n f).tele = s.tele := rfl
@[simp] theorem modInst_mat (n : Nat) (f : Instance → Instance) : (s.modInst n f).mat = s.mat := rfl
@[simp] theorem modInst_disp (n : Nat) (f : Instance → Instance) : (s.modInst n f).disp = s.disp := rfl
@[simp] theorem modInst_adm (n : Nat) (f : Instance → Instance) : (s.modInst n f).adm = s.adm := rfl
@[simp] theorem modInst_qs (n : Nat) (f : Instance → Instance) : (s.modInst n f).qs = s.qs := rfl
@[simp] theorem modInst_sig (n : Nat) (f : Instance → Instance) : (s.modInst n f).sig = s.sig := rfl
@[simp] theorem modInst_emb (n : Nat) (f : Instance → Instance) : (s.modInst n f).emb = s.emb := rfl
@[simp] theorem modInst_route (n : Nat) (f : Instance → Instance) : (s.modInst n f).route = s.route := rfl
@[simp] theorem modInst_stripe (n : Nat) (f : Instance → Instance) : (s.modInst n f).stripe = s.stripe := rfl
@[simp] theorem modInst_links (n : Nat) (f : Instance → Instance) : (s.modInst n f).links = s.links := rfl
@[simp] theorem modInst_replay (n : Nat) (f : Instance → Instance) : (s.modInst n f).replay = s.replay := rfl
@[simp] theorem modInst_resets (n : Nat) (f : Instance → Instance) : (s.modInst n f).resets = s.resets := rfl
@[simp] theorem modInst_power (n : Nat) (f : Instance → Instance) : (s.modInst n f).power = s.power := rfl
@[simp] theorem modInst_mgmt (n : Nat) (f : Instance → Instance) : (s.modInst n f).mgmt = s.mgmt := rfl
@[simp] theorem modInst_win (n : Nat) (f : Instance → Instance) : (s.modInst n f).win = s.win := rfl
@[simp] theorem modInst_shadow (n : Nat) (f : Instance → Instance) : (s.modInst n f).shadow = s.shadow := rfl
@[simp] theorem modInst_pins (n : Nat) (f : Instance → Instance) : (s.modInst n f).pins = s.pins := rfl
@[simp] theorem modInst_out (n : Nat) (f : Instance → Instance) : (s.modInst n f).out = s.out := rfl
@[simp] theorem modInst_pending (n : Nat) (f : Instance → Instance) : (s.modInst n f).pending = s.pending := rfl

/-! Parts of the state after modDoorbell. -/
@[simp] theorem modDoorbell_build (a : Nat) (f : Doorbell → Doorbell) : (s.modDoorbell a f).build = s.build := rfl
@[simp] theorem modDoorbell_clk (a : Nat) (f : Doorbell → Doorbell) : (s.modDoorbell a f).clk = s.clk := rfl
@[simp] theorem modDoorbell_tick (a : Nat) (f : Doorbell → Doorbell) : (s.modDoorbell a f).tick = s.tick := rfl
@[simp] theorem modDoorbell_dict (a : Nat) (f : Doorbell → Doorbell) : (s.modDoorbell a f).dict = s.dict := rfl
@[simp] theorem modDoorbell_tele (a : Nat) (f : Doorbell → Doorbell) : (s.modDoorbell a f).tele = s.tele := rfl
@[simp] theorem modDoorbell_loader (a : Nat) (f : Doorbell → Doorbell) : (s.modDoorbell a f).loader = s.loader := rfl
@[simp] theorem modDoorbell_mat (a : Nat) (f : Doorbell → Doorbell) : (s.modDoorbell a f).mat = s.mat := rfl
@[simp] theorem modDoorbell_disp (a : Nat) (f : Doorbell → Doorbell) : (s.modDoorbell a f).disp = s.disp := rfl
@[simp] theorem modDoorbell_adm (a : Nat) (f : Doorbell → Doorbell) : (s.modDoorbell a f).adm = s.adm := rfl
@[simp] theorem modDoorbell_sig (a : Nat) (f : Doorbell → Doorbell) : (s.modDoorbell a f).sig = s.sig := rfl
@[simp] theorem modDoorbell_emb (a : Nat) (f : Doorbell → Doorbell) : (s.modDoorbell a f).emb = s.emb := rfl
@[simp] theorem modDoorbell_route (a : Nat) (f : Doorbell → Doorbell) : (s.modDoorbell a f).route = s.route := rfl
@[simp] theorem modDoorbell_stripe (a : Nat) (f : Doorbell → Doorbell) : (s.modDoorbell a f).stripe = s.stripe := rfl
@[simp] theorem modDoorbell_links (a : Nat) (f : Doorbell → Doorbell) : (s.modDoorbell a f).links = s.links := rfl
@[simp] theorem modDoorbell_replay (a : Nat) (f : Doorbell → Doorbell) : (s.modDoorbell a f).replay = s.replay := rfl
@[simp] theorem modDoorbell_resets (a : Nat) (f : Doorbell → Doorbell) : (s.modDoorbell a f).resets = s.resets := rfl
@[simp] theorem modDoorbell_power (a : Nat) (f : Doorbell → Doorbell) : (s.modDoorbell a f).power = s.power := rfl
@[simp] theorem modDoorbell_mgmt (a : Nat) (f : Doorbell → Doorbell) : (s.modDoorbell a f).mgmt = s.mgmt := rfl
@[simp] theorem modDoorbell_win (a : Nat) (f : Doorbell → Doorbell) : (s.modDoorbell a f).win = s.win := rfl
@[simp] theorem modDoorbell_shadow (a : Nat) (f : Doorbell → Doorbell) : (s.modDoorbell a f).shadow = s.shadow := rfl
@[simp] theorem modDoorbell_pins (a : Nat) (f : Doorbell → Doorbell) : (s.modDoorbell a f).pins = s.pins := rfl
@[simp] theorem modDoorbell_out (a : Nat) (f : Doorbell → Doorbell) : (s.modDoorbell a f).out = s.out := rfl
@[simp] theorem modDoorbell_pending (a : Nat) (f : Doorbell → Doorbell) : (s.modDoorbell a f).pending = s.pending := rfl

/-! Parts of the state after modExchange. -/
@[simp] theorem modExchange_build (t : BitVec 32) (f : Exchange → Exchange) : (s.modExchange t f).build = s.build := rfl
@[simp] theorem modExchange_clk (t : BitVec 32) (f : Exchange → Exchange) : (s.modExchange t f).clk = s.clk := rfl
@[simp] theorem modExchange_tick (t : BitVec 32) (f : Exchange → Exchange) : (s.modExchange t f).tick = s.tick := rfl
@[simp] theorem modExchange_dict (t : BitVec 32) (f : Exchange → Exchange) : (s.modExchange t f).dict = s.dict := rfl
@[simp] theorem modExchange_tele (t : BitVec 32) (f : Exchange → Exchange) : (s.modExchange t f).tele = s.tele := rfl
@[simp] theorem modExchange_loader (t : BitVec 32) (f : Exchange → Exchange) : (s.modExchange t f).loader = s.loader := rfl
@[simp] theorem modExchange_mat (t : BitVec 32) (f : Exchange → Exchange) : (s.modExchange t f).mat = s.mat := rfl
@[simp] theorem modExchange_disp (t : BitVec 32) (f : Exchange → Exchange) : (s.modExchange t f).disp = s.disp := rfl
@[simp] theorem modExchange_adm (t : BitVec 32) (f : Exchange → Exchange) : (s.modExchange t f).adm = s.adm := rfl
@[simp] theorem modExchange_qs (t : BitVec 32) (f : Exchange → Exchange) : (s.modExchange t f).qs = s.qs := rfl
@[simp] theorem modExchange_sig (t : BitVec 32) (f : Exchange → Exchange) : (s.modExchange t f).sig = s.sig := rfl
@[simp] theorem modExchange_emb (t : BitVec 32) (f : Exchange → Exchange) : (s.modExchange t f).emb = s.emb := rfl
@[simp] theorem modExchange_stripe (t : BitVec 32) (f : Exchange → Exchange) : (s.modExchange t f).stripe = s.stripe := rfl
@[simp] theorem modExchange_links (t : BitVec 32) (f : Exchange → Exchange) : (s.modExchange t f).links = s.links := rfl
@[simp] theorem modExchange_replay (t : BitVec 32) (f : Exchange → Exchange) : (s.modExchange t f).replay = s.replay := rfl
@[simp] theorem modExchange_resets (t : BitVec 32) (f : Exchange → Exchange) : (s.modExchange t f).resets = s.resets := rfl
@[simp] theorem modExchange_power (t : BitVec 32) (f : Exchange → Exchange) : (s.modExchange t f).power = s.power := rfl
@[simp] theorem modExchange_mgmt (t : BitVec 32) (f : Exchange → Exchange) : (s.modExchange t f).mgmt = s.mgmt := rfl
@[simp] theorem modExchange_win (t : BitVec 32) (f : Exchange → Exchange) : (s.modExchange t f).win = s.win := rfl
@[simp] theorem modExchange_shadow (t : BitVec 32) (f : Exchange → Exchange) : (s.modExchange t f).shadow = s.shadow := rfl
@[simp] theorem modExchange_pins (t : BitVec 32) (f : Exchange → Exchange) : (s.modExchange t f).pins = s.pins := rfl
@[simp] theorem modExchange_out (t : BitVec 32) (f : Exchange → Exchange) : (s.modExchange t f).out = s.out := rfl
@[simp] theorem modExchange_pending (t : BitVec 32) (f : Exchange → Exchange) : (s.modExchange t f).pending = s.pending := rfl

/-! Parts of the state after modUpdate. -/
@[simp] theorem modUpdate_build (n : Nat) (f : Update → Update) : (s.modUpdate n f).build = s.build := rfl
@[simp] theorem modUpdate_clk (n : Nat) (f : Update → Update) : (s.modUpdate n f).clk = s.clk := rfl
@[simp] theorem modUpdate_tick (n : Nat) (f : Update → Update) : (s.modUpdate n f).tick = s.tick := rfl
@[simp] theorem modUpdate_dict (n : Nat) (f : Update → Update) : (s.modUpdate n f).dict = s.dict := rfl
@[simp] theorem modUpdate_tele (n : Nat) (f : Update → Update) : (s.modUpdate n f).tele = s.tele := rfl
@[simp] theorem modUpdate_loader (n : Nat) (f : Update → Update) : (s.modUpdate n f).loader = s.loader := rfl
@[simp] theorem modUpdate_mat (n : Nat) (f : Update → Update) : (s.modUpdate n f).mat = s.mat := rfl
@[simp] theorem modUpdate_disp (n : Nat) (f : Update → Update) : (s.modUpdate n f).disp = s.disp := rfl
@[simp] theorem modUpdate_adm (n : Nat) (f : Update → Update) : (s.modUpdate n f).adm = s.adm := rfl
@[simp] theorem modUpdate_qs (n : Nat) (f : Update → Update) : (s.modUpdate n f).qs = s.qs := rfl
@[simp] theorem modUpdate_sig (n : Nat) (f : Update → Update) : (s.modUpdate n f).sig = s.sig := rfl
@[simp] theorem modUpdate_route (n : Nat) (f : Update → Update) : (s.modUpdate n f).route = s.route := rfl
@[simp] theorem modUpdate_stripe (n : Nat) (f : Update → Update) : (s.modUpdate n f).stripe = s.stripe := rfl
@[simp] theorem modUpdate_links (n : Nat) (f : Update → Update) : (s.modUpdate n f).links = s.links := rfl
@[simp] theorem modUpdate_replay (n : Nat) (f : Update → Update) : (s.modUpdate n f).replay = s.replay := rfl
@[simp] theorem modUpdate_resets (n : Nat) (f : Update → Update) : (s.modUpdate n f).resets = s.resets := rfl
@[simp] theorem modUpdate_power (n : Nat) (f : Update → Update) : (s.modUpdate n f).power = s.power := rfl
@[simp] theorem modUpdate_mgmt (n : Nat) (f : Update → Update) : (s.modUpdate n f).mgmt = s.mgmt := rfl
@[simp] theorem modUpdate_win (n : Nat) (f : Update → Update) : (s.modUpdate n f).win = s.win := rfl
@[simp] theorem modUpdate_shadow (n : Nat) (f : Update → Update) : (s.modUpdate n f).shadow = s.shadow := rfl
@[simp] theorem modUpdate_pins (n : Nat) (f : Update → Update) : (s.modUpdate n f).pins = s.pins := rfl
@[simp] theorem modUpdate_out (n : Nat) (f : Update → Update) : (s.modUpdate n f).out = s.out := rfl
@[simp] theorem modUpdate_pending (n : Nat) (f : Update → Update) : (s.modUpdate n f).pending = s.pending := rfl

/-! Parts of the state after modTick. -/
@[simp] theorem modTick_build (f : TickUnit → TickUnit) : (s.modTick f).build = s.build := rfl
@[simp] theorem modTick_clk (f : TickUnit → TickUnit) : (s.modTick f).clk = s.clk := rfl
@[simp] theorem modTick_dict (f : TickUnit → TickUnit) : (s.modTick f).dict = s.dict := rfl
@[simp] theorem modTick_tele (f : TickUnit → TickUnit) : (s.modTick f).tele = s.tele := rfl
@[simp] theorem modTick_loader (f : TickUnit → TickUnit) : (s.modTick f).loader = s.loader := rfl
@[simp] theorem modTick_mat (f : TickUnit → TickUnit) : (s.modTick f).mat = s.mat := rfl
@[simp] theorem modTick_disp (f : TickUnit → TickUnit) : (s.modTick f).disp = s.disp := rfl
@[simp] theorem modTick_adm (f : TickUnit → TickUnit) : (s.modTick f).adm = s.adm := rfl
@[simp] theorem modTick_qs (f : TickUnit → TickUnit) : (s.modTick f).qs = s.qs := rfl
@[simp] theorem modTick_sig (f : TickUnit → TickUnit) : (s.modTick f).sig = s.sig := rfl
@[simp] theorem modTick_emb (f : TickUnit → TickUnit) : (s.modTick f).emb = s.emb := rfl
@[simp] theorem modTick_route (f : TickUnit → TickUnit) : (s.modTick f).route = s.route := rfl
@[simp] theorem modTick_stripe (f : TickUnit → TickUnit) : (s.modTick f).stripe = s.stripe := rfl
@[simp] theorem modTick_links (f : TickUnit → TickUnit) : (s.modTick f).links = s.links := rfl
@[simp] theorem modTick_replay (f : TickUnit → TickUnit) : (s.modTick f).replay = s.replay := rfl
@[simp] theorem modTick_resets (f : TickUnit → TickUnit) : (s.modTick f).resets = s.resets := rfl
@[simp] theorem modTick_power (f : TickUnit → TickUnit) : (s.modTick f).power = s.power := rfl
@[simp] theorem modTick_mgmt (f : TickUnit → TickUnit) : (s.modTick f).mgmt = s.mgmt := rfl
@[simp] theorem modTick_win (f : TickUnit → TickUnit) : (s.modTick f).win = s.win := rfl
@[simp] theorem modTick_shadow (f : TickUnit → TickUnit) : (s.modTick f).shadow = s.shadow := rfl
@[simp] theorem modTick_pins (f : TickUnit → TickUnit) : (s.modTick f).pins = s.pins := rfl
@[simp] theorem modTick_out (f : TickUnit → TickUnit) : (s.modTick f).out = s.out := rfl
@[simp] theorem modTick_pending (f : TickUnit → TickUnit) : (s.modTick f).pending = s.pending := rfl

/-! Parts of the state after modReplay. -/
@[simp] theorem modReplay_build (f : Replay → Replay) : (s.modReplay f).build = s.build := rfl
@[simp] theorem modReplay_clk (f : Replay → Replay) : (s.modReplay f).clk = s.clk := rfl
@[simp] theorem modReplay_tick (f : Replay → Replay) : (s.modReplay f).tick = s.tick := rfl
@[simp] theorem modReplay_dict (f : Replay → Replay) : (s.modReplay f).dict = s.dict := rfl
@[simp] theorem modReplay_tele (f : Replay → Replay) : (s.modReplay f).tele = s.tele := rfl
@[simp] theorem modReplay_loader (f : Replay → Replay) : (s.modReplay f).loader = s.loader := rfl
@[simp] theorem modReplay_mat (f : Replay → Replay) : (s.modReplay f).mat = s.mat := rfl
@[simp] theorem modReplay_disp (f : Replay → Replay) : (s.modReplay f).disp = s.disp := rfl
@[simp] theorem modReplay_adm (f : Replay → Replay) : (s.modReplay f).adm = s.adm := rfl
@[simp] theorem modReplay_qs (f : Replay → Replay) : (s.modReplay f).qs = s.qs := rfl
@[simp] theorem modReplay_sig (f : Replay → Replay) : (s.modReplay f).sig = s.sig := rfl
@[simp] theorem modReplay_emb (f : Replay → Replay) : (s.modReplay f).emb = s.emb := rfl
@[simp] theorem modReplay_route (f : Replay → Replay) : (s.modReplay f).route = s.route := rfl
@[simp] theorem modReplay_stripe (f : Replay → Replay) : (s.modReplay f).stripe = s.stripe := rfl
@[simp] theorem modReplay_links (f : Replay → Replay) : (s.modReplay f).links = s.links := rfl
@[simp] theorem modReplay_resets (f : Replay → Replay) : (s.modReplay f).resets = s.resets := rfl
@[simp] theorem modReplay_power (f : Replay → Replay) : (s.modReplay f).power = s.power := rfl
@[simp] theorem modReplay_mgmt (f : Replay → Replay) : (s.modReplay f).mgmt = s.mgmt := rfl
@[simp] theorem modReplay_win (f : Replay → Replay) : (s.modReplay f).win = s.win := rfl
@[simp] theorem modReplay_shadow (f : Replay → Replay) : (s.modReplay f).shadow = s.shadow := rfl
@[simp] theorem modReplay_pins (f : Replay → Replay) : (s.modReplay f).pins = s.pins := rfl
@[simp] theorem modReplay_out (f : Replay → Replay) : (s.modReplay f).out = s.out := rfl
@[simp] theorem modReplay_pending (f : Replay → Replay) : (s.modReplay f).pending = s.pending := rfl

/-! Parts of the state after modPower. -/
@[simp] theorem modPower_build (f : Power → Power) : (s.modPower f).build = s.build := rfl
@[simp] theorem modPower_clk (f : Power → Power) : (s.modPower f).clk = s.clk := rfl
@[simp] theorem modPower_tick (f : Power → Power) : (s.modPower f).tick = s.tick := rfl
@[simp] theorem modPower_dict (f : Power → Power) : (s.modPower f).dict = s.dict := rfl
@[simp] theorem modPower_tele (f : Power → Power) : (s.modPower f).tele = s.tele := rfl
@[simp] theorem modPower_loader (f : Power → Power) : (s.modPower f).loader = s.loader := rfl
@[simp] theorem modPower_mat (f : Power → Power) : (s.modPower f).mat = s.mat := rfl
@[simp] theorem modPower_disp (f : Power → Power) : (s.modPower f).disp = s.disp := rfl
@[simp] theorem modPower_adm (f : Power → Power) : (s.modPower f).adm = s.adm := rfl
@[simp] theorem modPower_qs (f : Power → Power) : (s.modPower f).qs = s.qs := rfl
@[simp] theorem modPower_sig (f : Power → Power) : (s.modPower f).sig = s.sig := rfl
@[simp] theorem modPower_emb (f : Power → Power) : (s.modPower f).emb = s.emb := rfl
@[simp] theorem modPower_route (f : Power → Power) : (s.modPower f).route = s.route := rfl
@[simp] theorem modPower_stripe (f : Power → Power) : (s.modPower f).stripe = s.stripe := rfl
@[simp] theorem modPower_links (f : Power → Power) : (s.modPower f).links = s.links := rfl
@[simp] theorem modPower_replay (f : Power → Power) : (s.modPower f).replay = s.replay := rfl
@[simp] theorem modPower_resets (f : Power → Power) : (s.modPower f).resets = s.resets := rfl
@[simp] theorem modPower_mgmt (f : Power → Power) : (s.modPower f).mgmt = s.mgmt := rfl
@[simp] theorem modPower_win (f : Power → Power) : (s.modPower f).win = s.win := rfl
@[simp] theorem modPower_shadow (f : Power → Power) : (s.modPower f).shadow = s.shadow := rfl
@[simp] theorem modPower_pins (f : Power → Power) : (s.modPower f).pins = s.pins := rfl
@[simp] theorem modPower_out (f : Power → Power) : (s.modPower f).out = s.out := rfl
@[simp] theorem modPower_pending (f : Power → Power) : (s.modPower f).pending = s.pending := rfl

/-! Parts of the state after modResets. -/
@[simp] theorem modResets_build (f : Resets → Resets) : (s.modResets f).build = s.build := rfl
@[simp] theorem modResets_clk (f : Resets → Resets) : (s.modResets f).clk = s.clk := rfl
@[simp] theorem modResets_tick (f : Resets → Resets) : (s.modResets f).tick = s.tick := rfl
@[simp] theorem modResets_dict (f : Resets → Resets) : (s.modResets f).dict = s.dict := rfl
@[simp] theorem modResets_tele (f : Resets → Resets) : (s.modResets f).tele = s.tele := rfl
@[simp] theorem modResets_loader (f : Resets → Resets) : (s.modResets f).loader = s.loader := rfl
@[simp] theorem modResets_mat (f : Resets → Resets) : (s.modResets f).mat = s.mat := rfl
@[simp] theorem modResets_disp (f : Resets → Resets) : (s.modResets f).disp = s.disp := rfl
@[simp] theorem modResets_adm (f : Resets → Resets) : (s.modResets f).adm = s.adm := rfl
@[simp] theorem modResets_qs (f : Resets → Resets) : (s.modResets f).qs = s.qs := rfl
@[simp] theorem modResets_sig (f : Resets → Resets) : (s.modResets f).sig = s.sig := rfl
@[simp] theorem modResets_emb (f : Resets → Resets) : (s.modResets f).emb = s.emb := rfl
@[simp] theorem modResets_route (f : Resets → Resets) : (s.modResets f).route = s.route := rfl
@[simp] theorem modResets_stripe (f : Resets → Resets) : (s.modResets f).stripe = s.stripe := rfl
@[simp] theorem modResets_links (f : Resets → Resets) : (s.modResets f).links = s.links := rfl
@[simp] theorem modResets_replay (f : Resets → Resets) : (s.modResets f).replay = s.replay := rfl
@[simp] theorem modResets_power (f : Resets → Resets) : (s.modResets f).power = s.power := rfl
@[simp] theorem modResets_mgmt (f : Resets → Resets) : (s.modResets f).mgmt = s.mgmt := rfl
@[simp] theorem modResets_win (f : Resets → Resets) : (s.modResets f).win = s.win := rfl
@[simp] theorem modResets_shadow (f : Resets → Resets) : (s.modResets f).shadow = s.shadow := rfl
@[simp] theorem modResets_pins (f : Resets → Resets) : (s.modResets f).pins = s.pins := rfl
@[simp] theorem modResets_out (f : Resets → Resets) : (s.modResets f).out = s.out := rfl
@[simp] theorem modResets_pending (f : Resets → Resets) : (s.modResets f).pending = s.pending := rfl

/-! Parts of the state after modMgmt. -/
@[simp] theorem modMgmt_build (f : Mgmt → Mgmt) : (s.modMgmt f).build = s.build := rfl
@[simp] theorem modMgmt_clk (f : Mgmt → Mgmt) : (s.modMgmt f).clk = s.clk := rfl
@[simp] theorem modMgmt_tick (f : Mgmt → Mgmt) : (s.modMgmt f).tick = s.tick := rfl
@[simp] theorem modMgmt_dict (f : Mgmt → Mgmt) : (s.modMgmt f).dict = s.dict := rfl
@[simp] theorem modMgmt_tele (f : Mgmt → Mgmt) : (s.modMgmt f).tele = s.tele := rfl
@[simp] theorem modMgmt_loader (f : Mgmt → Mgmt) : (s.modMgmt f).loader = s.loader := rfl
@[simp] theorem modMgmt_mat (f : Mgmt → Mgmt) : (s.modMgmt f).mat = s.mat := rfl
@[simp] theorem modMgmt_disp (f : Mgmt → Mgmt) : (s.modMgmt f).disp = s.disp := rfl
@[simp] theorem modMgmt_adm (f : Mgmt → Mgmt) : (s.modMgmt f).adm = s.adm := rfl
@[simp] theorem modMgmt_qs (f : Mgmt → Mgmt) : (s.modMgmt f).qs = s.qs := rfl
@[simp] theorem modMgmt_sig (f : Mgmt → Mgmt) : (s.modMgmt f).sig = s.sig := rfl
@[simp] theorem modMgmt_emb (f : Mgmt → Mgmt) : (s.modMgmt f).emb = s.emb := rfl
@[simp] theorem modMgmt_route (f : Mgmt → Mgmt) : (s.modMgmt f).route = s.route := rfl
@[simp] theorem modMgmt_stripe (f : Mgmt → Mgmt) : (s.modMgmt f).stripe = s.stripe := rfl
@[simp] theorem modMgmt_links (f : Mgmt → Mgmt) : (s.modMgmt f).links = s.links := rfl
@[simp] theorem modMgmt_replay (f : Mgmt → Mgmt) : (s.modMgmt f).replay = s.replay := rfl
@[simp] theorem modMgmt_resets (f : Mgmt → Mgmt) : (s.modMgmt f).resets = s.resets := rfl
@[simp] theorem modMgmt_power (f : Mgmt → Mgmt) : (s.modMgmt f).power = s.power := rfl
@[simp] theorem modMgmt_win (f : Mgmt → Mgmt) : (s.modMgmt f).win = s.win := rfl
@[simp] theorem modMgmt_shadow (f : Mgmt → Mgmt) : (s.modMgmt f).shadow = s.shadow := rfl
@[simp] theorem modMgmt_pins (f : Mgmt → Mgmt) : (s.modMgmt f).pins = s.pins := rfl
@[simp] theorem modMgmt_out (f : Mgmt → Mgmt) : (s.modMgmt f).out = s.out := rfl
@[simp] theorem modMgmt_pending (f : Mgmt → Mgmt) : (s.modMgmt f).pending = s.pending := rfl

/-! Parts of the state after modWin. -/
@[simp] theorem modWin_build (f : Window → Window) : (s.modWin f).build = s.build := rfl
@[simp] theorem modWin_clk (f : Window → Window) : (s.modWin f).clk = s.clk := rfl
@[simp] theorem modWin_tick (f : Window → Window) : (s.modWin f).tick = s.tick := rfl
@[simp] theorem modWin_dict (f : Window → Window) : (s.modWin f).dict = s.dict := rfl
@[simp] theorem modWin_tele (f : Window → Window) : (s.modWin f).tele = s.tele := rfl
@[simp] theorem modWin_loader (f : Window → Window) : (s.modWin f).loader = s.loader := rfl
@[simp] theorem modWin_mat (f : Window → Window) : (s.modWin f).mat = s.mat := rfl
@[simp] theorem modWin_disp (f : Window → Window) : (s.modWin f).disp = s.disp := rfl
@[simp] theorem modWin_adm (f : Window → Window) : (s.modWin f).adm = s.adm := rfl
@[simp] theorem modWin_qs (f : Window → Window) : (s.modWin f).qs = s.qs := rfl
@[simp] theorem modWin_sig (f : Window → Window) : (s.modWin f).sig = s.sig := rfl
@[simp] theorem modWin_emb (f : Window → Window) : (s.modWin f).emb = s.emb := rfl
@[simp] theorem modWin_route (f : Window → Window) : (s.modWin f).route = s.route := rfl
@[simp] theorem modWin_stripe (f : Window → Window) : (s.modWin f).stripe = s.stripe := rfl
@[simp] theorem modWin_links (f : Window → Window) : (s.modWin f).links = s.links := rfl
@[simp] theorem modWin_replay (f : Window → Window) : (s.modWin f).replay = s.replay := rfl
@[simp] theorem modWin_resets (f : Window → Window) : (s.modWin f).resets = s.resets := rfl
@[simp] theorem modWin_power (f : Window → Window) : (s.modWin f).power = s.power := rfl
@[simp] theorem modWin_mgmt (f : Window → Window) : (s.modWin f).mgmt = s.mgmt := rfl
@[simp] theorem modWin_shadow (f : Window → Window) : (s.modWin f).shadow = s.shadow := rfl
@[simp] theorem modWin_pins (f : Window → Window) : (s.modWin f).pins = s.pins := rfl
@[simp] theorem modWin_out (f : Window → Window) : (s.modWin f).out = s.out := rfl
@[simp] theorem modWin_pending (f : Window → Window) : (s.modWin f).pending = s.pending := rfl

/-! Parts of the state after modUnits. -/
@[simp] theorem modUnits_build (f : Dispatch → Dispatch) : (s.modUnits f).build = s.build := rfl
@[simp] theorem modUnits_clk (f : Dispatch → Dispatch) : (s.modUnits f).clk = s.clk := rfl
@[simp] theorem modUnits_tick (f : Dispatch → Dispatch) : (s.modUnits f).tick = s.tick := rfl
@[simp] theorem modUnits_dict (f : Dispatch → Dispatch) : (s.modUnits f).dict = s.dict := rfl
@[simp] theorem modUnits_tele (f : Dispatch → Dispatch) : (s.modUnits f).tele = s.tele := rfl
@[simp] theorem modUnits_loader (f : Dispatch → Dispatch) : (s.modUnits f).loader = s.loader := rfl
@[simp] theorem modUnits_mat (f : Dispatch → Dispatch) : (s.modUnits f).mat = s.mat := rfl
@[simp] theorem modUnits_adm (f : Dispatch → Dispatch) : (s.modUnits f).adm = s.adm := rfl
@[simp] theorem modUnits_qs (f : Dispatch → Dispatch) : (s.modUnits f).qs = s.qs := rfl
@[simp] theorem modUnits_sig (f : Dispatch → Dispatch) : (s.modUnits f).sig = s.sig := rfl
@[simp] theorem modUnits_emb (f : Dispatch → Dispatch) : (s.modUnits f).emb = s.emb := rfl
@[simp] theorem modUnits_route (f : Dispatch → Dispatch) : (s.modUnits f).route = s.route := rfl
@[simp] theorem modUnits_stripe (f : Dispatch → Dispatch) : (s.modUnits f).stripe = s.stripe := rfl
@[simp] theorem modUnits_links (f : Dispatch → Dispatch) : (s.modUnits f).links = s.links := rfl
@[simp] theorem modUnits_replay (f : Dispatch → Dispatch) : (s.modUnits f).replay = s.replay := rfl
@[simp] theorem modUnits_resets (f : Dispatch → Dispatch) : (s.modUnits f).resets = s.resets := rfl
@[simp] theorem modUnits_power (f : Dispatch → Dispatch) : (s.modUnits f).power = s.power := rfl
@[simp] theorem modUnits_mgmt (f : Dispatch → Dispatch) : (s.modUnits f).mgmt = s.mgmt := rfl
@[simp] theorem modUnits_win (f : Dispatch → Dispatch) : (s.modUnits f).win = s.win := rfl
@[simp] theorem modUnits_shadow (f : Dispatch → Dispatch) : (s.modUnits f).shadow = s.shadow := rfl
@[simp] theorem modUnits_pins (f : Dispatch → Dispatch) : (s.modUnits f).pins = s.pins := rfl
@[simp] theorem modUnits_out (f : Dispatch → Dispatch) : (s.modUnits f).out = s.out := rfl
@[simp] theorem modUnits_pending (f : Dispatch → Dispatch) : (s.modUnits f).pending = s.pending := rfl

/-! Parts of the state after modSram. -/
@[simp] theorem modSram_build (a : Nat) (f : Sram → Sram) : (s.modSram a f).build = s.build := rfl
@[simp] theorem modSram_clk (a : Nat) (f : Sram → Sram) : (s.modSram a f).clk = s.clk := rfl
@[simp] theorem modSram_tick (a : Nat) (f : Sram → Sram) : (s.modSram a f).tick = s.tick := rfl
@[simp] theorem modSram_dict (a : Nat) (f : Sram → Sram) : (s.modSram a f).dict = s.dict := rfl
@[simp] theorem modSram_tele (a : Nat) (f : Sram → Sram) : (s.modSram a f).tele = s.tele := rfl
@[simp] theorem modSram_loader (a : Nat) (f : Sram → Sram) : (s.modSram a f).loader = s.loader := rfl
@[simp] theorem modSram_mat (a : Nat) (f : Sram → Sram) : (s.modSram a f).mat = s.mat := rfl
@[simp] theorem modSram_disp (a : Nat) (f : Sram → Sram) : (s.modSram a f).disp = s.disp := rfl
@[simp] theorem modSram_adm (a : Nat) (f : Sram → Sram) : (s.modSram a f).adm = s.adm := rfl
@[simp] theorem modSram_qs (a : Nat) (f : Sram → Sram) : (s.modSram a f).qs = s.qs := rfl
@[simp] theorem modSram_sig (a : Nat) (f : Sram → Sram) : (s.modSram a f).sig = s.sig := rfl
@[simp] theorem modSram_emb (a : Nat) (f : Sram → Sram) : (s.modSram a f).emb = s.emb := rfl
@[simp] theorem modSram_route (a : Nat) (f : Sram → Sram) : (s.modSram a f).route = s.route := rfl
@[simp] theorem modSram_stripe (a : Nat) (f : Sram → Sram) : (s.modSram a f).stripe = s.stripe := rfl
@[simp] theorem modSram_links (a : Nat) (f : Sram → Sram) : (s.modSram a f).links = s.links := rfl
@[simp] theorem modSram_replay (a : Nat) (f : Sram → Sram) : (s.modSram a f).replay = s.replay := rfl
@[simp] theorem modSram_power (a : Nat) (f : Sram → Sram) : (s.modSram a f).power = s.power := rfl
@[simp] theorem modSram_mgmt (a : Nat) (f : Sram → Sram) : (s.modSram a f).mgmt = s.mgmt := rfl
@[simp] theorem modSram_win (a : Nat) (f : Sram → Sram) : (s.modSram a f).win = s.win := rfl
@[simp] theorem modSram_shadow (a : Nat) (f : Sram → Sram) : (s.modSram a f).shadow = s.shadow := rfl
@[simp] theorem modSram_pins (a : Nat) (f : Sram → Sram) : (s.modSram a f).pins = s.pins := rfl
@[simp] theorem modSram_out (a : Nat) (f : Sram → Sram) : (s.modSram a f).out = s.out := rfl
@[simp] theorem modSram_pending (a : Nat) (f : Sram → Sram) : (s.modSram a f).pending = s.pending := rfl

/-! Parts of the state after emit. -/
@[simp] theorem emit_build (e : Emit) : (s.emit e).build = s.build := rfl
@[simp] theorem emit_clk (e : Emit) : (s.emit e).clk = s.clk := rfl
@[simp] theorem emit_tick (e : Emit) : (s.emit e).tick = s.tick := rfl
@[simp] theorem emit_dict (e : Emit) : (s.emit e).dict = s.dict := rfl
@[simp] theorem emit_tele (e : Emit) : (s.emit e).tele = s.tele := rfl
@[simp] theorem emit_loader (e : Emit) : (s.emit e).loader = s.loader := rfl
@[simp] theorem emit_mat (e : Emit) : (s.emit e).mat = s.mat := rfl
@[simp] theorem emit_disp (e : Emit) : (s.emit e).disp = s.disp := rfl
@[simp] theorem emit_adm (e : Emit) : (s.emit e).adm = s.adm := rfl
@[simp] theorem emit_qs (e : Emit) : (s.emit e).qs = s.qs := rfl
@[simp] theorem emit_sig (e : Emit) : (s.emit e).sig = s.sig := rfl
@[simp] theorem emit_emb (e : Emit) : (s.emit e).emb = s.emb := rfl
@[simp] theorem emit_route (e : Emit) : (s.emit e).route = s.route := rfl
@[simp] theorem emit_stripe (e : Emit) : (s.emit e).stripe = s.stripe := rfl
@[simp] theorem emit_links (e : Emit) : (s.emit e).links = s.links := rfl
@[simp] theorem emit_replay (e : Emit) : (s.emit e).replay = s.replay := rfl
@[simp] theorem emit_resets (e : Emit) : (s.emit e).resets = s.resets := rfl
@[simp] theorem emit_power (e : Emit) : (s.emit e).power = s.power := rfl
@[simp] theorem emit_mgmt (e : Emit) : (s.emit e).mgmt = s.mgmt := rfl
@[simp] theorem emit_win (e : Emit) : (s.emit e).win = s.win := rfl
@[simp] theorem emit_shadow (e : Emit) : (s.emit e).shadow = s.shadow := rfl
@[simp] theorem emit_pins (e : Emit) : (s.emit e).pins = s.pins := rfl
@[simp] theorem emit_pending (e : Emit) : (s.emit e).pending = s.pending := rfl

/-! Parts of the state after storeValue. -/
@[simp] theorem storeValue_build (k e v : Nat) : (s.storeValue k e v).build = s.build := rfl
@[simp] theorem storeValue_clk (k e v : Nat) : (s.storeValue k e v).clk = s.clk := rfl
@[simp] theorem storeValue_tick (k e v : Nat) : (s.storeValue k e v).tick = s.tick := rfl
@[simp] theorem storeValue_tele (k e v : Nat) : (s.storeValue k e v).tele = s.tele := rfl
@[simp] theorem storeValue_loader (k e v : Nat) : (s.storeValue k e v).loader = s.loader := rfl
@[simp] theorem storeValue_mat (k e v : Nat) : (s.storeValue k e v).mat = s.mat := rfl
@[simp] theorem storeValue_disp (k e v : Nat) : (s.storeValue k e v).disp = s.disp := rfl
@[simp] theorem storeValue_adm (k e v : Nat) : (s.storeValue k e v).adm = s.adm := rfl
@[simp] theorem storeValue_qs (k e v : Nat) : (s.storeValue k e v).qs = s.qs := rfl
@[simp] theorem storeValue_sig (k e v : Nat) : (s.storeValue k e v).sig = s.sig := rfl
@[simp] theorem storeValue_emb (k e v : Nat) : (s.storeValue k e v).emb = s.emb := rfl
@[simp] theorem storeValue_route (k e v : Nat) : (s.storeValue k e v).route = s.route := rfl
@[simp] theorem storeValue_stripe (k e v : Nat) : (s.storeValue k e v).stripe = s.stripe := rfl
@[simp] theorem storeValue_links (k e v : Nat) : (s.storeValue k e v).links = s.links := rfl
@[simp] theorem storeValue_replay (k e v : Nat) : (s.storeValue k e v).replay = s.replay := rfl
@[simp] theorem storeValue_resets (k e v : Nat) : (s.storeValue k e v).resets = s.resets := rfl
@[simp] theorem storeValue_power (k e v : Nat) : (s.storeValue k e v).power = s.power := rfl
@[simp] theorem storeValue_mgmt (k e v : Nat) : (s.storeValue k e v).mgmt = s.mgmt := rfl
@[simp] theorem storeValue_win (k e v : Nat) : (s.storeValue k e v).win = s.win := rfl
@[simp] theorem storeValue_shadow (k e v : Nat) : (s.storeValue k e v).shadow = s.shadow := rfl
@[simp] theorem storeValue_pins (k e v : Nat) : (s.storeValue k e v).pins = s.pins := rfl
@[simp] theorem storeValue_out (k e v : Nat) : (s.storeValue k e v).out = s.out := rfl
@[simp] theorem storeValue_pending (k e v : Nat) : (s.storeValue k e v).pending = s.pending := rfl

/-! Parts of the state after forceValue. -/
@[simp] theorem forceValue_build (k e v : Nat) : (s.forceValue k e v).build = s.build := rfl
@[simp] theorem forceValue_clk (k e v : Nat) : (s.forceValue k e v).clk = s.clk := rfl
@[simp] theorem forceValue_tick (k e v : Nat) : (s.forceValue k e v).tick = s.tick := rfl
@[simp] theorem forceValue_tele (k e v : Nat) : (s.forceValue k e v).tele = s.tele := rfl
@[simp] theorem forceValue_loader (k e v : Nat) : (s.forceValue k e v).loader = s.loader := rfl
@[simp] theorem forceValue_mat (k e v : Nat) : (s.forceValue k e v).mat = s.mat := rfl
@[simp] theorem forceValue_disp (k e v : Nat) : (s.forceValue k e v).disp = s.disp := rfl
@[simp] theorem forceValue_adm (k e v : Nat) : (s.forceValue k e v).adm = s.adm := rfl
@[simp] theorem forceValue_qs (k e v : Nat) : (s.forceValue k e v).qs = s.qs := rfl
@[simp] theorem forceValue_sig (k e v : Nat) : (s.forceValue k e v).sig = s.sig := rfl
@[simp] theorem forceValue_emb (k e v : Nat) : (s.forceValue k e v).emb = s.emb := rfl
@[simp] theorem forceValue_route (k e v : Nat) : (s.forceValue k e v).route = s.route := rfl
@[simp] theorem forceValue_stripe (k e v : Nat) : (s.forceValue k e v).stripe = s.stripe := rfl
@[simp] theorem forceValue_links (k e v : Nat) : (s.forceValue k e v).links = s.links := rfl
@[simp] theorem forceValue_replay (k e v : Nat) : (s.forceValue k e v).replay = s.replay := rfl
@[simp] theorem forceValue_resets (k e v : Nat) : (s.forceValue k e v).resets = s.resets := rfl
@[simp] theorem forceValue_power (k e v : Nat) : (s.forceValue k e v).power = s.power := rfl
@[simp] theorem forceValue_mgmt (k e v : Nat) : (s.forceValue k e v).mgmt = s.mgmt := rfl
@[simp] theorem forceValue_win (k e v : Nat) : (s.forceValue k e v).win = s.win := rfl
@[simp] theorem forceValue_shadow (k e v : Nat) : (s.forceValue k e v).shadow = s.shadow := rfl
@[simp] theorem forceValue_pins (k e v : Nat) : (s.forceValue k e v).pins = s.pins := rfl
@[simp] theorem forceValue_out (k e v : Nat) : (s.forceValue k e v).out = s.out := rfl
@[simp] theorem forceValue_pending (k e v : Nat) : (s.forceValue k e v).pending = s.pending := rfl

/-! Parts of the state after setValue. -/
@[simp] theorem setValue_build (k e v : Nat) : (s.setValue k e v).build = s.build := rfl
@[simp] theorem setValue_clk (k e v : Nat) : (s.setValue k e v).clk = s.clk := rfl
@[simp] theorem setValue_tick (k e v : Nat) : (s.setValue k e v).tick = s.tick := rfl
@[simp] theorem setValue_tele (k e v : Nat) : (s.setValue k e v).tele = s.tele := rfl
@[simp] theorem setValue_loader (k e v : Nat) : (s.setValue k e v).loader = s.loader := rfl
@[simp] theorem setValue_mat (k e v : Nat) : (s.setValue k e v).mat = s.mat := rfl
@[simp] theorem setValue_disp (k e v : Nat) : (s.setValue k e v).disp = s.disp := rfl
@[simp] theorem setValue_adm (k e v : Nat) : (s.setValue k e v).adm = s.adm := rfl
@[simp] theorem setValue_qs (k e v : Nat) : (s.setValue k e v).qs = s.qs := rfl
@[simp] theorem setValue_sig (k e v : Nat) : (s.setValue k e v).sig = s.sig := rfl
@[simp] theorem setValue_emb (k e v : Nat) : (s.setValue k e v).emb = s.emb := rfl
@[simp] theorem setValue_route (k e v : Nat) : (s.setValue k e v).route = s.route := rfl
@[simp] theorem setValue_stripe (k e v : Nat) : (s.setValue k e v).stripe = s.stripe := rfl
@[simp] theorem setValue_links (k e v : Nat) : (s.setValue k e v).links = s.links := rfl
@[simp] theorem setValue_replay (k e v : Nat) : (s.setValue k e v).replay = s.replay := rfl
@[simp] theorem setValue_resets (k e v : Nat) : (s.setValue k e v).resets = s.resets := rfl
@[simp] theorem setValue_power (k e v : Nat) : (s.setValue k e v).power = s.power := rfl
@[simp] theorem setValue_mgmt (k e v : Nat) : (s.setValue k e v).mgmt = s.mgmt := rfl
@[simp] theorem setValue_win (k e v : Nat) : (s.setValue k e v).win = s.win := rfl
@[simp] theorem setValue_shadow (k e v : Nat) : (s.setValue k e v).shadow = s.shadow := rfl
@[simp] theorem setValue_pins (k e v : Nat) : (s.setValue k e v).pins = s.pins := rfl
@[simp] theorem setValue_out (k e v : Nat) : (s.setValue k e v).out = s.out := rfl
@[simp] theorem setValue_pending (k e v : Nat) : (s.setValue k e v).pending = s.pending := rfl

/-! Parts of the state after forwardSum. -/
@[simp] theorem forwardSum_build (k : Nat) : (s.forwardSum k).build = s.build := rfl
@[simp] theorem forwardSum_clk (k : Nat) : (s.forwardSum k).clk = s.clk := rfl
@[simp] theorem forwardSum_tick (k : Nat) : (s.forwardSum k).tick = s.tick := rfl
@[simp] theorem forwardSum_tele (k : Nat) : (s.forwardSum k).tele = s.tele := rfl
@[simp] theorem forwardSum_loader (k : Nat) : (s.forwardSum k).loader = s.loader := rfl
@[simp] theorem forwardSum_mat (k : Nat) : (s.forwardSum k).mat = s.mat := rfl
@[simp] theorem forwardSum_disp (k : Nat) : (s.forwardSum k).disp = s.disp := rfl
@[simp] theorem forwardSum_adm (k : Nat) : (s.forwardSum k).adm = s.adm := rfl
@[simp] theorem forwardSum_qs (k : Nat) : (s.forwardSum k).qs = s.qs := rfl
@[simp] theorem forwardSum_sig (k : Nat) : (s.forwardSum k).sig = s.sig := rfl
@[simp] theorem forwardSum_emb (k : Nat) : (s.forwardSum k).emb = s.emb := rfl
@[simp] theorem forwardSum_route (k : Nat) : (s.forwardSum k).route = s.route := rfl
@[simp] theorem forwardSum_stripe (k : Nat) : (s.forwardSum k).stripe = s.stripe := rfl
@[simp] theorem forwardSum_links (k : Nat) : (s.forwardSum k).links = s.links := rfl
@[simp] theorem forwardSum_replay (k : Nat) : (s.forwardSum k).replay = s.replay := rfl
@[simp] theorem forwardSum_resets (k : Nat) : (s.forwardSum k).resets = s.resets := rfl
@[simp] theorem forwardSum_power (k : Nat) : (s.forwardSum k).power = s.power := rfl
@[simp] theorem forwardSum_mgmt (k : Nat) : (s.forwardSum k).mgmt = s.mgmt := rfl
@[simp] theorem forwardSum_win (k : Nat) : (s.forwardSum k).win = s.win := rfl
@[simp] theorem forwardSum_shadow (k : Nat) : (s.forwardSum k).shadow = s.shadow := rfl
@[simp] theorem forwardSum_pins (k : Nat) : (s.forwardSum k).pins = s.pins := rfl
@[simp] theorem forwardSum_out (k : Nat) : (s.forwardSum k).out = s.out := rfl
@[simp] theorem forwardSum_pending (k : Nat) : (s.forwardSum k).pending = s.pending := rfl

/-! Parts of the state after bump. -/
@[simp] theorem bump_build (k n e : Nat) : (s.bump k n e).build = s.build := by
  unfold State.bump; dsimp only; split <;> rfl
@[simp] theorem bump_clk (k n e : Nat) : (s.bump k n e).clk = s.clk := by
  unfold State.bump; dsimp only; split <;> rfl
@[simp] theorem bump_tick (k n e : Nat) : (s.bump k n e).tick = s.tick := by
  unfold State.bump; dsimp only; split <;> rfl
@[simp] theorem bump_tele (k n e : Nat) : (s.bump k n e).tele = s.tele := by
  unfold State.bump; dsimp only; split <;> rfl
@[simp] theorem bump_loader (k n e : Nat) : (s.bump k n e).loader = s.loader := by
  unfold State.bump; dsimp only; split <;> rfl
@[simp] theorem bump_mat (k n e : Nat) : (s.bump k n e).mat = s.mat := by
  unfold State.bump; dsimp only; split <;> rfl
@[simp] theorem bump_disp (k n e : Nat) : (s.bump k n e).disp = s.disp := by
  unfold State.bump; dsimp only; split <;> rfl
@[simp] theorem bump_adm (k n e : Nat) : (s.bump k n e).adm = s.adm := by
  unfold State.bump; dsimp only; split <;> rfl
@[simp] theorem bump_qs (k n e : Nat) : (s.bump k n e).qs = s.qs := by
  unfold State.bump; dsimp only; split <;> rfl
@[simp] theorem bump_sig (k n e : Nat) : (s.bump k n e).sig = s.sig := by
  unfold State.bump; dsimp only; split <;> rfl
@[simp] theorem bump_emb (k n e : Nat) : (s.bump k n e).emb = s.emb := by
  unfold State.bump; dsimp only; split <;> rfl
@[simp] theorem bump_route (k n e : Nat) : (s.bump k n e).route = s.route := by
  unfold State.bump; dsimp only; split <;> rfl
@[simp] theorem bump_stripe (k n e : Nat) : (s.bump k n e).stripe = s.stripe := by
  unfold State.bump; dsimp only; split <;> rfl
@[simp] theorem bump_links (k n e : Nat) : (s.bump k n e).links = s.links := by
  unfold State.bump; dsimp only; split <;> rfl
@[simp] theorem bump_replay (k n e : Nat) : (s.bump k n e).replay = s.replay := by
  unfold State.bump; dsimp only; split <;> rfl
@[simp] theorem bump_resets (k n e : Nat) : (s.bump k n e).resets = s.resets := by
  unfold State.bump; dsimp only; split <;> rfl
@[simp] theorem bump_power (k n e : Nat) : (s.bump k n e).power = s.power := by
  unfold State.bump; dsimp only; split <;> rfl
@[simp] theorem bump_mgmt (k n e : Nat) : (s.bump k n e).mgmt = s.mgmt := by
  unfold State.bump; dsimp only; split <;> rfl
@[simp] theorem bump_win (k n e : Nat) : (s.bump k n e).win = s.win := by
  unfold State.bump; dsimp only; split <;> rfl
@[simp] theorem bump_shadow (k n e : Nat) : (s.bump k n e).shadow = s.shadow := by
  unfold State.bump; dsimp only; split <;> rfl
@[simp] theorem bump_pins (k n e : Nat) : (s.bump k n e).pins = s.pins := by
  unfold State.bump; dsimp only; split <;> rfl
@[simp] theorem bump_out (k n e : Nat) : (s.bump k n e).out = s.out := by
  unfold State.bump; dsimp only; split <;> rfl
@[simp] theorem bump_pending (k n e : Nat) : (s.bump k n e).pending = s.pending := by
  unfold State.bump; dsimp only; split <;> rfl

/-! Parts of the state after raise. -/
@[simp] theorem raise_build (c : Nat) : (s.raise c).build = s.build := by
  unfold State.raise; simp
@[simp] theorem raise_clk (c : Nat) : (s.raise c).clk = s.clk := by
  unfold State.raise; simp
@[simp] theorem raise_tick (c : Nat) : (s.raise c).tick = s.tick := by
  unfold State.raise; simp
@[simp] theorem raise_loader (c : Nat) : (s.raise c).loader = s.loader := by
  unfold State.raise; simp
@[simp] theorem raise_mat (c : Nat) : (s.raise c).mat = s.mat := by
  unfold State.raise; simp
@[simp] theorem raise_disp (c : Nat) : (s.raise c).disp = s.disp := by
  unfold State.raise; simp
@[simp] theorem raise_adm (c : Nat) : (s.raise c).adm = s.adm := by
  unfold State.raise; simp
@[simp] theorem raise_qs (c : Nat) : (s.raise c).qs = s.qs := by
  unfold State.raise; simp
@[simp] theorem raise_sig (c : Nat) : (s.raise c).sig = s.sig := by
  unfold State.raise; simp
@[simp] theorem raise_emb (c : Nat) : (s.raise c).emb = s.emb := by
  unfold State.raise; simp
@[simp] theorem raise_route (c : Nat) : (s.raise c).route = s.route := by
  unfold State.raise; simp
@[simp] theorem raise_stripe (c : Nat) : (s.raise c).stripe = s.stripe := by
  unfold State.raise; simp
@[simp] theorem raise_links (c : Nat) : (s.raise c).links = s.links := by
  unfold State.raise; simp
@[simp] theorem raise_replay (c : Nat) : (s.raise c).replay = s.replay := by
  unfold State.raise; simp
@[simp] theorem raise_resets (c : Nat) : (s.raise c).resets = s.resets := by
  unfold State.raise; simp
@[simp] theorem raise_power (c : Nat) : (s.raise c).power = s.power := by
  unfold State.raise; simp
@[simp] theorem raise_mgmt (c : Nat) : (s.raise c).mgmt = s.mgmt := by
  unfold State.raise; simp
@[simp] theorem raise_win (c : Nat) : (s.raise c).win = s.win := by
  unfold State.raise; simp
@[simp] theorem raise_shadow (c : Nat) : (s.raise c).shadow = s.shadow := by
  unfold State.raise; simp
@[simp] theorem raise_pins (c : Nat) : (s.raise c).pins = s.pins := by
  unfold State.raise; simp
@[simp] theorem raise_out (c : Nat) : (s.raise c).out = s.out := by
  unfold State.raise; simp
@[simp] theorem raise_pending (c : Nat) : (s.raise c).pending = s.pending := by
  unfold State.raise; simp

/-! Parts of the state after account. -/
@[simp] theorem account_build (k e n : Nat) : (s.account k e n).build = s.build := by
  unfold State.account; dsimp only; split <;> simp
@[simp] theorem account_clk (k e n : Nat) : (s.account k e n).clk = s.clk := by
  unfold State.account; dsimp only; split <;> simp
@[simp] theorem account_tick (k e n : Nat) : (s.account k e n).tick = s.tick := by
  unfold State.account; dsimp only; split <;> simp
@[simp] theorem account_loader (k e n : Nat) : (s.account k e n).loader = s.loader := by
  unfold State.account; dsimp only; split <;> simp
@[simp] theorem account_mat (k e n : Nat) : (s.account k e n).mat = s.mat := by
  unfold State.account; dsimp only; split <;> simp
@[simp] theorem account_disp (k e n : Nat) : (s.account k e n).disp = s.disp := by
  unfold State.account; dsimp only; split <;> simp
@[simp] theorem account_adm (k e n : Nat) : (s.account k e n).adm = s.adm := by
  unfold State.account; dsimp only; split <;> simp
@[simp] theorem account_qs (k e n : Nat) : (s.account k e n).qs = s.qs := by
  unfold State.account; dsimp only; split <;> simp
@[simp] theorem account_sig (k e n : Nat) : (s.account k e n).sig = s.sig := by
  unfold State.account; dsimp only; split <;> simp
@[simp] theorem account_emb (k e n : Nat) : (s.account k e n).emb = s.emb := by
  unfold State.account; dsimp only; split <;> simp
@[simp] theorem account_route (k e n : Nat) : (s.account k e n).route = s.route := by
  unfold State.account; dsimp only; split <;> simp
@[simp] theorem account_stripe (k e n : Nat) : (s.account k e n).stripe = s.stripe := by
  unfold State.account; dsimp only; split <;> simp
@[simp] theorem account_links (k e n : Nat) : (s.account k e n).links = s.links := by
  unfold State.account; dsimp only; split <;> simp
@[simp] theorem account_replay (k e n : Nat) : (s.account k e n).replay = s.replay := by
  unfold State.account; dsimp only; split <;> simp
@[simp] theorem account_resets (k e n : Nat) : (s.account k e n).resets = s.resets := by
  unfold State.account; dsimp only; split <;> simp
@[simp] theorem account_power (k e n : Nat) : (s.account k e n).power = s.power := by
  unfold State.account; dsimp only; split <;> simp
@[simp] theorem account_mgmt (k e n : Nat) : (s.account k e n).mgmt = s.mgmt := by
  unfold State.account; dsimp only; split <;> simp
@[simp] theorem account_win (k e n : Nat) : (s.account k e n).win = s.win := by
  unfold State.account; dsimp only; split <;> simp
@[simp] theorem account_shadow (k e n : Nat) : (s.account k e n).shadow = s.shadow := by
  unfold State.account; dsimp only; split <;> simp
@[simp] theorem account_pins (k e n : Nat) : (s.account k e n).pins = s.pins := by
  unfold State.account; dsimp only; split <;> simp
@[simp] theorem account_out (k e n : Nat) : (s.account k e n).out = s.out := by
  unfold State.account; dsimp only; split <;> simp
@[simp] theorem account_pending (k e n : Nat) : (s.account k e n).pending = s.pending := by
  unfold State.account; dsimp only; split <;> simp

/-! The entry that an update changes. -/

@[simp] theorem emit_out_eq (e : Emit) : (s.emit e).out = s.out ++ [e] := rfl
@[simp] theorem modTick_tick (f : TickUnit → TickUnit) : (s.modTick f).tick = f s.tick := rfl
@[simp] theorem modReplay_replay (f : Replay → Replay) : (s.modReplay f).replay = f s.replay := rfl
@[simp] theorem modPower_power (f : Power → Power) : (s.modPower f).power = f s.power := rfl
@[simp] theorem modResets_resets (f : Resets → Resets) : (s.modResets f).resets = f s.resets := rfl
@[simp] theorem modMgmt_mgmt (f : Mgmt → Mgmt) : (s.modMgmt f).mgmt = f s.mgmt := rfl
@[simp] theorem modWin_win (f : Window → Window) : (s.modWin f).win = f s.win := rfl
@[simp] theorem modUnits_disp (f : Dispatch → Dispatch) : (s.modUnits f).disp = f s.disp := rfl

end Sys2Proof.Machine
end

