-- ==== Sys2Proof/Laws/Flags.lean ====
section
/-! SUPPORT. Laws of the pins that follow a condition, of counting, and of the frame of every command: what a later proof
cites in place of unfolding `run`, `State.settle` or `State.bump`. -/
namespace Sys2Proof.Machine

/-! Counting. -/

/-- Counting changes nothing of the dictionary but the accumulators and the counters. -/
theorem bump_dict (s : State) (k n e : Nat) :
    (s.bump k n e).dict = { s.dict with acc := (s.bump k n e).dict.acc, counters := (s.bump k n e).dict.counters } := by
  unfold State.bump; dsimp only; split <;> rfl

@[simp] theorem bump_inForce (s : State) (k n e : Nat) : (s.bump k n e).dict.inForce = s.dict.inForce := by
  rw [bump_dict]
@[simp] theorem bump_written (s : State) (k n e : Nat) : (s.bump k n e).dict.written = s.dict.written := by
  rw [bump_dict]
@[simp] theorem bump_deferred (s : State) (k n e : Nat) : (s.bump k n e).dict.deferred = s.dict.deferred := by
  rw [bump_dict]
@[simp] theorem bump_accounting (s : State) (k n e : Nat) : (s.bump k n e).dict.accounting = s.dict.accounting := by
  rw [bump_dict]
@[simp] theorem bump_par (s : State) (k n e key i : Nat) : (s.bump k n e).par key i = s.par key i := by
  simp [State.par, State.objDefault]
@[simp] theorem raise_inForce (s : State) (c : Nat) : (s.raise c).dict.inForce = s.dict.inForce := by
  unfold State.raise; simp
@[simp] theorem raise_par (s : State) (c key i : Nat) : (s.raise c).par key i = s.par key i := by
  simp [State.par, State.objDefault]

/-- What is counted below the accumulator's limit stays in it: 2^23 events are forwarded (R474). -/
theorem bump_below (s : State) (k n e : Nat) (h : Sparse.get s.dict.acc 0 (dictKey k e) + n < 2 ^ 23) :
    s.bump k n e = { s with dict := { s.dict with
      acc := Sparse.set s.dict.acc 0 (dictKey k e) (Sparse.get s.dict.acc 0 (dictKey k e) + n) } } := by
  unfold State.bump; dsimp only; rw [if_neg (by omega)]

/-! The pins that follow a condition. -/

theorem setClock_clockLevel (s : State) (l : Nat) : (s.setClock l).clockLevel = s.clockLevel := by
  simp [State.setClock, State.clockLevel, State.par, State.objDefault]

theorem setClock_clkReq (s : State) (l : Nat) : (s.setClock l).pins.clkReq = l := by simp [State.setClock]

theorem setClock_alarmPin (s : State) (l : Nat) : (s.setClock l).alarmPin = s.alarmPin := by
  simp [State.setClock, State.alarmPin, State.alarmDue, State.par, State.objDefault]

/-- Whatever the state, the pins are at their levels once they are brought there. -/
theorem settle_settled (s : State) : (State.settle s).Settled := by
  unfold State.settle State.Settled
  by_cases h : s.clockLevel = s.pins.clkReq
  · simp only [if_pos h]; exact ⟨h.symm, rfl⟩
  · simp only [if_neg h]
    exact ⟨(setClock_clkReq s _).trans (setClock_clockLevel s _).symm, rfl⟩

/-- Pins that are at their levels stay as they are. -/
theorem settle_of_settled {s : State} (h : s.Settled) : State.settle s = s := by
  unfold State.settle
  simp only [if_pos h.1.symm, ← h.2]

/-- Bringing the pins to their levels changes CLK_REQ, ALARM_N, the settling clock and CLOCK_LEVEL_CHANGES. -/
theorem settle_frame (s : State) :
    State.settle s = { s with
      pins := { s.pins with clkReq := s.clockLevel, alarmN := s.alarmPin }
      power := (State.settle s).power
      dict := (State.settle s).dict } := by
  unfold State.settle
  by_cases h : s.clockLevel = s.pins.clkReq
  · simp only [if_pos h]; rw [h]
  · simp only [if_neg h, setClock_alarmPin]
    unfold State.setClock State.bump
    dsimp only
    split <;> rfl

theorem settle_power (s : State) : (State.settle s).power =
    { s.power with settle := (State.settle s).power.settle, raisedAt := (State.settle s).power.raisedAt } := by
  unfold State.settle
  by_cases h : s.clockLevel = s.pins.clkReq
  · simp only [if_pos h]
  · simp only [if_neg h, State.setClock, bump_power]

theorem settle_dict (s : State) : (State.settle s).dict =
    { s.dict with acc := (State.settle s).dict.acc, counters := (State.settle s).dict.counters } := by
  unfold State.settle
  by_cases h : s.clockLevel = s.pins.clkReq
  · simp only [if_pos h]
  · simp only [if_neg h, State.setClock]
    rw [bump_dict]

/-! The frame of a command. -/

/-- A command of any unit answers a next state: its effect with the pins in line and the queue unchanged. -/
theorem run_eq (f : State → State) (s : State) :
    run f s = .next { State.settle (f { s with out := [] }) with pending := s.pending } := rfl

/-- The state a command starts from does not depend on what an earlier one left on the output ports. -/
theorem clear_out {s : State} (h : s.out = []) (o : List Emit) : ({ ({ s with out := o } : State) with out := [] } : State) = s := by
  cases s; cases h; rfl

theorem completes_run {c : Instr} {f : State → State} {s : State} (hs : s.out = [])
    (h : ∀ x : State, x.build = s.build → exec c x = run f x) : Completes c s (f s) := by
  intro o
  rw [h { s with out := o } rfl, run_eq, clear_out hs]

/-- A command of the control and data planes, where they run. -/
theorem completes_core {c : Instr} {f : State → State} {s : State} (hs : s.Running)
    (h : ∀ x : State, x.build = s.build → exec c x = runCore f x) : Completes c s (f s) := by
  have := completes_run (f := fun s => if s.off then s else f s) hs.1 h
  simpa [hs.2] using this

/-- A command of the management plane, where it runs. -/
theorem completes_mgmt {c : Instr} {f : State → State} {s : State} (hs : s.Managed)
    (h : ∀ x : State, x.build = s.build → exec c x = runMgmt f x) : Completes c s (f s) := by
  have := completes_run (f := fun s => if s.pins.resetN then f s else s) hs.1 h
  simpa [hs.2] using this

/-- A command that names a port the build has. -/
theorem completes_port {c : Instr} {present : Bool} {f : State → State} {s : State} (hs : s.Running) (hp : present = true)
    (h : ∀ x : State, x.build = s.build → exec c x = runPort present f x) : Completes c s (f s) := by
  subst hp
  exact completes_core hs h

/-- With no request waiting a command is served at once. -/
theorem serveWaiting_none {s : State} (h : s.waitingRequests = []) : s.serveWaiting = s := by
  have : dictRequestCompleteEff s = s := by unfold dictRequestCompleteEff; simp [h]
  simp [State.serveWaiting, State.each, List.range, List.range.loop, this]

/-- A command that is a WRITE, served after the requests that wait (R446). -/
theorem completes_write' {c : Instr} {key e v : Nat} {s : State} (hs : s.Managed)
    (h : ∀ x : State, x.build = s.build → exec c x = runWrite key e v x) :
    Completes c s (s.serveWaiting.writeObject key e v) :=
  completes_mgmt (f := fun s => s.serveWaiting.writeObject key e v) hs fun x hx => (h x hx).trans (by unfold runWrite; rfl)

/-- A command that is a WRITE the dictionary accepts, with no request waiting. -/
theorem completes_write {c : Instr} {key e v : Nat} {s : State} (hs : s.Accepts key e v)
    (h : ∀ x : State, x.build = s.build → exec c x = runWrite key e v x) : Completes c s (s.writeObject key e v) := by
  have := completes_write' hs.1 h
  rwa [serveWaiting_none hs.2.1] at this

end Sys2Proof.Machine
end

