-- ==== Sys2Proof/Laws/Exec.lean ====
section
/-! SUPPORT. Each command as the effect its unit runs: what a proof about a command rewrites with, in place of unfolding
`exec`; and what all commands have in common. -/
namespace Sys2Proof.Machine

@[simp] theorem exec_dictWrite (mctp : Bool) (index sub first count : Nat) (value : List (BitVec 8)) (s : State) :
    exec (.dictWrite mctp index sub first count value) s = runMgmt (fun s =>
      let (n, s) := s.serveWaiting.fresh
      s.dictServe (dictWriteReq mctp index sub first count value) (Config.restoreAnswered n)) s := rfl
@[simp] theorem exec_mctpMessage (packets : List MctpPacket) (s : State) :
    exec (.mctpMessage packets) s = runMgmt (mctpMessageEff packets) s := rfl
@[simp] theorem exec_mctpAssemblyTimeout (s : State) :
    exec .mctpAssemblyTimeout s = runMgmt mctpAssemblyTimeoutEff s := rfl
@[simp] theorem exec_setEndpointId (eid : Nat) (s : State) :
    exec (.setEndpointId eid) s = runMgmt (endpointEff 1 [BitVec.ofNat 8 0, BitVec.ofNat 8 eid]) s := rfl
@[simp] theorem exec_getEndpointId (s : State) :
    exec .getEndpointId s = runMgmt (endpointEff 2 []) s := rfl
@[simp] theorem exec_getMctpVersionSupport (s : State) :
    exec .getMctpVersionSupport s = runMgmt (endpointEff 4 []) s := rfl
@[simp] theorem exec_getMessageTypeSupport (s : State) :
    exec .getMessageTypeSupport s = runMgmt (endpointEff 5 []) s := rfl
@[simp] theorem exec_getVendorDefinedMessageSupport (s : State) :
    exec .getVendorDefinedMessageSupport s = runMgmt (endpointEff 6 []) s := rfl
@[simp] theorem exec_entdaa (addr : Nat) (s : State) :
    exec (.entdaa addr) s = runMgmt (entdaaEff addr) s := rfl
@[simp] theorem exec_setdasa (staticAddr addr : Nat) (s : State) :
    exec (.setdasa staticAddr addr) s = runMgmt (setdasaEff staticAddr addr) s := rfl
@[simp] theorem exec_rstdaa (s : State) :
    exec .rstdaa s = runMgmt (ackWith fun m => { m with dynAddr := 0 }) s := rfl
@[simp] theorem exec_getpid (s : State) :
    exec .getpid s = runMgmt (fun s => s.emit (.i3cData (beBytes 6 Config.i3cPid.toNat))) s := rfl
@[simp] theorem exec_getbcr (s : State) :
    exec .getbcr s = runMgmt (fun s => s.emit (.i3cData [Config.i3cBcr])) s := rfl
@[simp] theorem exec_getdcr (s : State) :
    exec .getdcr s = runMgmt (fun s => s.emit (.i3cData [Config.i3cDcr])) s := rfl
@[simp] theorem exec_getstatus (s : State) :
    exec .getstatus s = runMgmt getstatusEff s := rfl
@[simp] theorem exec_getmwl (s : State) :
    exec .getmwl s = runMgmt (fun s => s.emit (.i3cData (beBytes 2 s.mgmt.mwl))) s := rfl
@[simp] theorem exec_getmrl (s : State) :
    exec .getmrl s = runMgmt (fun s => s.emit (.i3cData (beBytes 2 s.mgmt.mrl))) s := rfl
@[simp] theorem exec_setmwl (n : BitVec 16) (s : State) :
    exec (.setmwl n) s = runMgmt (ackWith fun m => { m with mwl := n.toNat }) s := rfl
@[simp] theorem exec_setmrl (n : BitVec 16) (s : State) :
    exec (.setmrl n) s = runMgmt (ackWith fun m => { m with mrl := n.toNat }) s := rfl
@[simp] theorem exec_enec (_events : BitVec 8) (s : State) :
    exec (.enec _events) s = runMgmt (ackWith id) s := rfl
@[simp] theorem exec_disec (_events : BitVec 8) (s : State) :
    exec (.disec _events) s = runMgmt (ackWith id) s := rfl
@[simp] theorem exec_i3cPrivateRead (s : State) :
    exec .i3cPrivateRead s = runMgmt privateReadEff s := rfl
@[simp] theorem exec_windowGo (s : State) :
    exec .windowGo s = runMgmt windowGoEff s := rfl
@[simp] theorem exec_dictRequestComplete (s : State) :
    exec .dictRequestComplete s = runMgmt dictRequestCompleteEff s := rfl
@[simp] theorem exec_unitStop (code : Nat) (s : State) :
    exec (.unitStop code) s = runWrite K.unitControl 0 (at' 1 14 2 + at' code 0 8) s := rfl
@[simp] theorem exec_unitStart (code : Nat) (s : State) :
    exec (.unitStart code) s = runWrite K.unitControl 0 (at' 2 14 2 + at' code 0 8) s := rfl
@[simp] theorem exec_unitStopEffect (u : Nat) (s : State) :
    exec (.unitStopEffect u) s = runCore (unitStopEffectEff u) s := rfl
@[simp] theorem exec_tickBoundary (s : State) :
    exec .tickBoundary s = runMgmt tickBoundaryEff s := rfl
@[simp] theorem exec_tickInEdge (since : Nat) (s : State) :
    exec (.tickInEdge since) s = runMgmt (tickInEdgeEff since) s := rfl
@[simp] theorem exec_tickInHoldover (s : State) :
    exec .tickInHoldover s = runMgmt tickInHoldoverEff s := rfl
@[simp] theorem exec_tickMark (p : Nat) (record : BitVec 128) (s : State) :
    exec (.tickMark p record) s = runPort (s.hasLink p) (tickMarkEff p record) s := rfl
@[simp] theorem exec_tickMarksMissing (s : State) :
    exec .tickMarksMissing s = runMgmt tickMarksMissingEff s := rfl
@[simp] theorem exec_deadlineExpiry (s : State) :
    exec .deadlineExpiry s = runCore (fun s => s.expire false fun s d => if d.doneAtTick then s else s.missDeadline d) s := rfl
@[simp] theorem exec_delayedReleaseExpiry (s : State) :
    exec .delayedReleaseExpiry s = runCore (fun s => s.expire true State.releaseDelayed) s := rfl
@[simp] theorem exec_imageLoad (s : State) :
    exec .imageLoad s = runWrite K.imageLoadGo 0 1 s := rfl
@[simp] theorem exec_imageUnload (s : State) :
    exec .imageUnload s = runWrite K.imageLoadGo 0 2 s := rfl
@[simp] theorem exec_imageLoadComplete (s : State) :
    exec .imageLoadComplete s = runCore imageLoadCompleteEff s := rfl
@[simp] theorem exec_step (a : Nat) (w : BitVec 512) (s : State) :
    exec (.step a w) s = runCore (doorbellEff a w) s := rfl
@[simp] theorem exec_jobOpen (a : Nat) (w : BitVec 512) (s : State) :
    exec (.jobOpen a w) s = runCore (doorbellEff a w) s := rfl
@[simp] theorem exec_jobClose (a : Nat) (w : BitVec 512) (s : State) :
    exec (.jobClose a w) s = runCore (doorbellEff a w) s := rfl
@[simp] theorem exec_jobCloseEffect (c : Nat) (s : State) :
    exec (.jobCloseEffect c) s = runCore (jobCloseEff c) s := rfl
@[simp] theorem exec_join (a : Nat) (w : BitVec 512) (s : State) :
    exec (.join a w) s = runCore (doorbellEff a w) s := rfl
@[simp] theorem exec_leave (a : Nat) (w : BitVec 512) (s : State) :
    exec (.leave a w) s = runCore (doorbellEff a w) s := rfl
@[simp] theorem exec_doorbellDataWord (a : Nat) (w : BitVec 512) (s : State) :
    exec (.doorbellDataWord a w) s = runCore (doorbellEff a w) s := rfl
@[simp] theorem exec_windowReserve (s : State) :
    exec .windowReserve s = runCore windowReserveEff s := rfl
@[simp] theorem exec_templateInstantiate (id : Nat) (s : State) :
    exec (.templateInstantiate id) s = runCore (templateInstantiateEff id) s := rfl
@[simp] theorem exec_tokenMatch (bank : Nat) (s : State) :
    exec (.tokenMatch bank) s = runCore (tokenMatchEff bank) s := rfl
@[simp] theorem exec_holdLift (n : Nat) (s : State) :
    exec (.holdLift n) s = runCore (holdLiftEff n) s := rfl
@[simp] theorem exec_nullTaskResolve (n : Nat) (s : State) :
    exec (.nullTaskResolve n) s = runCore (nullTaskResolveEff n) s := rfl
@[simp] theorem exec_taskSkip (n : Nat) (s : State) :
    exec (.taskSkip n) s = runCore (taskSkipEff n) s := rfl
@[simp] theorem exec_dispatch (d : Nat) (s : State) :
    exec (.dispatch d) s = runCore (dispatchEff d) s := rfl
@[simp] theorem exec_tokenForm (s : State) :
    exec .tokenForm s = runCore tokenFormEff s := rfl
@[simp] theorem exec_completionRecord (p : Nat) (r : BitVec 320) (s : State) :
    exec (.completionRecord p r) s = runPort (s.hasEngine p) (completionRecordEff p r) s := rfl
@[simp] theorem exec_writeFenceClear (p : Nat) (s : State) :
    exec (.writeFenceClear p) s = runPort (s.hasEngine p) (writeFenceClearEff p) s := rfl
@[simp] theorem exec_yieldRecord (p : Nat) (r : BitVec 64) (s : State) :
    exec (.yieldRecord p r) s = runPort (s.hasEngine p) (yieldRecordEff p r) s := rfl
@[simp] theorem exec_yieldBoundExpiry (p : Nat) (s : State) :
    exec (.yieldBoundExpiry p) s = runPort (s.hasEngine p) (yieldBoundExpiryEff p) s := rfl
@[simp] theorem exec_enginePortRestore (p : Nat) (s : State) :
    exec (.enginePortRestore p) s = runWrite K.enginePortRestore 0 p s := rfl
@[simp] theorem exec_enginePortConfigWrite (p : Nat) (v : BitVec 16) (s : State) :
    exec (.enginePortConfigWrite p v) s = runWrite K.enginePortConfig p v.toNat s := rfl
@[simp] theorem exec_epReadyRise (p : Nat) (s : State) :
    exec (.epReadyRise p) s = runPort (s.hasEngine p) (epReadyRiseEff p) s := rfl
@[simp] theorem exec_epReadyFall (p : Nat) (s : State) :
    exec (.epReadyFall p) s = runPort (s.hasEngine p) (epReadyFallEff p) s := rfl
@[simp] theorem exec_readApertureRead (a : Nat) (s : State) :
    exec (.readApertureRead a) s = runCore (readApertureEff a) s := rfl
@[simp] theorem exec_apertureBind (read : Bool) (a : Nat) (v : BitVec 16) (s : State) :
    exec (.apertureBind read a v) s = runWrite (if read then K.readBind else K.doorbellBind) a v.toNat s := rfl
@[simp] theorem exec_queueEnable (n : Nat) (s : State) :
    exec (.queueEnable n) s = runWrite K.queueControl 0 (at' 1 30 2 + at' n 0 14) s := rfl
@[simp] theorem exec_queueDisable (n : Nat) (s : State) :
    exec (.queueDisable n) s = runWrite K.queueControl 0 (at' 2 30 2 + at' n 0 14) s := rfl
@[simp] theorem exec_queueFlush (n : Nat) (s : State) :
    exec (.queueFlush n) s = runWrite K.queueControl 0 (at' 3 30 2 + at' n 0 14) s := rfl
@[simp] theorem exec_queueFlushEffect (n : Nat) (s : State) :
    exec (.queueFlushEffect n) s = runCore (queueFlushEff n) s := rfl
@[simp] theorem exec_queueConfigWrite (n : Nat) (v : BitVec 128) (s : State) :
    exec (.queueConfigWrite n v) s = runWrite K.queueConfig n v.toNat s := rfl
@[simp] theorem exec_qEnqueue (n : Nat) (s : State) :
    exec (.qEnqueue n) s = runCore (fun s => s.onItem n Op.qEnqueue (qEnqueueEff n)) s := rfl
@[simp] theorem exec_qDequeue (n : Nat) (s : State) :
    exec (.qDequeue n) s = runCore (fun s => s.onItem n Op.qDequeue (qDequeueEff n)) s := rfl
@[simp] theorem exec_queueProducerResume (n : Nat) (s : State) :
    exec (.queueProducerResume n) s = runCore (queueResumeEff n) s := rfl
@[simp] theorem exec_resultRelease (f : Nat) (s : State) :
    exec (.resultRelease f) s = runCore (resultReleaseEff f) s := rfl
@[simp] theorem exec_signal (src : SignalSource) (cmd : BitVec 64) (s : State) :
    exec (.signal src cmd) s = runCore (signalEff src cmd) s := rfl
@[simp] theorem exec_arrive (src : SignalSource) (cmd : BitVec 64) (s : State) :
    exec (.arrive src cmd) s = runCore (signalEff src cmd) s := rfl
@[simp] theorem exec_heldSignalApply (s : State) :
    exec .heldSignalApply s = runCore heldSignalApplyEff s := rfl
@[simp] theorem exec_signalOpen (v : BitVec 128) (s : State) :
    exec (.signalOpen v) s = runWrite K.signalOpen 0 v.toNat s := rfl
@[simp] theorem exec_signalClose (s : State) :
    exec .signalClose s = runWrite K.signalClose 0 1 s := rfl
@[simp] theorem exec_sigWait (n : Nat) (s : State) :
    exec (.sigWait n) s = runCore (sigWaitEff n) s := rfl
@[simp] theorem exec_barrierArrive (n : Nat) (s : State) :
    exec (.barrierArrive n) s = runCore (barrierArriveEff n) s := rfl
@[simp] theorem exec_sigPost (n : Nat) (s : State) :
    exec (.sigPost n) s = runCore (sigPostEff n) s := rfl
@[simp] theorem exec_waitResolve (n : Nat) (s : State) :
    exec (.waitResolve n) s = runCore (waitResolveEff n) s := rfl
@[simp] theorem exec_preemptRequest (p : Nat) (s : State) :
    exec (.preemptRequest p) s = runPort (s.hasEngine p) (preemptRequestEff p) s := rfl
@[simp] theorem exec_spillEnd (p : Nat) (s : State) :
    exec (.spillEnd p) s = runPort (s.hasEngine p) (spillEndEff p) s := rfl
@[simp] theorem exec_restoreIssue (p : Nat) (s : State) :
    exec (.restoreIssue p) s = runPort (s.hasEngine p) (restoreIssueEff p) s := rfl
@[simp] theorem exec_switchIncomingIssue (p : Nat) (s : State) :
    exec (.switchIncomingIssue p) s = runPort (s.hasEngine p) (switchIncomingIssueEff p) s := rfl
@[simp] theorem exec_dmaCopy (n : Nat) (s : State) :
    exec (.dmaCopy n) s = runCore (fun s => s.onItem n Op.dmaCopy (dmaCopyEff n)) s := rfl
@[simp] theorem exec_dmaFill (n : Nat) (s : State) :
    exec (.dmaFill n) s = runCore (fun s => s.onItem n Op.dmaFill (dmaFillEff n)) s := rfl
@[simp] theorem exec_tableOpen (s : State) :
    exec .tableOpen s = runWrite K.tableCommand 0 1 s := rfl
@[simp] theorem exec_tableClose (s : State) :
    exec .tableClose s = runWrite K.tableCommand 0 2 s := rfl
@[simp] theorem exec_embGather (n : Nat) (s : State) :
    exec (.embGather n) s = runCore (fun s => s.onItem n Op.embGather fun s => s.lookup n Op.embGather) s := rfl
@[simp] theorem exec_embPool (n : Nat) (s : State) :
    exec (.embPool n) s = runCore (fun s => s.onItem n Op.embPool fun s => s.lookup n Op.embPool) s := rfl
@[simp] theorem exec_embScore (n : Nat) (s : State) :
    exec (.embScore n) s = runCore (fun s => s.onItem n Op.embScore fun s => s.lookup n Op.embScore) s := rfl
@[simp] theorem exec_exchangePoint (s : State) :
    exec .exchangePoint s = runCore exchangePointEff s := rfl
@[simp] theorem exec_poolReq (src : Nat) (h : BitVec 128) (payload : List (BitVec 128)) (s : State) :
    exec (.poolReq src h payload) s = runCore (remoteEff 0 src h payload fun r s => s.serveRemote r) s := rfl
@[simp] theorem exec_scoreReq (src : Nat) (h : BitVec 128) (payload : List (BitVec 128)) (s : State) :
    exec (.scoreReq src h payload) s = runCore (remoteEff 2 src h payload fun r s => s.serveRemote r) s := rfl
@[simp] theorem exec_poolReply (src : Nat) (h : BitVec 128) (payload : List (BitVec 128)) (s : State) :
    exec (.poolReply src h payload) s = runCore (remoteEff 1 src h payload fun r s => s.remoteReply r false (takePool r s)) s := rfl
@[simp] theorem exec_scoreReply (src : Nat) (h : BitVec 128) (payload : List (BitVec 128)) (s : State) :
    exec (.scoreReply src h payload) s = runCore (remoteEff 3 src h payload fun r s => s.remoteReply r true (takeScore r)) s := rfl
@[simp] theorem exec_remoteTimeout (tag : Nat) (s : State) :
    exec (.remoteTimeout tag) s = runCore (remoteTimeoutEff tag) s := rfl
@[simp] theorem exec_embUpdate (n : Nat) (s : State) :
    exec (.embUpdate n) s = runCore (fun s => s.onItem n Op.embUpdate (embUpdateEff n)) s := rfl
@[simp] theorem exec_updatePublish (n : Nat) (s : State) : exec (.updatePublish n) s = runCore (fun s => if s.embStopped then s
    else (s.patient (.task n (s.slot n).inst) fun s => s.advanceUpdate n).tryPublish n) s := rfl
@[simp] theorem exec_foldStart (i : Nat) (s : State) :
    exec (.foldStart i) s = runCore (foldStartEff i) s := rfl
@[simp] theorem exec_foldCopyComplete (i : Nat) (s : State) :
    exec (.foldCopyComplete i) s = runCore (foldCopyCompleteEff i) s := rfl
@[simp] theorem exec_migrationCopyComplete (tn key : Nat) (s : State) :
    exec (.migrationCopyComplete tn key) s = runCore (migrationCopyCompleteEff tn key) s := rfl
@[simp] theorem exec_hotRowDemotion (i : Nat) (s : State) :
    exec (.hotRowDemotion i) s = runCore (hotRowDemotionEff i) s := rfl
@[simp] theorem exec_replica (src : Nat) (h : BitVec 128) (payload : List (BitVec 128)) (s : State) :
    exec (.replica src h payload) s = runCore (replicaRecEff 0 src h payload fun s => s.storeReplica src h payload) s := rfl
@[simp] theorem exec_lease (src : Nat) (h : BitVec 128) (s : State) :
    exec (.lease src h) s = runCore (replicaRecEff 1 src h [] fun s => { s with emb := { s.emb with leases := Sparse.set s.emb.leases 0 (Rep.owner h) ((Rep.limit h).toNat + 1) } }) s := rfl
@[simp] theorem exec_drop (src : Nat) (h : BitVec 128) (s : State) :
    exec (.drop src h) s = runCore (replicaRecEff 2 src h [] fun s => s.dropReplica h) s := rfl
@[simp] theorem exec_voxporSwap (tn : Nat) (s : State) :
    exec (.voxporSwap tn) s = runWrite K.voxporSwap 0 tn s := rfl
@[simp] theorem exec_voxporScanComplete (tn : Nat) (s : State) :
    exec (.voxporScanComplete tn) s = runCore (voxporScanCompleteEff tn) s := rfl
@[simp] theorem exec_tableDigestScanComplete (tn : Nat) (s : State) :
    exec (.tableDigestScanComplete tn) s = runCore (tableDigestScanCompleteEff tn) s := rfl
@[simp] theorem exec_expSelect (n : Nat) (s : State) :
    exec (.expSelect n) s = runCore (fun s => s.onItem n Op.expSelect (expSelectEff n)) s := rfl
@[simp] theorem exec_expSend (n : Nat) (s : State) :
    exec (.expSend n) s = runCore (fun s => s.onItem n Op.expSend (expSendEff n)) s := rfl
@[simp] theorem exec_exchangeOpen (n : Nat) (s : State) :
    exec (.exchangeOpen n) s = runCore (exchangeOpenEff n) s := rfl
@[simp] theorem exec_expReturn (n : Nat) (s : State) :
    exec (.expReturn n) s = runCore (fun s => s.onItem n Op.expReturn (expReturnEff n)) s := rfl
@[simp] theorem exec_expRecv (n : Nat) (s : State) :
    exec (.expRecv n) s = runCore (expRecvEff n) s := rfl
@[simp] theorem exec_expCollect (n : Nat) (s : State) :
    exec (.expCollect n) s = runCore (expCollectEff n) s := rfl
@[simp] theorem exec_sendCount (src : Nat) (h : BitVec 128) (payload : List (BitVec 128)) (s : State) :
    exec (.sendCount src h payload) s = runCore (exchangeEff 0 src h payload) s := rfl
@[simp] theorem exec_sendRow (src : Nat) (h : BitVec 128) (payload : List (BitVec 128)) (s : State) :
    exec (.sendRow src h payload) s = runCore (exchangeEff 1 src h payload) s := rfl
@[simp] theorem exec_returnCount (src : Nat) (h : BitVec 128) (payload : List (BitVec 128)) (s : State) :
    exec (.returnCount src h payload) s = runCore (exchangeEff 2 src h payload) s := rfl
@[simp] theorem exec_returnRow (src : Nat) (h : BitVec 128) (payload : List (BitVec 128)) (s : State) :
    exec (.returnRow src h payload) s = runCore (exchangeEff 3 src h payload) s := rfl
@[simp] theorem exec_exchangeTimeout (tag : BitVec 32) (s : State) :
    exec (.exchangeTimeout tag) s = runCore (exchangeTimeoutEff tag) s := rfl
@[simp] theorem exec_engineReadRequest (p : Nat) (addr : BitVec 37) (tag : Nat) (hint : BitVec 2) (s : State) :
    exec (.engineReadRequest p addr tag hint) s = runPort (s.hasEngine p) (engineReadRequestEff p addr tag hint) s := rfl
@[simp] theorem exec_engineWriteBeat (p : Nat) (b : WriteBeat) (s : State) :
    exec (.engineWriteBeat p b) s = runPort (s.hasEngine p) (engineWriteBeatEff p b) s := rfl
@[simp] theorem exec_hostDmaRead (addr : BitVec 37) (tag part : Nat) (s : State) :
    exec (.hostDmaRead addr tag part) s = runCore (hostDmaReadEff addr tag part) s := rfl
@[simp] theorem exec_hostDmaWrite (addr : BitVec 37) (part : Nat) (signal : Bool) (data : BitVec 512) (s : State) :
    exec (.hostDmaWrite addr part signal data) s = runCore (hostDmaWriteEff addr part signal data) s := rfl
@[simp] theorem exec_controlRequest (write : Bool) (addr size : Nat) (data : BitVec 512) (s : State) :
    exec (.controlRequest write addr size data) s = runMgmt (fun s => if s.off ∧ addr ≥ 0x10000
      then s.emit (.controlResponse 0) else controlRequestEff write addr size data s) s := rfl
/-- The TAG and the STATUS of a response, put together again, are the response without its reserved bits (R301). -/
theorem Rsp.word_toNat (r : BitVec 16) :
    (Rsp.word (r.extractLsb' 6 10) (r.extractLsb' 3 3)).toNat = r.toNat / 8 * 8 := by
  have h : Rsp.word (r.extractLsb' 6 10) (r.extractLsb' 3 3) = (r >>> 3) <<< 3 := by
    apply BitVec.eq_of_getLsbD_eq
    intro i hi
    simp only [Rsp.word, BitVec.getLsbD_or, BitVec.getLsbD_shiftLeft, BitVec.getLsbD_setWidth, BitVec.getLsbD_extractLsb',
      BitVec.getLsbD_ushiftRight]
    rcases Nat.lt_or_ge i 3 with h | h
    · simp [h, show i < 6 by omega]
    · rcases Nat.lt_or_ge i 6 with h3 | h3
      · simp [h3, hi, show ¬ i < 3 by omega, show i - 3 < 3 by omega, show i - 3 < 16 by omega]
      · simp [hi, show ¬ i < 3 by omega, show ¬ i < 6 by omega, show ¬ i - 3 < 3 by omega, show i - 6 < 10 by omega,
          show i - 6 < 16 by omega, show 6 + (i - 6) = 3 + (i - 3) by omega]
  have := r.isLt
  rw [h]
  simp [Nat.shiftLeft_eq, Nat.shiftRight_eq_div_pow]; omega
@[simp] theorem Rsp.tag_word (r : BitVec 16) :
    Rsp.tag (Rsp.word (r.extractLsb' 6 10) (r.extractLsb' 3 3)) = Rsp.tag r := by
  simp only [Rsp.tag, bits, Rsp.word_toNat, fld, Nat.shiftRight_eq_div_pow]; omega
@[simp] theorem Rsp.status_word (r : BitVec 16) :
    Rsp.status (Rsp.word (r.extractLsb' 6 10) (r.extractLsb' 3 3)) = Rsp.status r := by
  simp only [Rsp.status, bits, Rsp.word_toNat, fld, Nat.shiftRight_eq_div_pow]; omega
@[simp] theorem exec_memReadResponse (p : Nat) (tag : BitVec 10) (status : BitVec 3) (data : BitVec 512)
    (s : State) : exec (.memReadResponse p tag status data) s
      = runPort (s.hasMemory p) (memReadResponseEff p (Rsp.word tag status) data) s := rfl
@[simp] theorem exec_memWriteResponse (p : Nat) (r : BitVec 16) (s : State) :
    exec (.memWriteResponse p r) s = runPort (s.hasMemory p) (memWriteResponseEff p r) s := rfl
@[simp] theorem exec_repairResponse (p : Nat) (r : BitVec 16) (s : State) :
    exec (.repairResponse p r) s = runPort (s.hasMemory p) (repairResponseEff p r) s := rfl
@[simp] theorem exec_memTimeout (p tag : Nat) (s : State) :
    exec (.memTimeout p tag) s = runPort (s.hasMemory p) (memTimeoutEff p tag) s := rfl
@[simp] theorem exec_reconstructTimeout (n : Nat) (s : State) :
    exec (.reconstructTimeout n) s = runCore (reconstructTimeoutEff n) s := rfl
@[simp] theorem exec_portOfflineRise (p : Nat) (s : State) :
    exec (.portOfflineRise p) s = runPort (s.hasMemory p) (portOfflineRiseEff p) s := rfl
@[simp] theorem exec_portOfflineGrant (p : Nat) (s : State) :
    exec (.portOfflineGrant p) s = runPort (s.hasMemory p) (portOfflineGrantEff p) s := rfl
@[simp] theorem exec_drainComplete (p : Nat) (s : State) :
    exec (.drainComplete p) s = runPort (s.hasMemory p) (drainCompleteEff p) s := rfl
@[simp] theorem exec_portOfflineFall (p : Nat) (lost : Bool) (s : State) :
    exec (.portOfflineFall p lost) s = runPort (s.hasMemory p) (portOfflineFallEff p lost) s := rfl
@[simp] theorem exec_offlineRetrain (p : Nat) (s : State) :
    exec (.offlineRetrain p) s = runWrite K.memPortControl 0 (at' 1 12 4 + at' p 0 5) s := rfl
@[simp] theorem exec_offlineReplace (p : Nat) (s : State) :
    exec (.offlineReplace p) s = runWrite K.memPortControl 0 (at' 2 12 4 + at' p 0 5) s := rfl
@[simp] theorem exec_restore (p : Nat) (answered : Bool) (s : State) :
    exec (.restore p answered) s =
      runMgmt (fun s => s.serveWaiting.dictServe (writeReq K.memPortControl 0 (at' 3 12 4 + at' p 0 5)) answered) s := rfl
@[simp] theorem exec_rebuildChunkComplete (p : Nat) (s : State) :
    exec (.rebuildChunkComplete p) s = runPort (s.hasMemory p) (rebuildChunkCompleteEff p) s := rfl
@[simp] theorem exec_pageRestoreComplete (p page : Nat) (s : State) :
    exec (.pageRestoreComplete p page) s = runPort (s.hasMemory p) (pageRestoreCompleteEff p page) s := rfl
@[simp] theorem exec_scrubRow (g row : Nat) (s : State) :
    exec (.scrubRow g row) s = runCore (scrubRowEff g row) s := rfl
@[simp] theorem exec_memWipeChunk (p k : Nat) (s : State) :
    exec (.memWipeChunk p k) s = runPort (s.hasMemory p) (memWipeChunkEff p k) s := rfl
@[simp] theorem exec_laneSignalLoss (p : Nat) (level : BitVec 16) (s : State) :
    exec (.laneSignalLoss p level) s = runPort (s.hasLink p) (laneSignalLossEff p level) s := rfl
@[simp] theorem exec_laneChangeSwitch (p : Nat) (s : State) :
    exec (.laneChangeSwitch p) s = runPort (s.hasLink p) (laneChangeSwitchEff p) s := rfl
@[simp] theorem exec_controlFlit (p : Nat) (words : List (BitVec 4 × BitVec 256)) (s : State) :
    exec (.controlFlit p words) s = runPort (s.hasLink p) (flitEff p true words) s := rfl
/-- Lane words taken apart and put together again (R332). -/
@[simp] theorem zip_lanes_words {α β : Type} (l : List (α × β)) : (l.map (·.1)).zip (l.map (·.2)) = l := by
  induction l with
  | nil => rfl
  | cons a l h => simpa using h
@[simp] theorem exec_dataFlit (p : Nat) (lanes : List (BitVec 4)) (words : List (BitVec 256)) (s : State) :
    exec (.dataFlit p lanes words) s = runPort (s.hasLink p) (flitEff p false (lanes.zip words)) s := rfl
@[simp] theorem exec_flitTransmit (p : Nat) (s : State) :
    exec (.flitTransmit p) s = runPort (s.hasLink p) (flitTransmitEff p) s := rfl
@[simp] theorem exec_controlFlitPeriod (p : Nat) (s : State) :
    exec (.controlFlitPeriod p) s = runPort (s.hasLink p) (controlFlitPeriodEff p) s := rfl
@[simp] theorem exec_linkReplayTimeout (p vc : Nat) (s : State) :
    exec (.linkReplayTimeout p vc) s = runPort (s.hasLink p) (linkReplayTimeoutEff p vc) s := rfl
@[simp] theorem exec_linkDeadTimeout (p : Nat) (s : State) :
    exec (.linkDeadTimeout p) s = runPort (s.hasLink p) (fun s => s.linkDown p false) s := rfl
@[simp] theorem exec_trainingLock (p : Nat) (s : State) :
    exec (.trainingLock p) s = runPort (s.hasLink p) (trainingLockEff p) s := rfl
@[simp] theorem exec_trainingTimeout (p : Nat) (s : State) :
    exec (.trainingTimeout p) s = runPort (s.hasLink p) (trainingTimeoutEff p) s := rfl
@[simp] theorem exec_identityBlock (p : Nat) (block : BitVec 512) (echoes : List (Nat × Nat)) (s : State) :
    exec (.identityBlock p block echoes) s = runPort (s.hasLink p) (identityBlockEff p block echoes) s := rfl
@[simp] theorem exec_downRetrain (p : Nat) (s : State) :
    exec (.downRetrain p) s = runPort (s.hasLink p) (downRetrainEff p) s := rfl
@[simp] theorem exec_refusedRetry (p : Nat) (s : State) :
    exec (.refusedRetry p) s = runPort (s.hasLink p) (refusedRetryEff p) s := rfl
@[simp] theorem exec_linkEnableWrite (v : BitVec 16) (s : State) :
    exec (.linkEnableWrite v) s = runWrite K.linkEnable 0 v.toNat s := rfl
@[simp] theorem exec_write (src : Nat) (header : BitVec 128) (beats : List (BitVec 512)) (s : State) :
    exec (.write src header beats) s = runCore (writeEff src header beats) s := rfl
@[simp] theorem exec_queue (src : Nat) (header : BitVec 128) (words : List (BitVec 512)) (s : State) :
    exec (.queue src header words) s = runCore (queueRecordEff src header words) s := rfl
@[simp] theorem exec_start (p : Nat) (record : BitVec 128) (s : State) :
    exec (.start p record) s = runPort (s.hasLink p) (startEff p record) s := rfl
@[simp] theorem exec_startBarrierGo (v : BitVec 128) (s : State) :
    exec (.startBarrierGo v) s = runWrite K.startBarrierGo 0 v.toNat s := rfl
@[simp] theorem exec_startTimeElapsed (s : State) :
    exec .startTimeElapsed s = runMgmt startTimeElapsedEff s := rfl
@[simp] theorem exec_solderArm (v : Nat) (s : State) :
    exec (.solderArm v) s = runWrite K.solderArm 0 v s := rfl
@[simp] theorem exec_rngProbeIn (v : BitVec 256) (s : State) :
    exec (.rngProbeIn v) s = runWrite K.rngProbeIn 0 v.toNat s := rfl
@[simp] theorem exec_digest (n : Nat) (s : State) :
    exec (.digest n) s = runCore (fun s => s.onItem n Op.digest (digestEff n)) s := rfl
@[simp] theorem exec_replayControlWrite (v : Nat) (s : State) :
    exec (.replayControlWrite v) s = runWrite K.replayControl 0 v s := rfl
@[simp] theorem exec_logConsumedWrite (v : BitVec 32) (s : State) :
    exec (.logConsumedWrite v) s = runWrite K.logConsumed 0 v.toNat s := rfl
@[simp] theorem exec_taskWatchdogExpiry (p : Nat) (s : State) :
    exec (.taskWatchdogExpiry p) s = runPort (s.hasEngine p) (taskWatchdogExpiryEff p) s := rfl
@[simp] theorem exec_dataTaskWatchdogExpiry (n : Nat) (s : State) :
    exec (.dataTaskWatchdogExpiry n) s = runCore (dataTaskWatchdogExpiryEff n) s := rfl
@[simp] theorem exec_dataUnitStall (n : Nat) (s : State) :
    exec (.dataUnitStall n) s = runCore (dataUnitStallEff n) s := rfl
@[simp] theorem exec_dispatchStall (d : Nat) (s : State) :
    exec (.dispatchStall d) s = runCore (dispatchStallEff d) s := rfl
@[simp] theorem exec_noEngine (n : Nat) (s : State) :
    exec (.noEngine n) s = runCore (noEngineEff n) s := rfl
@[simp] theorem exec_mcWatchdogExpiry (s : State) :
    exec .mcWatchdogExpiry s = runMgmt mcWatchdogExpiryEff s := rfl
@[simp] theorem exec_mcRestartComplete (s : State) :
    exec .mcRestartComplete s = runMgmt mcRestartCompleteEff s := rfl
@[simp] theorem exec_mcHeartbeat (v : BitVec 8) (s : State) :
    exec (.mcHeartbeat v) s = runWrite K.mcHeartbeat 0 v.toNat s := rfl
@[simp] theorem exec_resetRequestL0 (c : Nat) (s : State) :
    exec (.resetRequestL0 c) s = runWrite K.resetRequest 0 (at' c 0 12) s := rfl
@[simp] theorem exec_resetRequestL1 (p : Nat) (s : State) :
    exec (.resetRequestL1 p) s = runWrite K.resetRequest 0 (at' 1 28 4 + at' p 0 12) s := rfl
@[simp] theorem exec_resetRequestL2 (part : Nat) (s : State) :
    exec (.resetRequestL2 part) s = runWrite K.resetRequest 0 (at' 2 28 4 + at' part 0 12) s := rfl
@[simp] theorem exec_resetRequestL3 (s : State) :
    exec .resetRequestL3 s = runWrite K.resetRequest 0 (at' 3 28 4) s := rfl
@[simp] theorem exec_resetRequestL4 (s : State) :
    exec .resetRequestL4 s = runWrite K.resetRequest 0 (at' 4 28 4) s := rfl
@[simp] theorem exec_resetRequestL5 (s : State) :
    exec .resetRequestL5 s = runWrite K.resetRequest 0 (at' 5 28 4) s := rfl
@[simp] theorem exec_l0DrainEnd (c : Nat) (s : State) :
    exec (.l0DrainEnd c) s = runCore (l0DrainEndEff c) s := rfl
@[simp] theorem exec_cleanupWalksComplete (c : Nat) (s : State) :
    exec (.cleanupWalksComplete c) s = runCore (cleanupEff c) s := rfl
@[simp] theorem exec_cleanupOverrun (c : Nat) (s : State) :
    exec (.cleanupOverrun c) s = runCore (cleanupOverrunEff c) s := rfl
@[simp] theorem exec_engineResetTimeout (p : Nat) (s : State) :
    exec (.engineResetTimeout p) s = runPort (s.hasEngine p) (engineResetTimeoutEff p) s := rfl
@[simp] theorem exec_levelTimeout (s : State) :
    exec .levelTimeout s = run levelTimeoutEff s := rfl
@[simp] theorem exec_resetLevelComplete (s : State) :
    exec .resetLevelComplete s = run levelCompleteEff s := rfl
@[simp] theorem exec_nightRelease (s : State) :
    exec .nightRelease s = runWrite K.nightRelease 0 1 s := rfl
@[simp] theorem exec_dumpRequest (s : State) :
    exec .dumpRequest s = runWrite K.dumpRequest 0 1 s := rfl
@[simp] theorem exec_dumpComplete (unreachable : List Nat) (s : State) :
    exec (.dumpComplete unreachable) s = runMgmt (dumpCompleteEff unreachable) s := rfl
@[simp] theorem exec_dumpAck (s : State) :
    exec .dumpAck s = runWrite K.dumpAck 0 1 s := rfl
@[simp] theorem exec_memZeroFill (v : BitVec 128) (s : State) :
    exec (.memZeroFill v) s = runWrite K.memZeroFill 0 v.toNat s := rfl
@[simp] theorem exec_memZeroFillComplete (s : State) :
    exec .memZeroFillComplete s = runCore memZeroFillCompleteEff s := rfl
@[simp] theorem exec_sramBankRotation (a bank : Nat) (s : State) :
    exec (.sramBankRotation a bank) s = runCore (sramBankRotationEff a bank) s := rfl
@[simp] theorem exec_sramUncorrectable (w : SramWord) (s : State) :
    exec (.sramUncorrectable w) s =
      runMgmt (fun s => if s.off ∧ w ≠ .controller then s else sramUncorrectableEff w s) s := rfl
@[simp] theorem exec_resetNAssert (s : State) :
    exec .resetNAssert s = run resetNAssertEff s := rfl
@[simp] theorem exec_resetNRelease (s : State) :
    exec .resetNRelease s = run resetNReleaseEff s := rfl
@[simp] theorem exec_corePwrGoodFall (s : State) :
    exec .corePwrGoodFall s = run corePwrGoodFallEff s := rfl
@[simp] theorem exec_corePwrGoodRise (s : State) :
    exec .corePwrGoodRise s = run corePwrGoodRiseEff s := rfl
@[simp] theorem exec_startGo (s : State) :
    exec .startGo s = runWrite K.startGo 0 1 s := rfl
@[simp] theorem exec_morningBegin (s : State) :
    exec .morningBegin s = runCore morningBeginEff s := rfl
@[simp] theorem exec_noonLimit (s : State) :
    exec .noonLimit s = runCore noonLimitEff s := rfl
@[simp] theorem exec_thermalSample (l : List Int) (s : State) :
    exec (.thermalSample l) s = runMgmt (thermalSampleEff l) s := rfl
@[simp] theorem exec_throttleStep (fall : Bool) (s : State) :
    exec (.throttleStep fall) s = runMgmt (throttleStepEff fall) s := rfl
@[simp] theorem exec_clockRange (clock khz : Nat) (s : State) :
    exec (.clockRange clock khz) s = runMgmt (clockRangeEff clock khz) s := rfl
@[simp] theorem exec_voltageRange (region : Nat) (mv : Int) (s : State) :
    exec (.voltageRange region mv) s = runMgmt (voltageRangeEff region mv) s := rfl
@[simp] theorem exec_powerRequestP0 (s : State) :
    exec .powerRequestP0 s = runWrite K.powerRequest 0 0 s := rfl
@[simp] theorem exec_powerRequestP1 (s : State) :
    exec .powerRequestP1 s = runWrite K.powerRequest 0 1 s := rfl
@[simp] theorem exec_powerRequestP2 (s : State) :
    exec .powerRequestP2 s = runWrite K.powerRequest 0 2 s := rfl
@[simp] theorem exec_powerRequestP3 (s : State) :
    exec .powerRequestP3 s = runWrite K.powerRequest 0 3 s := rfl
@[simp] theorem exec_powerDrainComplete (s : State) :
    exec .powerDrainComplete s = runCore powerDrainCompleteEff s := rfl
@[simp] theorem exec_p2DrainTimeout (s : State) :
    exec .p2DrainTimeout s = runCore p2DrainTimeoutEff s := rfl
@[simp] theorem exec_selfRefreshAck (p : Nat) (level : Bool) (s : State) :
    exec (.selfRefreshAck p level) s = runPort (s.hasMemory p) (selfRefreshAckEff p level) s := rfl
@[simp] theorem exec_sramBist (target : BitVec 16) (s : State) :
    exec (.sramBist target) s = runWrite K.selftestRequest 0 (testRequest T.sramBist target.toNat false) s := rfl
@[simp] theorem exec_laneCal (target : BitVec 16) (s : State) :
    exec (.laneCal target) s = runWrite K.selftestRequest 0 (testRequest T.laneCal target.toNat false) s := rfl
@[simp] theorem exec_memRetrain (target : BitVec 16) (s : State) :
    exec (.memRetrain target) s = runWrite K.selftestRequest 0 (testRequest T.memRetrain target.toNat false) s := rfl
@[simp] theorem exec_memMarch (target : BitVec 16) (force : Bool) (s : State) :
    exec (.memMarch target force) s = runWrite K.selftestRequest 0 (testRequest T.memMarch target.toNat force) s := rfl
@[simp] theorem exec_linkLoopback (target : BitVec 16) (force : Bool) (s : State) :
    exec (.linkLoopback target force) s = runWrite K.selftestRequest 0 (testRequest T.linkLoopback target.toNat force) s := rfl
@[simp] theorem exec_logicBist (target : BitVec 16) (force : Bool) (s : State) :
    exec (.logicBist target force) s = runWrite K.selftestRequest 0 (testRequest T.logicBist target.toNat force) s := rfl
@[simp] theorem exec_selftestComplete (pass : Bool) (s : State) :
    exec (.selftestComplete pass) s = runCore (selftestCompleteEff pass) s := rfl
@[simp] theorem exec_debugLevelWrite (v : Nat) (s : State) :
    exec (.debugLevelWrite v) s = runWrite K.debugLevel 0 v s := rfl
@[simp] theorem exec_authChallenge (s : State) :
    exec .authChallenge s = runMgmt (fun s => s.serveWaiting.dictServe (readReq K.authChallenge)) s := rfl
@[simp] theorem exec_grantObserve (sigR sigS : BitVec 384) (s : State) :
    exec (.grantObserve sigR sigS) s = runGrant sigR sigS G.observe 0 s := rfl
@[simp] theorem exec_grantOpen (sigR sigS : BitVec 384) (s : State) :
    exec (.grantOpen sigR sigS) s = runGrant sigR sigS G.open_ 0 s := rfl
@[simp] theorem exec_grantSolder (sigR sigS : BitVec 384) (ports : BitVec 16) (s : State) :
    exec (.grantSolder sigR sigS ports) s = runGrant sigR sigS G.solder ports.toNat s := rfl
@[simp] theorem exec_grantDeploy (sigR sigS : BitVec 384) (s : State) :
    exec (.grantDeploy sigR sigS) s = runGrant sigR sigS G.deploy 0 s := rfl
@[simp] theorem exec_grantReturn (sigR sigS : BitVec 384) (s : State) :
    exec (.grantReturn sigR sigS) s = runGrant sigR sigS G.return_ 0 s := rfl
@[simp] theorem exec_lifecycleProvision (key : BitVec 768) (s : State) :
    exec (.lifecycleProvision key) s = runWrite K.lifecycleProvision 0 (firstHigh 96 key.toNat) s := rfl
@[simp] theorem exec_fwLoadData (value : List (BitVec 8)) (s : State) :
    exec (.fwLoadData value) s = runMgmt (fun s =>
      s.serveWaiting.dictServe { writeReq K.fwLoadData 0 0 with length := value.length, value := value }) s := rfl
@[simp] theorem exec_fwLoadGo (s : State) :
    exec .fwLoadGo s = runWrite K.fwLoadGo 0 1 s := rfl
@[simp] theorem exec_fwVerifyComplete (s : State) :
    exec .fwVerifyComplete s = runMgmt fwVerifyCompleteEff s := rfl
@[simp] theorem exec_debugMemRead (s : State) :
    exec .debugMemRead s = runMgmt (fun s => s.serveWaiting.dictServe (readReq K.debugMemData)) s := rfl
@[simp] theorem exec_debugMemWrite (data : BitVec 512) (s : State) :
    exec (.debugMemWrite data) s = runWrite K.debugMemData 0 data.toNat s := rfl
@[simp] theorem exec_counterClear (v : BitVec 32) (s : State) :
    exec (.counterClear v) s = runWrite K.counterClear 0 v.toNat s := rfl
@[simp] theorem exec_counterSumForward (key e : Nat) (s : State) :
    exec (.counterSumForward key e) s = runMgmt (counterForwardEff key e) s := rfl
@[simp] theorem exec_alarmAck (code : Nat) (s : State) :
    exec (.alarmAck code) s = runWrite K.alarmAck 0 code s := rfl
@[simp] theorem exec_alarmMaskWrite (v : BitVec 128) (s : State) :
    exec (.alarmMaskWrite v) s = runWrite K.alarmMask 0 v.toNat s := rfl
@[simp] theorem exec_memTrainingComplete (p : Nat) (s : State) :
    exec (.memTrainingComplete p) s = runPort (s.hasMemory p) (memTrainingCompleteEff p) s := rfl
@[simp] theorem exec_laneChangeAckTimeout (p : Nat) (s : State) :
    exec (.laneChangeAckTimeout p) s = runPort (s.hasLink p) (laneChangeAckTimeoutEff p) s := rfl
@[simp] theorem exec_epResetRelease (p : Nat) (s : State) :
    exec (.epResetRelease p) s = runPort (s.hasEngine p) (epResetReleaseEff p) s := rfl
@[simp] theorem exec_tickOutPulseEnd (s : State) :
    exec .tickOutPulseEnd s = runMgmt (fun s => s.modTick fun t => { t with tickOut := false }) s := rfl
@[simp] theorem exec_clockLowerSettle (s : State) :
    exec .clockLowerSettle s = run clockLowerSettleEff s := rfl
@[simp] theorem exec_selftestDrainTimeout (s : State) :
    exec .selftestDrainTimeout s = runCore selftestDrainTimeoutEff s := rfl
@[simp] theorem exec_authNonceExpiry (s : State) :
    exec .authNonceExpiry s = runMgmt authNonceExpiryEff s := rfl

theorem runPort_present {present : Bool} (h : present = true) (f : State → State) (s : State) :
    runPort present f s = runCore f s := if_pos h

theorem runPort_absent {present : Bool} (h : present = false) (f : State → State) (s : State) :
    runPort present f s = .fault .noSuchPort := by simp [runPort, h]

/-- What the management plane runs while RESET_N is low: nothing. -/
theorem runMgmt_eq (f : State → State) : runMgmt f = run fun s => if s.pins.resetN then f s else s := rfl

/-- What the control and data planes run while they are off: nothing. -/
theorem runCore_eq (f : State → State) : runCore f = run fun s => if s.off then s else f s := rfl

theorem runWrite_eq (key e v : Nat) : runWrite key e v = runMgmt fun s => s.serveWaiting.writeObject key e v := rfl

theorem runGrant_eq (sigR sigS : BitVec 384) (g ports : Nat) :
    runGrant sigR sigS g ports = runMgmt fun s => s.serveWaiting.writeObject K.authResponse 0 (authValue sigR sigS g ports) := rfl

/-- A command completes in a state given in another form. -/
theorem Completes.eq {c : Instr} {s t u : State} (h : Completes c s t) (e : t = u) : Completes c s u := e ▸ h

theorem hasEngine_build {x s : State} (h : x.build = s.build) (p : Nat) : x.hasEngine p = s.hasEngine p := by
  simp [State.hasEngine, h]
theorem hasMemory_build {x s : State} (h : x.build = s.build) (p : Nat) : x.hasMemory p = s.hasMemory p := by
  simp [State.hasMemory, h]
theorem hasLink_build {x s : State} (h : x.build = s.build) (p : Nat) : x.hasLink p = s.hasLink p := by
  simp [State.hasLink, h]

/-- A command of a present engine port, where the planes run, completes with its effect. -/
theorem completes_enginePort {c : Instr} {f : State → State} {s : State} {p : Nat} (hs : s.Running)
    (hp : s.hasEngine p = true) (h : ∀ x : State, exec c x = runPort (x.hasEngine p) f x) : Completes c s (f s) :=
  completes_core hs fun x hx => (h x).trans (runPort_present ((hasEngine_build hx p).trans hp) f x)

/-- A command of a present memory port, where the planes run, completes with its effect. -/
theorem completes_memoryPort {c : Instr} {f : State → State} {s : State} {p : Nat} (hs : s.Running)
    (hp : s.hasMemory p = true) (h : ∀ x : State, exec c x = runPort (x.hasMemory p) f x) : Completes c s (f s) :=
  completes_core hs fun x hx => (h x).trans (runPort_present ((hasMemory_build hx p).trans hp) f x)

/-- A command of a present link port, where the planes run, completes with its effect. -/
theorem completes_linkPort {c : Instr} {f : State → State} {s : State} {p : Nat} (hs : s.Running)
    (hp : s.hasLink p = true) (h : ∀ x : State, exec c x = runPort (x.hasLink p) f x) : Completes c s (f s) :=
  completes_core hs fun x hx => (h x).trans (runPort_present ((hasLink_build hx p).trans hp) f x)

/-- A reader's work that comes upon no block that it must wait for is done. -/
theorem patient_none {who : MemSource} {f : State → State} {s : State} (h : (f (s.asking who)).stripe.stuck = none) :
    s.patient who f = (f (s.asking who)).doneAsking who := by
  unfold State.patient
  dsimp only
  rw [h]

/-- A command for a record serves the record whose turn it is. -/
theorem serveRecord_serves {s : State} {d e : Delivered} (h : s.Serves d e)
    (f : Delivered → State → Option Delivered × State) : s.serveRecord d f = s.serveDelivered e f := by
  unfold State.serveRecord
  rcases h with ⟨n, ⟨h, k⟩ | ⟨h, rfl, k⟩⟩
  · rw [h]; simp [k, n]
  · rw [h]; simp only [k]; simp [n]

/-- A data-plane operation runs on a slot that holds a ready item of it. -/
theorem onItem_works {s : State} {n op : Nat} {f : State → State} (h : s.Works n op f) :
    s.onItem n op f = s.worked n f := by
  unfold State.onItem
  rw [h.2.1, h.2.2.1]
  exact patient_none h.2.2.2

/-- A command that is a data-plane operation completes with the operation's effect. -/
theorem completes_works {c : Instr} {s : State} {n op : Nat} {f : State → State} (hs : s.Works n op f)
    (h : ∀ x : State, exec c x = runCore (fun s => s.onItem n op f) x) : Completes c s (s.worked n f) := by
  have := completes_core hs.1 fun x _ => h x
  rwa [onItem_works hs] at this

/-- A command to a unit or port of the control and data planes runs one effect there. -/
theorem exec_inCore (c : Instr) (s : State) (hc : (planeOf c).inCore = true) (h : (planeOf c).present s = true) :
    ∃ f : State → State, ∀ x : State, x.build = s.build → exec c x = runCore f x :=
  match c with
  | .dictWrite _ _ _ _ _ _ => nomatch hc
  | .mctpMessage _ => nomatch hc
  | .mctpAssemblyTimeout => nomatch hc
  | .setEndpointId _ => nomatch hc
  | .getEndpointId => nomatch hc
  | .getMctpVersionSupport => nomatch hc
  | .getMessageTypeSupport => nomatch hc
  | .getVendorDefinedMessageSupport => nomatch hc
  | .entdaa _ => nomatch hc
  | .setdasa _ _ => nomatch hc
  | .rstdaa => nomatch hc
  | .getpid => nomatch hc
  | .getbcr => nomatch hc
  | .getdcr => nomatch hc
  | .getstatus => nomatch hc
  | .getmwl => nomatch hc
  | .getmrl => nomatch hc
  | .setmwl _ => nomatch hc
  | .setmrl _ => nomatch hc
  | .enec _ => nomatch hc
  | .disec _ => nomatch hc
  | .i3cPrivateRead => nomatch hc
  | .windowGo => nomatch hc
  | .dictRequestComplete => nomatch hc
  | .unitStop _ => nomatch hc
  | .unitStart _ => nomatch hc
  | .unitStopEffect _ => ⟨_, fun x _ => exec_unitStopEffect _ x⟩
  | .tickBoundary => nomatch hc
  | .tickInEdge _ => nomatch hc
  | .tickInHoldover => nomatch hc
  | .tickMark _ _ => ⟨_, fun x hx => (exec_tickMark _ _ x).trans (runPort_present ((hasLink_build hx _).trans h) _ x)⟩
  | .tickMarksMissing => nomatch hc
  | .deadlineExpiry => ⟨_, fun x _ => exec_deadlineExpiry x⟩
  | .delayedReleaseExpiry => ⟨_, fun x _ => exec_delayedReleaseExpiry x⟩
  | .imageLoad => nomatch hc
  | .imageUnload => nomatch hc
  | .imageLoadComplete => ⟨_, fun x _ => exec_imageLoadComplete x⟩
  | .step _ _ => ⟨_, fun x _ => exec_step _ _ x⟩
  | .jobOpen _ _ => ⟨_, fun x _ => exec_jobOpen _ _ x⟩
  | .jobClose _ _ => ⟨_, fun x _ => exec_jobClose _ _ x⟩
  | .jobCloseEffect _ => ⟨_, fun x _ => exec_jobCloseEffect _ x⟩
  | .join _ _ => ⟨_, fun x _ => exec_join _ _ x⟩
  | .leave _ _ => ⟨_, fun x _ => exec_leave _ _ x⟩
  | .doorbellDataWord _ _ => ⟨_, fun x _ => exec_doorbellDataWord _ _ x⟩
  | .windowReserve => ⟨_, fun x _ => exec_windowReserve x⟩
  | .templateInstantiate _ => ⟨_, fun x _ => exec_templateInstantiate _ x⟩
  | .tokenMatch _ => ⟨_, fun x _ => exec_tokenMatch _ x⟩
  | .holdLift _ => ⟨_, fun x _ => exec_holdLift _ x⟩
  | .nullTaskResolve _ => ⟨_, fun x _ => exec_nullTaskResolve _ x⟩
  | .taskSkip _ => ⟨_, fun x _ => exec_taskSkip _ x⟩
  | .dispatch _ => ⟨_, fun x _ => exec_dispatch _ x⟩
  | .tokenForm => ⟨_, fun x _ => exec_tokenForm x⟩
  | .completionRecord _ _ => ⟨_, fun x hx => (exec_completionRecord _ _ x).trans (runPort_present ((hasEngine_build hx _).trans h) _ x)⟩
  | .writeFenceClear _ => ⟨_, fun x hx => (exec_writeFenceClear _ x).trans (runPort_present ((hasEngine_build hx _).trans h) _ x)⟩
  | .yieldRecord _ _ => ⟨_, fun x hx => (exec_yieldRecord _ _ x).trans (runPort_present ((hasEngine_build hx _).trans h) _ x)⟩
  | .yieldBoundExpiry _ => ⟨_, fun x hx => (exec_yieldBoundExpiry _ x).trans (runPort_present ((hasEngine_build hx _).trans h) _ x)⟩
  | .enginePortRestore _ => nomatch hc
  | .enginePortConfigWrite _ _ => nomatch hc
  | .epReadyRise _ => ⟨_, fun x hx => (exec_epReadyRise _ x).trans (runPort_present ((hasEngine_build hx _).trans h) _ x)⟩
  | .epReadyFall _ => ⟨_, fun x hx => (exec_epReadyFall _ x).trans (runPort_present ((hasEngine_build hx _).trans h) _ x)⟩
  | .readApertureRead _ => ⟨_, fun x _ => exec_readApertureRead _ x⟩
  | .apertureBind _ _ _ => nomatch hc
  | .queueEnable _ => nomatch hc
  | .queueDisable _ => nomatch hc
  | .queueFlush _ => nomatch hc
  | .queueFlushEffect _ => ⟨_, fun x _ => exec_queueFlushEffect _ x⟩
  | .queueConfigWrite _ _ => nomatch hc
  | .qEnqueue _ => ⟨_, fun x _ => exec_qEnqueue _ x⟩
  | .qDequeue _ => ⟨_, fun x _ => exec_qDequeue _ x⟩
  | .queueProducerResume _ => ⟨_, fun x _ => exec_queueProducerResume _ x⟩
  | .resultRelease _ => ⟨_, fun x _ => exec_resultRelease _ x⟩
  | .signal _ _ => ⟨_, fun x _ => exec_signal _ _ x⟩
  | .arrive _ _ => ⟨_, fun x _ => exec_arrive _ _ x⟩
  | .heldSignalApply => ⟨_, fun x _ => exec_heldSignalApply x⟩
  | .signalOpen _ => nomatch hc
  | .signalClose => nomatch hc
  | .sigWait _ => ⟨_, fun x _ => exec_sigWait _ x⟩
  | .barrierArrive _ => ⟨_, fun x _ => exec_barrierArrive _ x⟩
  | .sigPost _ => ⟨_, fun x _ => exec_sigPost _ x⟩
  | .waitResolve _ => ⟨_, fun x _ => exec_waitResolve _ x⟩
  | .preemptRequest _ => ⟨_, fun x hx => (exec_preemptRequest _ x).trans (runPort_present ((hasEngine_build hx _).trans h) _ x)⟩
  | .spillEnd _ => ⟨_, fun x hx => (exec_spillEnd _ x).trans (runPort_present ((hasEngine_build hx _).trans h) _ x)⟩
  | .restoreIssue _ => ⟨_, fun x hx => (exec_restoreIssue _ x).trans (runPort_present ((hasEngine_build hx _).trans h) _ x)⟩
  | .switchIncomingIssue _ => ⟨_, fun x hx => (exec_switchIncomingIssue _ x).trans (runPort_present ((hasEngine_build hx _).trans h) _ x)⟩
  | .dmaCopy _ => ⟨_, fun x _ => exec_dmaCopy _ x⟩
  | .dmaFill _ => ⟨_, fun x _ => exec_dmaFill _ x⟩
  | .tableOpen => nomatch hc
  | .tableClose => nomatch hc
  | .embGather _ => ⟨_, fun x _ => exec_embGather _ x⟩
  | .embPool _ => ⟨_, fun x _ => exec_embPool _ x⟩
  | .embScore _ => ⟨_, fun x _ => exec_embScore _ x⟩
  | .exchangePoint => ⟨_, fun x _ => exec_exchangePoint x⟩
  | .poolReq _ _ _ => ⟨_, fun x _ => exec_poolReq _ _ _ x⟩
  | .scoreReq _ _ _ => ⟨_, fun x _ => exec_scoreReq _ _ _ x⟩
  | .poolReply _ _ _ => ⟨_, fun x _ => exec_poolReply _ _ _ x⟩
  | .scoreReply _ _ _ => ⟨_, fun x _ => exec_scoreReply _ _ _ x⟩
  | .remoteTimeout _ => ⟨_, fun x _ => exec_remoteTimeout _ x⟩
  | .embUpdate _ => ⟨_, fun x _ => exec_embUpdate _ x⟩
  | .updatePublish _ => ⟨_, fun x _ => exec_updatePublish _ x⟩
  | .foldStart _ => ⟨_, fun x _ => exec_foldStart _ x⟩
  | .foldCopyComplete _ => ⟨_, fun x _ => exec_foldCopyComplete _ x⟩
  | .migrationCopyComplete _ _ => ⟨_, fun x _ => exec_migrationCopyComplete _ _ x⟩
  | .hotRowDemotion _ => ⟨_, fun x _ => exec_hotRowDemotion _ x⟩
  | .replica _ _ _ => ⟨_, fun x _ => exec_replica _ _ _ x⟩
  | .lease _ _ => ⟨_, fun x _ => exec_lease _ _ x⟩
  | .drop _ _ => ⟨_, fun x _ => exec_drop _ _ x⟩
  | .voxporSwap _ => nomatch hc
  | .voxporScanComplete _ => ⟨_, fun x _ => exec_voxporScanComplete _ x⟩
  | .tableDigestScanComplete _ => ⟨_, fun x _ => exec_tableDigestScanComplete _ x⟩
  | .expSelect _ => ⟨_, fun x _ => exec_expSelect _ x⟩
  | .expSend _ => ⟨_, fun x _ => exec_expSend _ x⟩
  | .exchangeOpen _ => ⟨_, fun x _ => exec_exchangeOpen _ x⟩
  | .expReturn _ => ⟨_, fun x _ => exec_expReturn _ x⟩
  | .expRecv _ => ⟨_, fun x _ => exec_expRecv _ x⟩
  | .expCollect _ => ⟨_, fun x _ => exec_expCollect _ x⟩
  | .sendCount _ _ _ => ⟨_, fun x _ => exec_sendCount _ _ _ x⟩
  | .sendRow _ _ _ => ⟨_, fun x _ => exec_sendRow _ _ _ x⟩
  | .returnCount _ _ _ => ⟨_, fun x _ => exec_returnCount _ _ _ x⟩
  | .returnRow _ _ _ => ⟨_, fun x _ => exec_returnRow _ _ _ x⟩
  | .exchangeTimeout _ => ⟨_, fun x _ => exec_exchangeTimeout _ x⟩
  | .engineReadRequest _ _ _ _ => ⟨_, fun x hx => (exec_engineReadRequest _ _ _ _ x).trans (runPort_present ((hasEngine_build hx _).trans h) _ x)⟩
  | .engineWriteBeat _ _ => ⟨_, fun x hx => (exec_engineWriteBeat _ _ x).trans (runPort_present ((hasEngine_build hx _).trans h) _ x)⟩
  | .hostDmaRead _ _ _ => ⟨_, fun x _ => exec_hostDmaRead _ _ _ x⟩
  | .hostDmaWrite _ _ _ _ => ⟨_, fun x _ => exec_hostDmaWrite _ _ _ _ x⟩
  | .controlRequest _ _ _ _ => nomatch hc
  | .memReadResponse _ _ _ _ => ⟨_, fun x hx => (exec_memReadResponse _ _ _ _ x).trans (runPort_present ((hasMemory_build hx _).trans h) _ x)⟩
  | .memWriteResponse _ _ => ⟨_, fun x hx => (exec_memWriteResponse _ _ x).trans (runPort_present ((hasMemory_build hx _).trans h) _ x)⟩
  | .repairResponse _ _ => ⟨_, fun x hx => (exec_repairResponse _ _ x).trans (runPort_present ((hasMemory_build hx _).trans h) _ x)⟩
  | .memTimeout _ _ => ⟨_, fun x hx => (exec_memTimeout _ _ x).trans (runPort_present ((hasMemory_build hx _).trans h) _ x)⟩
  | .reconstructTimeout _ => ⟨_, fun x _ => exec_reconstructTimeout _ x⟩
  | .portOfflineRise _ => ⟨_, fun x hx => (exec_portOfflineRise _ x).trans (runPort_present ((hasMemory_build hx _).trans h) _ x)⟩
  | .portOfflineGrant _ => ⟨_, fun x hx => (exec_portOfflineGrant _ x).trans (runPort_present ((hasMemory_build hx _).trans h) _ x)⟩
  | .drainComplete _ => ⟨_, fun x hx => (exec_drainComplete _ x).trans (runPort_present ((hasMemory_build hx _).trans h) _ x)⟩
  | .portOfflineFall _ _ => ⟨_, fun x hx => (exec_portOfflineFall _ _ x).trans (runPort_present ((hasMemory_build hx _).trans h) _ x)⟩
  | .offlineRetrain _ => nomatch hc
  | .offlineReplace _ => nomatch hc
  | .restore _ _ => nomatch hc
  | .rebuildChunkComplete _ => ⟨_, fun x hx => (exec_rebuildChunkComplete _ x).trans (runPort_present ((hasMemory_build hx _).trans h) _ x)⟩
  | .pageRestoreComplete _ _ => ⟨_, fun x hx => (exec_pageRestoreComplete _ _ x).trans (runPort_present ((hasMemory_build hx _).trans h) _ x)⟩
  | .scrubRow _ _ => ⟨_, fun x _ => exec_scrubRow _ _ x⟩
  | .memWipeChunk _ _ => ⟨_, fun x hx => (exec_memWipeChunk _ _ x).trans (runPort_present ((hasMemory_build hx _).trans h) _ x)⟩
  | .laneSignalLoss _ _ => ⟨_, fun x hx => (exec_laneSignalLoss _ _ x).trans (runPort_present ((hasLink_build hx _).trans h) _ x)⟩
  | .laneChangeSwitch _ => ⟨_, fun x hx => (exec_laneChangeSwitch _ x).trans (runPort_present ((hasLink_build hx _).trans h) _ x)⟩
  | .controlFlit _ _ => ⟨_, fun x hx => (exec_controlFlit _ _ x).trans (runPort_present ((hasLink_build hx _).trans h) _ x)⟩
  | .dataFlit _ _ _ => ⟨_, fun x hx => (exec_dataFlit _ _ _ x).trans (runPort_present ((hasLink_build hx _).trans h) _ x)⟩
  | .flitTransmit _ => ⟨_, fun x hx => (exec_flitTransmit _ x).trans (runPort_present ((hasLink_build hx _).trans h) _ x)⟩
  | .controlFlitPeriod _ => ⟨_, fun x hx => (exec_controlFlitPeriod _ x).trans (runPort_present ((hasLink_build hx _).trans h) _ x)⟩
  | .linkReplayTimeout _ _ => ⟨_, fun x hx => (exec_linkReplayTimeout _ _ x).trans (runPort_present ((hasLink_build hx _).trans h) _ x)⟩
  | .linkDeadTimeout _ => ⟨_, fun x hx => (exec_linkDeadTimeout _ x).trans (runPort_present ((hasLink_build hx _).trans h) _ x)⟩
  | .trainingLock _ => ⟨_, fun x hx => (exec_trainingLock _ x).trans (runPort_present ((hasLink_build hx _).trans h) _ x)⟩
  | .trainingTimeout _ => ⟨_, fun x hx => (exec_trainingTimeout _ x).trans (runPort_present ((hasLink_build hx _).trans h) _ x)⟩
  | .identityBlock _ _ _ => ⟨_, fun x hx => (exec_identityBlock _ _ _ x).trans (runPort_present ((hasLink_build hx _).trans h) _ x)⟩
  | .downRetrain _ => ⟨_, fun x hx => (exec_downRetrain _ x).trans (runPort_present ((hasLink_build hx _).trans h) _ x)⟩
  | .refusedRetry _ => ⟨_, fun x hx => (exec_refusedRetry _ x).trans (runPort_present ((hasLink_build hx _).trans h) _ x)⟩
  | .linkEnableWrite _ => nomatch hc
  | .write _ _ _ => ⟨_, fun x _ => exec_write _ _ _ x⟩
  | .queue _ _ _ => ⟨_, fun x _ => exec_queue _ _ _ x⟩
  | .start _ _ => ⟨_, fun x hx => (exec_start _ _ x).trans (runPort_present ((hasLink_build hx _).trans h) _ x)⟩
  | .startBarrierGo _ => nomatch hc
  | .startTimeElapsed => nomatch hc
  | .solderArm _ => nomatch hc
  | .rngProbeIn _ => nomatch hc
  | .digest _ => ⟨_, fun x _ => exec_digest _ x⟩
  | .replayControlWrite _ => nomatch hc
  | .logConsumedWrite _ => nomatch hc
  | .taskWatchdogExpiry _ => ⟨_, fun x hx => (exec_taskWatchdogExpiry _ x).trans (runPort_present ((hasEngine_build hx _).trans h) _ x)⟩
  | .dataTaskWatchdogExpiry _ => ⟨_, fun x _ => exec_dataTaskWatchdogExpiry _ x⟩
  | .dataUnitStall _ => ⟨_, fun x _ => exec_dataUnitStall _ x⟩
  | .dispatchStall _ => ⟨_, fun x _ => exec_dispatchStall _ x⟩
  | .noEngine _ => ⟨_, fun x _ => exec_noEngine _ x⟩
  | .mcWatchdogExpiry => nomatch hc
  | .mcRestartComplete => nomatch hc
  | .mcHeartbeat _ => nomatch hc
  | .resetRequestL0 _ => nomatch hc
  | .resetRequestL1 _ => nomatch hc
  | .resetRequestL2 _ => nomatch hc
  | .resetRequestL3 => nomatch hc
  | .resetRequestL4 => nomatch hc
  | .resetRequestL5 => nomatch hc
  | .l0DrainEnd _ => ⟨_, fun x _ => exec_l0DrainEnd _ x⟩
  | .cleanupWalksComplete _ => ⟨_, fun x _ => exec_cleanupWalksComplete _ x⟩
  | .cleanupOverrun _ => ⟨_, fun x _ => exec_cleanupOverrun _ x⟩
  | .engineResetTimeout _ => ⟨_, fun x hx => (exec_engineResetTimeout _ x).trans (runPort_present ((hasEngine_build hx _).trans h) _ x)⟩
  | .levelTimeout => nomatch hc
  | .resetLevelComplete => nomatch hc
  | .nightRelease => nomatch hc
  | .dumpRequest => nomatch hc
  | .dumpComplete _ => nomatch hc
  | .dumpAck => nomatch hc
  | .memZeroFill _ => nomatch hc
  | .memZeroFillComplete => ⟨_, fun x _ => exec_memZeroFillComplete x⟩
  | .sramBankRotation _ _ => ⟨_, fun x _ => exec_sramBankRotation _ _ x⟩
  | .sramUncorrectable _ => nomatch hc
  | .resetNAssert => nomatch hc
  | .resetNRelease => nomatch hc
  | .corePwrGoodFall => nomatch hc
  | .corePwrGoodRise => nomatch hc
  | .startGo => nomatch hc
  | .morningBegin => ⟨_, fun x _ => exec_morningBegin x⟩
  | .noonLimit => ⟨_, fun x _ => exec_noonLimit x⟩
  | .thermalSample _ => nomatch hc
  | .throttleStep _ => nomatch hc
  | .clockRange _ _ => nomatch hc
  | .voltageRange _ _ => nomatch hc
  | .powerRequestP0 => nomatch hc
  | .powerRequestP1 => nomatch hc
  | .powerRequestP2 => nomatch hc
  | .powerRequestP3 => nomatch hc
  | .powerDrainComplete => ⟨_, fun x _ => exec_powerDrainComplete x⟩
  | .p2DrainTimeout => ⟨_, fun x _ => exec_p2DrainTimeout x⟩
  | .selfRefreshAck _ _ => ⟨_, fun x hx => (exec_selfRefreshAck _ _ x).trans (runPort_present ((hasMemory_build hx _).trans h) _ x)⟩
  | .sramBist _ => nomatch hc
  | .laneCal _ => nomatch hc
  | .memRetrain _ => nomatch hc
  | .memMarch _ _ => nomatch hc
  | .linkLoopback _ _ => nomatch hc
  | .logicBist _ _ => nomatch hc
  | .selftestComplete _ => ⟨_, fun x _ => exec_selftestComplete _ x⟩
  | .debugLevelWrite _ => nomatch hc
  | .authChallenge => nomatch hc
  | .grantObserve _ _ => nomatch hc
  | .grantOpen _ _ => nomatch hc
  | .grantSolder _ _ _ => nomatch hc
  | .grantDeploy _ _ => nomatch hc
  | .grantReturn _ _ => nomatch hc
  | .lifecycleProvision _ => nomatch hc
  | .fwLoadData _ => nomatch hc
  | .fwLoadGo => nomatch hc
  | .fwVerifyComplete => nomatch hc
  | .debugMemRead => nomatch hc
  | .debugMemWrite _ => nomatch hc
  | .counterClear _ => nomatch hc
  | .counterSumForward _ _ => nomatch hc
  | .alarmAck _ => nomatch hc
  | .alarmMaskWrite _ => nomatch hc
  | .memTrainingComplete _ => ⟨_, fun x hx => (exec_memTrainingComplete _ x).trans (runPort_present ((hasMemory_build hx _).trans h) _ x)⟩
  | .laneChangeAckTimeout _ => ⟨_, fun x hx => (exec_laneChangeAckTimeout _ x).trans (runPort_present ((hasLink_build hx _).trans h) _ x)⟩
  | .epResetRelease _ => ⟨_, fun x hx => (exec_epResetRelease _ x).trans (runPort_present ((hasEngine_build hx _).trans h) _ x)⟩
  | .tickOutPulseEnd => nomatch hc
  | .clockLowerSettle => nomatch hc
  | .selftestDrainTimeout => ⟨_, fun x _ => exec_selftestDrainTimeout x⟩
  | .authNonceExpiry => nomatch hc

/-- A command to the management plane runs one effect there. -/
theorem exec_management (c : Instr) (hc : planeOf c = .management) :
    ∃ f : State → State, ∀ x : State, exec c x = runMgmt f x :=
  match c with
  | .dictWrite _ _ _ _ _ _ => ⟨_, fun x => exec_dictWrite _ _ _ _ _ _ x⟩
  | .mctpMessage _ => ⟨_, fun x => exec_mctpMessage _ x⟩
  | .mctpAssemblyTimeout => ⟨_, fun x => exec_mctpAssemblyTimeout x⟩
  | .setEndpointId _ => ⟨_, fun x => exec_setEndpointId _ x⟩
  | .getEndpointId => ⟨_, fun x => exec_getEndpointId x⟩
  | .getMctpVersionSupport => ⟨_, fun x => exec_getMctpVersionSupport x⟩
  | .getMessageTypeSupport => ⟨_, fun x => exec_getMessageTypeSupport x⟩
  | .getVendorDefinedMessageSupport => ⟨_, fun x => exec_getVendorDefinedMessageSupport x⟩
  | .entdaa _ => ⟨_, fun x => exec_entdaa _ x⟩
  | .setdasa _ _ => ⟨_, fun x => exec_setdasa _ _ x⟩
  | .rstdaa => ⟨_, fun x => exec_rstdaa x⟩
  | .getpid => ⟨_, fun x => exec_getpid x⟩
  | .getbcr => ⟨_, fun x => exec_getbcr x⟩
  | .getdcr => ⟨_, fun x => exec_getdcr x⟩
  | .getstatus => ⟨_, fun x => exec_getstatus x⟩
  | .getmwl => ⟨_, fun x => exec_getmwl x⟩
  | .getmrl => ⟨_, fun x => exec_getmrl x⟩
  | .setmwl _ => ⟨_, fun x => exec_setmwl _ x⟩
  | .setmrl _ => ⟨_, fun x => exec_setmrl _ x⟩
  | .enec _ => ⟨_, fun x => exec_enec _ x⟩
  | .disec _ => ⟨_, fun x => exec_disec _ x⟩
  | .i3cPrivateRead => ⟨_, fun x => exec_i3cPrivateRead x⟩
  | .windowGo => ⟨_, fun x => exec_windowGo x⟩
  | .dictRequestComplete => ⟨_, fun x => exec_dictRequestComplete x⟩
  | .unitStop _ => ⟨_, fun x => (exec_unitStop _ x).trans (congrFun (runWrite_eq ..) x)⟩
  | .unitStart _ => ⟨_, fun x => (exec_unitStart _ x).trans (congrFun (runWrite_eq ..) x)⟩
  | .unitStopEffect _ => nomatch hc
  | .tickBoundary => ⟨_, fun x => exec_tickBoundary x⟩
  | .tickInEdge _ => ⟨_, fun x => exec_tickInEdge _ x⟩
  | .tickInHoldover => ⟨_, fun x => exec_tickInHoldover x⟩
  | .tickMark _ _ => nomatch hc
  | .tickMarksMissing => ⟨_, fun x => exec_tickMarksMissing x⟩
  | .deadlineExpiry => nomatch hc
  | .delayedReleaseExpiry => nomatch hc
  | .imageLoad => ⟨_, fun x => (exec_imageLoad x).trans (congrFun (runWrite_eq ..) x)⟩
  | .imageUnload => ⟨_, fun x => (exec_imageUnload x).trans (congrFun (runWrite_eq ..) x)⟩
  | .imageLoadComplete => nomatch hc
  | .step _ _ => nomatch hc
  | .jobOpen _ _ => nomatch hc
  | .jobClose _ _ => nomatch hc
  | .jobCloseEffect _ => nomatch hc
  | .join _ _ => nomatch hc
  | .leave _ _ => nomatch hc
  | .doorbellDataWord _ _ => nomatch hc
  | .windowReserve => nomatch hc
  | .templateInstantiate _ => nomatch hc
  | .tokenMatch _ => nomatch hc
  | .holdLift _ => nomatch hc
  | .nullTaskResolve _ => nomatch hc
  | .taskSkip _ => nomatch hc
  | .dispatch _ => nomatch hc
  | .tokenForm => nomatch hc
  | .completionRecord _ _ => nomatch hc
  | .writeFenceClear _ => nomatch hc
  | .yieldRecord _ _ => nomatch hc
  | .yieldBoundExpiry _ => nomatch hc
  | .enginePortRestore _ => ⟨_, fun x => (exec_enginePortRestore _ x).trans (congrFun (runWrite_eq ..) x)⟩
  | .enginePortConfigWrite _ _ => ⟨_, fun x => (exec_enginePortConfigWrite _ _ x).trans (congrFun (runWrite_eq ..) x)⟩
  | .epReadyRise _ => nomatch hc
  | .epReadyFall _ => nomatch hc
  | .readApertureRead _ => nomatch hc
  | .apertureBind _ _ _ => ⟨_, fun x => (exec_apertureBind _ _ _ x).trans (congrFun (runWrite_eq ..) x)⟩
  | .queueEnable _ => ⟨_, fun x => (exec_queueEnable _ x).trans (congrFun (runWrite_eq ..) x)⟩
  | .queueDisable _ => ⟨_, fun x => (exec_queueDisable _ x).trans (congrFun (runWrite_eq ..) x)⟩
  | .queueFlush _ => ⟨_, fun x => (exec_queueFlush _ x).trans (congrFun (runWrite_eq ..) x)⟩
  | .queueFlushEffect _ => nomatch hc
  | .queueConfigWrite _ _ => ⟨_, fun x => (exec_queueConfigWrite _ _ x).trans (congrFun (runWrite_eq ..) x)⟩
  | .qEnqueue _ => nomatch hc
  | .qDequeue _ => nomatch hc
  | .queueProducerResume _ => nomatch hc
  | .resultRelease _ => nomatch hc
  | .signal _ _ => nomatch hc
  | .arrive _ _ => nomatch hc
  | .heldSignalApply => nomatch hc
  | .signalOpen _ => ⟨_, fun x => (exec_signalOpen _ x).trans (congrFun (runWrite_eq ..) x)⟩
  | .signalClose => ⟨_, fun x => (exec_signalClose x).trans (congrFun (runWrite_eq ..) x)⟩
  | .sigWait _ => nomatch hc
  | .barrierArrive _ => nomatch hc
  | .sigPost _ => nomatch hc
  | .waitResolve _ => nomatch hc
  | .preemptRequest _ => nomatch hc
  | .spillEnd _ => nomatch hc
  | .restoreIssue _ => nomatch hc
  | .switchIncomingIssue _ => nomatch hc
  | .dmaCopy _ => nomatch hc
  | .dmaFill _ => nomatch hc
  | .tableOpen => ⟨_, fun x => (exec_tableOpen x).trans (congrFun (runWrite_eq ..) x)⟩
  | .tableClose => ⟨_, fun x => (exec_tableClose x).trans (congrFun (runWrite_eq ..) x)⟩
  | .embGather _ => nomatch hc
  | .embPool _ => nomatch hc
  | .embScore _ => nomatch hc
  | .exchangePoint => nomatch hc
  | .poolReq _ _ _ => nomatch hc
  | .scoreReq _ _ _ => nomatch hc
  | .poolReply _ _ _ => nomatch hc
  | .scoreReply _ _ _ => nomatch hc
  | .remoteTimeout _ => nomatch hc
  | .embUpdate _ => nomatch hc
  | .updatePublish _ => nomatch hc
  | .foldStart _ => nomatch hc
  | .foldCopyComplete _ => nomatch hc
  | .migrationCopyComplete _ _ => nomatch hc
  | .hotRowDemotion _ => nomatch hc
  | .replica _ _ _ => nomatch hc
  | .lease _ _ => nomatch hc
  | .drop _ _ => nomatch hc
  | .voxporSwap _ => ⟨_, fun x => (exec_voxporSwap _ x).trans (congrFun (runWrite_eq ..) x)⟩
  | .voxporScanComplete _ => nomatch hc
  | .tableDigestScanComplete _ => nomatch hc
  | .expSelect _ => nomatch hc
  | .expSend _ => nomatch hc
  | .exchangeOpen _ => nomatch hc
  | .expReturn _ => nomatch hc
  | .expRecv _ => nomatch hc
  | .expCollect _ => nomatch hc
  | .sendCount _ _ _ => nomatch hc
  | .sendRow _ _ _ => nomatch hc
  | .returnCount _ _ _ => nomatch hc
  | .returnRow _ _ _ => nomatch hc
  | .exchangeTimeout _ => nomatch hc
  | .engineReadRequest _ _ _ _ => nomatch hc
  | .engineWriteBeat _ _ => nomatch hc
  | .hostDmaRead _ _ _ => nomatch hc
  | .hostDmaWrite _ _ _ _ => nomatch hc
  | .controlRequest _ _ _ _ => ⟨_, fun x => exec_controlRequest _ _ _ _ x⟩
  | .memReadResponse _ _ _ _ => nomatch hc
  | .memWriteResponse _ _ => nomatch hc
  | .repairResponse _ _ => nomatch hc
  | .memTimeout _ _ => nomatch hc
  | .reconstructTimeout _ => nomatch hc
  | .portOfflineRise _ => nomatch hc
  | .portOfflineGrant _ => nomatch hc
  | .drainComplete _ => nomatch hc
  | .portOfflineFall _ _ => nomatch hc
  | .offlineRetrain _ => ⟨_, fun x => (exec_offlineRetrain _ x).trans (congrFun (runWrite_eq ..) x)⟩
  | .offlineReplace _ => ⟨_, fun x => (exec_offlineReplace _ x).trans (congrFun (runWrite_eq ..) x)⟩
  | .restore _ _ => ⟨_, fun x => exec_restore _ _ x⟩
  | .rebuildChunkComplete _ => nomatch hc
  | .pageRestoreComplete _ _ => nomatch hc
  | .scrubRow _ _ => nomatch hc
  | .memWipeChunk _ _ => nomatch hc
  | .laneSignalLoss _ _ => nomatch hc
  | .laneChangeSwitch _ => nomatch hc
  | .controlFlit _ _ => nomatch hc
  | .dataFlit _ _ _ => nomatch hc
  | .flitTransmit _ => nomatch hc
  | .controlFlitPeriod _ => nomatch hc
  | .linkReplayTimeout _ _ => nomatch hc
  | .linkDeadTimeout _ => nomatch hc
  | .trainingLock _ => nomatch hc
  | .trainingTimeout _ => nomatch hc
  | .identityBlock _ _ _ => nomatch hc
  | .downRetrain _ => nomatch hc
  | .refusedRetry _ => nomatch hc
  | .linkEnableWrite _ => ⟨_, fun x => (exec_linkEnableWrite _ x).trans (congrFun (runWrite_eq ..) x)⟩
  | .write _ _ _ => nomatch hc
  | .queue _ _ _ => nomatch hc
  | .start _ _ => nomatch hc
  | .startBarrierGo _ => ⟨_, fun x => (exec_startBarrierGo _ x).trans (congrFun (runWrite_eq ..) x)⟩
  | .startTimeElapsed => ⟨_, fun x => exec_startTimeElapsed x⟩
  | .solderArm _ => ⟨_, fun x => (exec_solderArm _ x).trans (congrFun (runWrite_eq ..) x)⟩
  | .rngProbeIn _ => ⟨_, fun x => (exec_rngProbeIn _ x).trans (congrFun (runWrite_eq ..) x)⟩
  | .digest _ => nomatch hc
  | .replayControlWrite _ => ⟨_, fun x => (exec_replayControlWrite _ x).trans (congrFun (runWrite_eq ..) x)⟩
  | .logConsumedWrite _ => ⟨_, fun x => (exec_logConsumedWrite _ x).trans (congrFun (runWrite_eq ..) x)⟩
  | .taskWatchdogExpiry _ => nomatch hc
  | .dataTaskWatchdogExpiry _ => nomatch hc
  | .dataUnitStall _ => nomatch hc
  | .dispatchStall _ => nomatch hc
  | .noEngine _ => nomatch hc
  | .mcWatchdogExpiry => ⟨_, fun x => exec_mcWatchdogExpiry x⟩
  | .mcRestartComplete => ⟨_, fun x => exec_mcRestartComplete x⟩
  | .mcHeartbeat _ => ⟨_, fun x => (exec_mcHeartbeat _ x).trans (congrFun (runWrite_eq ..) x)⟩
  | .resetRequestL0 _ => ⟨_, fun x => (exec_resetRequestL0 _ x).trans (congrFun (runWrite_eq ..) x)⟩
  | .resetRequestL1 _ => ⟨_, fun x => (exec_resetRequestL1 _ x).trans (congrFun (runWrite_eq ..) x)⟩
  | .resetRequestL2 _ => ⟨_, fun x => (exec_resetRequestL2 _ x).trans (congrFun (runWrite_eq ..) x)⟩
  | .resetRequestL3 => ⟨_, fun x => (exec_resetRequestL3 x).trans (congrFun (runWrite_eq ..) x)⟩
  | .resetRequestL4 => ⟨_, fun x => (exec_resetRequestL4 x).trans (congrFun (runWrite_eq ..) x)⟩
  | .resetRequestL5 => ⟨_, fun x => (exec_resetRequestL5 x).trans (congrFun (runWrite_eq ..) x)⟩
  | .l0DrainEnd _ => nomatch hc
  | .cleanupWalksComplete _ => nomatch hc
  | .cleanupOverrun _ => nomatch hc
  | .engineResetTimeout _ => nomatch hc
  | .levelTimeout => nomatch hc
  | .resetLevelComplete => nomatch hc
  | .nightRelease => ⟨_, fun x => (exec_nightRelease x).trans (congrFun (runWrite_eq ..) x)⟩
  | .dumpRequest => ⟨_, fun x => (exec_dumpRequest x).trans (congrFun (runWrite_eq ..) x)⟩
  | .dumpComplete _ => ⟨_, fun x => exec_dumpComplete _ x⟩
  | .dumpAck => ⟨_, fun x => (exec_dumpAck x).trans (congrFun (runWrite_eq ..) x)⟩
  | .memZeroFill _ => ⟨_, fun x => (exec_memZeroFill _ x).trans (congrFun (runWrite_eq ..) x)⟩
  | .memZeroFillComplete => nomatch hc
  | .sramBankRotation _ _ => nomatch hc
  | .sramUncorrectable _ => ⟨_, fun x => exec_sramUncorrectable _ x⟩
  | .resetNAssert => nomatch hc
  | .resetNRelease => nomatch hc
  | .corePwrGoodFall => nomatch hc
  | .corePwrGoodRise => nomatch hc
  | .startGo => ⟨_, fun x => (exec_startGo x).trans (congrFun (runWrite_eq ..) x)⟩
  | .morningBegin => nomatch hc
  | .noonLimit => nomatch hc
  | .thermalSample _ => ⟨_, fun x => exec_thermalSample _ x⟩
  | .throttleStep _ => ⟨_, fun x => exec_throttleStep _ x⟩
  | .clockRange _ _ => ⟨_, fun x => exec_clockRange _ _ x⟩
  | .voltageRange _ _ => ⟨_, fun x => exec_voltageRange _ _ x⟩
  | .powerRequestP0 => ⟨_, fun x => (exec_powerRequestP0 x).trans (congrFun (runWrite_eq ..) x)⟩
  | .powerRequestP1 => ⟨_, fun x => (exec_powerRequestP1 x).trans (congrFun (runWrite_eq ..) x)⟩
  | .powerRequestP2 => ⟨_, fun x => (exec_powerRequestP2 x).trans (congrFun (runWrite_eq ..) x)⟩
  | .powerRequestP3 => ⟨_, fun x => (exec_powerRequestP3 x).trans (congrFun (runWrite_eq ..) x)⟩
  | .powerDrainComplete => nomatch hc
  | .p2DrainTimeout => nomatch hc
  | .selfRefreshAck _ _ => nomatch hc
  | .sramBist _ => ⟨_, fun x => (exec_sramBist _ x).trans (congrFun (runWrite_eq ..) x)⟩
  | .laneCal _ => ⟨_, fun x => (exec_laneCal _ x).trans (congrFun (runWrite_eq ..) x)⟩
  | .memRetrain _ => ⟨_, fun x => (exec_memRetrain _ x).trans (congrFun (runWrite_eq ..) x)⟩
  | .memMarch _ _ => ⟨_, fun x => (exec_memMarch _ _ x).trans (congrFun (runWrite_eq ..) x)⟩
  | .linkLoopback _ _ => ⟨_, fun x => (exec_linkLoopback _ _ x).trans (congrFun (runWrite_eq ..) x)⟩
  | .logicBist _ _ => ⟨_, fun x => (exec_logicBist _ _ x).trans (congrFun (runWrite_eq ..) x)⟩
  | .selftestComplete _ => nomatch hc
  | .debugLevelWrite _ => ⟨_, fun x => (exec_debugLevelWrite _ x).trans (congrFun (runWrite_eq ..) x)⟩
  | .authChallenge => ⟨_, fun x => exec_authChallenge x⟩
  | .grantObserve _ _ => ⟨_, fun x => (exec_grantObserve _ _ x).trans (congrFun (runGrant_eq ..) x)⟩
  | .grantOpen _ _ => ⟨_, fun x => (exec_grantOpen _ _ x).trans (congrFun (runGrant_eq ..) x)⟩
  | .grantSolder _ _ _ => ⟨_, fun x => (exec_grantSolder _ _ _ x).trans (congrFun (runGrant_eq ..) x)⟩
  | .grantDeploy _ _ => ⟨_, fun x => (exec_grantDeploy _ _ x).trans (congrFun (runGrant_eq ..) x)⟩
  | .grantReturn _ _ => ⟨_, fun x => (exec_grantReturn _ _ x).trans (congrFun (runGrant_eq ..) x)⟩
  | .lifecycleProvision _ => ⟨_, fun x => (exec_lifecycleProvision _ x).trans (congrFun (runWrite_eq ..) x)⟩
  | .fwLoadData _ => ⟨_, fun x => exec_fwLoadData _ x⟩
  | .fwLoadGo => ⟨_, fun x => (exec_fwLoadGo x).trans (congrFun (runWrite_eq ..) x)⟩
  | .fwVerifyComplete => ⟨_, fun x => exec_fwVerifyComplete x⟩
  | .debugMemRead => ⟨_, fun x => exec_debugMemRead x⟩
  | .debugMemWrite _ => ⟨_, fun x => (exec_debugMemWrite _ x).trans (congrFun (runWrite_eq ..) x)⟩
  | .counterClear _ => ⟨_, fun x => (exec_counterClear _ x).trans (congrFun (runWrite_eq ..) x)⟩
  | .counterSumForward _ _ => ⟨_, fun x => exec_counterSumForward _ _ x⟩
  | .alarmAck _ => ⟨_, fun x => (exec_alarmAck _ x).trans (congrFun (runWrite_eq ..) x)⟩
  | .alarmMaskWrite _ => ⟨_, fun x => (exec_alarmMaskWrite _ x).trans (congrFun (runWrite_eq ..) x)⟩
  | .memTrainingComplete _ => nomatch hc
  | .laneChangeAckTimeout _ => nomatch hc
  | .epResetRelease _ => nomatch hc
  | .tickOutPulseEnd => ⟨_, fun x => exec_tickOutPulseEnd x⟩
  | .clockLowerSettle => nomatch hc
  | .selftestDrainTimeout => nomatch hc
  | .authNonceExpiry => ⟨_, fun x => exec_authNonceExpiry x⟩

end Sys2Proof.Machine
end

