-- ==== Sys2Proof/Laws/Dictionary.lean ====
section
/-! SUPPORT. Laws of the dictionary: little-endian bytes spell the number they came from, and what a served WRITE of one
element does, whole. -/
namespace Sys2Proof.Machine

/-- Little-endian bytes spell their number, cut to their width (R12). -/
theorem ofLe_leBytes (n v : Nat) : ofLe (leBytes n v) = v % 256 ^ n := by
  induction n generalizing v with
  | zero => simp [leBytes, ofLe, Nat.mod_one]
  | succ n ih =>
    simp only [leBytes, ofLe, ih, BitVec.toNat_ofNat, Nat.shiftRight_eq_div_pow, Nat.shiftLeft_eq]
    rw [show (2 : Nat) ^ 8 = 256 from rfl, Nat.pow_succ, Nat.mul_comm (256 ^ n) 256, Nat.mod_mul]
    ring

@[simp] theorem length_leBytes (n v : Nat) : (leBytes n v).length = n := by
  induction n generalizing v with
  | zero => rfl
  | succ n ih => simp [leBytes, ih]

/-- The value that the WRITE of one element carries. -/
theorem writeReq_values {key e v : Nat} {r : ObjDesc} (h : objDesc key = some r) (hk : r.key = key) :
    (writeReq key e v).values r = [writeMask key (v % 256 ^ r.bytes)] := by
  have : slice (leBytes r.bytes v) 0 r.bytes = leBytes r.bytes v := by
    simp [slice, List.take_of_length_le]
  simp [writeReq, DictReq.values, h, hk, this, ofLe_leBytes]

/-- A WRITE of one element that passes the checks of R449 takes effect, whole. -/
theorem dictServe_write {s : State} {key e v : Nat} {answered : Bool} {r : ObjDesc} (h : objDesc key = some r) (hk : r.key = key)
    (ok : s.dictCheck answered (writeReq key e v) = D.ok) :
    s.dictServe (writeReq key e v) answered = s.wrote fun s => s.writeElem r e (writeMask key (v % 256 ^ r.bytes)) := by
  unfold State.dictServe
  have hq : (writeReq key e v).opcode = 2 ∧ (writeReq key e v).key = key ∧ (writeReq key e v).first = e := ⟨rfl, rfl, rfl⟩
  simp only [ok, ne_eq, not_true_eq_false, if_false, hq, h, writeReq_values h hk]
  simp [State.each, State.wrote]

/-- A WRITE of one element that fails a check of R449 changes no value: it is counted, and answered with the code. -/
theorem dictServe_refused {s : State} {q : DictReq} {answered : Bool} (h : s.dictCheck answered q ≠ D.ok)
    (hb : s.dictCheck answered q ≠ D.busy) :
    s.dictServe q answered =
      let t := (s.bump K.dictRequests).bump K.dictRefused
      { t with dict := { t.dict with lastResult := s.dictCheck answered q, lastValue := [] } } := by
  unfold State.dictServe
  simp [h, hb]

/-- What an accepted WRITE of an object that acts at once does (R28). -/
def State.actAtOnce (s : State) (key e v : Nat) : State :=
  match s.commandWrite key v, s.serviceWrite key v with
  | some t, _ => t
  | none, some t => t
  | none, none => (s.storeElem key e v).keptWrite key e v

/-- An object of n bytes, with its own key, that a WRITE acts on at once. -/
def ActsAtOnce (key n : Nat) : Prop := ∃ r, objDesc key = some r ∧ r.key = key ∧ r.effect ≠ 1 ∧ r.bytes = n

/-- A command that is a WRITE of one element which the dictionary accepts, whole. -/
theorem completes_wrote {c : Instr} {key e v n : Nat} {s : State} (h : ActsAtOnce key n) (hs : s.Accepts key e v)
    (hx : ∀ x : State, exec c x = runWrite key e v x) :
    Completes c s (s.wrote fun s => s.actAtOnce key e (writeMask key (v % 256 ^ n))) := by
  obtain ⟨r, h, hk, hr, rfl⟩ := h
  refine (completes_write hs fun x _ => hx x).eq ?_
  unfold State.writeObject
  rw [dictServe_write h hk hs.2.2]
  refine congrArg s.wrote (funext fun s => ?_)
  unfold State.writeElem State.actAtOnce
  subst hk
  exact if_neg hr

/-! The objects that commands write. -/

set_option maxRecDepth 8000

theorem acts_unitControl : ActsAtOnce K.unitControl 2 := ⟨_, rfl, rfl, by decide, rfl⟩
theorem acts_imageLoadGo : ActsAtOnce K.imageLoadGo 1 := ⟨_, rfl, rfl, by decide, rfl⟩
theorem acts_enginePortRestore : ActsAtOnce K.enginePortRestore 1 := ⟨_, rfl, rfl, by decide, rfl⟩
theorem acts_enginePortConfig : ActsAtOnce K.enginePortConfig 2 := ⟨_, rfl, rfl, by decide, rfl⟩
theorem acts_readBind : ActsAtOnce K.readBind 2 := ⟨_, rfl, rfl, by decide, rfl⟩
theorem acts_doorbellBind : ActsAtOnce K.doorbellBind 2 := ⟨_, rfl, rfl, by decide, rfl⟩
theorem acts_queueControl : ActsAtOnce K.queueControl 4 := ⟨_, rfl, rfl, by decide, rfl⟩
theorem acts_queueConfig : ActsAtOnce K.queueConfig 16 := ⟨_, rfl, rfl, by decide, rfl⟩
theorem acts_signalOpen : ActsAtOnce K.signalOpen 16 := ⟨_, rfl, rfl, by decide, rfl⟩
theorem acts_signalClose : ActsAtOnce K.signalClose 1 := ⟨_, rfl, rfl, by decide, rfl⟩
theorem acts_tableCommand : ActsAtOnce K.tableCommand 1 := ⟨_, rfl, rfl, by decide, rfl⟩
theorem acts_voxporSwap : ActsAtOnce K.voxporSwap 2 := ⟨_, rfl, rfl, by decide, rfl⟩
theorem acts_memPortControl : ActsAtOnce K.memPortControl 2 := ⟨_, rfl, rfl, by decide, rfl⟩
theorem acts_linkEnable : ActsAtOnce K.linkEnable 2 := ⟨_, rfl, rfl, by decide, rfl⟩
theorem acts_startBarrierGo : ActsAtOnce K.startBarrierGo 16 := ⟨_, rfl, rfl, by decide, rfl⟩
theorem acts_solderArm : ActsAtOnce K.solderArm 1 := ⟨_, rfl, rfl, by decide, rfl⟩
theorem acts_rngProbeIn : ActsAtOnce K.rngProbeIn 32 := ⟨_, rfl, rfl, by decide, rfl⟩
theorem acts_logConsumed : ActsAtOnce K.logConsumed 4 := ⟨_, rfl, rfl, by decide, rfl⟩
theorem acts_mcHeartbeat : ActsAtOnce K.mcHeartbeat 1 := ⟨_, rfl, rfl, by decide, rfl⟩
theorem acts_resetRequest : ActsAtOnce K.resetRequest 4 := ⟨_, rfl, rfl, by decide, rfl⟩
theorem acts_nightRelease : ActsAtOnce K.nightRelease 1 := ⟨_, rfl, rfl, by decide, rfl⟩
theorem acts_dumpRequest : ActsAtOnce K.dumpRequest 1 := ⟨_, rfl, rfl, by decide, rfl⟩
theorem acts_dumpAck : ActsAtOnce K.dumpAck 1 := ⟨_, rfl, rfl, by decide, rfl⟩
theorem acts_memZeroFill : ActsAtOnce K.memZeroFill 16 := ⟨_, rfl, rfl, by decide, rfl⟩
theorem acts_startGo : ActsAtOnce K.startGo 1 := ⟨_, rfl, rfl, by decide, rfl⟩
theorem acts_powerRequest : ActsAtOnce K.powerRequest 1 := ⟨_, rfl, rfl, by decide, rfl⟩
theorem acts_selftestRequest : ActsAtOnce K.selftestRequest 4 := ⟨_, rfl, rfl, by decide, rfl⟩
theorem acts_debugLevel : ActsAtOnce K.debugLevel 1 := ⟨_, rfl, rfl, by decide, rfl⟩
theorem acts_authResponse : ActsAtOnce K.authResponse 128 := ⟨_, rfl, rfl, by decide, rfl⟩
theorem acts_lifecycleProvision : ActsAtOnce K.lifecycleProvision 96 := ⟨_, rfl, rfl, by decide, rfl⟩
theorem acts_fwLoadGo : ActsAtOnce K.fwLoadGo 1 := ⟨_, rfl, rfl, by decide, rfl⟩
theorem acts_debugMemData : ActsAtOnce K.debugMemData 64 := ⟨_, rfl, rfl, by decide, rfl⟩
theorem acts_counterClear : ActsAtOnce K.counterClear 4 := ⟨_, rfl, rfl, by decide, rfl⟩
theorem acts_alarmAck : ActsAtOnce K.alarmAck 1 := ⟨_, rfl, rfl, by decide, rfl⟩
theorem acts_alarmMask : ActsAtOnce K.alarmMask 16 := ⟨_, rfl, rfl, by decide, rfl⟩

end Sys2Proof.Machine
end

