-- ==== Sys2Proof/Laws/Memory.lean ====
section
/-! SUPPORT. Laws of writes to memory: which parts of the state a write changes, that memory stays in canonical form, and
that every byte outside the write is left. -/
namespace Sys2Proof.Machine

/-- Two states differ in the Memory Stripe Unit, the accumulators and the counters at most. -/
def StripeOnly (s t : State) : Prop :=
  t = { s with stripe := t.stripe, dict := { s.dict with acc := t.dict.acc, counters := t.dict.counters } }

theorem StripeOnly.refl (s : State) : StripeOnly s s := rfl

theorem StripeOnly.trans {s t u : State} (h : StripeOnly s t) (k : StripeOnly t u) : StripeOnly s u := by
  unfold StripeOnly at *
  rw [k]
  rw [h]

theorem StripeOnly.of_stripe (s : State) (x : Stripe) : StripeOnly s { s with stripe := x } := rfl

theorem StripeOnly.bump (s : State) (k n e : Nat) : StripeOnly s (s.bump k n e) := by
  unfold StripeOnly State.bump; dsimp only; split <;> rfl

theorem StripeOnly.each {α : Type} (f : State → α → State) (hf : ∀ s x, StripeOnly s (f s x)) (s : State) (l : List α) :
    StripeOnly s (s.each l f) := by
  induction l generalizing s with
  | nil => exact .refl s
  | cons x t ih => exact (hf s x).trans (ih (f s x))

/-- Two states hold the same bytes. -/
def SameBytes (s t : State) : Prop := t.stripe.mem = s.stripe.mem

theorem SameBytes.each {α : Type} (f : State → α → State) (hf : ∀ s x, SameBytes s (f s x)) (s : State) (l : List α) :
    SameBytes s (s.each l f) := by
  induction l generalizing s with
  | nil => rfl
  | cons x t ih => exact (ih (f s x)).trans (hf s x)

theorem wipeChunk_only (s : State) (p k : Nat) : StripeOnly s (s.wipeChunk p k) := rfl

theorem wipeChunk_same (s : State) (p k : Nat) : SameBytes s (s.wipeChunk p k) := rfl

/-- Two states hold the same bytes and differ in the Memory Stripe Unit, the accumulators and the counters at most. -/
def StripeSame (s t : State) : Prop := StripeOnly s t ∧ SameBytes s t

theorem StripeSame.refl (s : State) : StripeSame s s := ⟨.refl s, rfl⟩

theorem StripeSame.trans {s t u : State} (h : StripeSame s t) (k : StripeSame t u) : StripeSame s u :=
  ⟨h.1.trans k.1, Eq.trans k.2 h.2⟩

theorem StripeSame.each {α : Type} (f : State → α → State) (hf : ∀ s x, StripeSame s (f s x)) (s : State) (l : List α) :
    StripeSame s (s.each l f) :=
  ⟨StripeOnly.each f (fun s x => (hf s x).1) s l, SameBytes.each f (fun s x => (hf s x).2) s l⟩

/-- A request waits on a port: the bytes stay as they are. -/
theorem enqueue_same (s : State) (t : MemTag) : StripeSame s (s.enqueue t) := by
  unfold State.enqueue; dsimp only; split
  · exact ⟨rfl, rfl⟩
  · exact .refl s

theorem bump_same (s : State) (k n e : Nat) : StripeSame s (s.bump k n e) :=
  ⟨.bump s k n e, by simp [SameBytes]⟩

theorem foldl_same {α : Type} (f : State → α → State) (hf : ∀ s x, StripeSame s (f s x)) (l : List α) (s : State) :
    StripeSame s (l.foldl f s) := StripeSame.each f hf s l

/-- The requests that write a page leave the bytes as they are. -/
theorem writePage_same (s : State) (g pos row : Nat) : StripeSame s (s.writePage g pos row) := by
  unfold State.writePage; dsimp only
  exact foldl_same _ (fun s c => StripeSame.trans (foldl_same _ (fun s i => enqueue_same s _) _ s) (enqueue_same _ _)) _ s

theorem zeroChunk_same (s : State) (p k : Nat) : StripeSame s (s.zeroChunk p k) := by
  unfold State.zeroChunk; dsimp only
  exact StripeSame.trans ⟨wipeChunk_only s p k, wipeChunk_same s p k⟩
    (StripeSame.each _ (fun s i => writePage_same s _ _ _) _ _)

/-- A wipe on demand forgets that a chunk is to be wiped and queues its blocks: its bytes already read zero (R428). -/
theorem wipeOnDemand_same (s : State) (a : Nat) : StripeSame s (s.wipeOnDemand a) := by
  unfold State.wipeOnDemand; dsimp only; split
  · refine StripeSame.trans (StripeSame.each _ (fun s p => ?_) _ _) (bump_same ..)
    split
    · exact zeroChunk_same ..
    · exact .refl s
  · exact .refl s

theorem wipeFirst_same (s : State) (a : Nat) : StripeSame s (s.wipeFirst a) := by
  unfold State.wipeFirst; split
  · exact .refl s
  · exact wipeOnDemand_same s a

theorem openRecon_same (s : State) (r : Recon) : StripeSame s (s.openRecon r) := by
  unfold State.openRecon; dsimp only
  exact StripeSame.trans ⟨.of_stripe s _, rfl⟩ (StripeSame.each _ (fun s _ => enqueue_same s _) _ _)

/-- A read by a unit leaves the bytes as they are. -/
theorem unitRead_same (s : State) (a hint : Nat) : StripeSame s (s.unitRead a hint) := by
  unfold State.unitRead; dsimp only
  repeat' split
  · exact bump_same ..
  · exact .refl s
  · exact enqueue_same ..
  · exact bump_same ..
  · exact openRecon_same ..
  · exact bump_same ..

/-- A read of bytes by a unit leaves the bytes as they are. -/
theorem readBytes_same (s : State) (a n hint : Nat) : StripeSame s (s.readBytes a n hint).1 := by
  unfold State.readBytes; dsimp only
  exact StripeSame.trans ⟨.of_stripe s _, rfl⟩ (StripeSame.each _ (fun s _ => unitRead_same s _ _) _ _)

theorem staleRecons_same (s : State) (m : Place) : StripeSame s (s.staleRecons m) := ⟨rfl, rfl⟩

theorem modMport_same (s : State) (p : Nat) (f : MemPort → MemPort) : StripeSame s (s.modMport p f) := ⟨rfl, rfl⟩

/-- A row that a member could not take a write of is marked: the bytes stay as they are. -/
theorem markRow_same (s : State) (g row : Nat) : StripeSame s (s.markRow g row) := by
  unfold State.markRow; dsimp only
  exact StripeSame.trans ⟨.of_stripe s _, rfl⟩ (StripeSame.each _ (fun s p => modMport_same s p _) _ _)

/-- A row marked or not, the state is as a step that keeps to the Memory Stripe Unit has left it. -/
theorem markIf_only {s t : State} (c : Prop) [Decidable c] (g row : Nat) (h : StripeOnly s t) :
    StripeOnly s (if c then t.markRow g row else t) := by
  split
  · exact h.trans (markRow_same ..).1
  · exact h

theorem putBlock_only (s : State) (a : Nat) (bs : List Byte) : StripeOnly s (s.putBlock a bs) :=
  markIf_only _ _ _ rfl

/-- A row marked or not, the bytes are the same. -/
theorem markIf_mem (t : State) (c : Prop) [Decidable c] (g row : Nat) :
    (if c then t.markRow g row else t).stripe.mem = t.stripe.mem := by
  split
  · exact (markRow_same ..).2
  · rfl

/-- A write that is performed writes its bytes. -/
theorem putBlock_mem (s : State) (a : Nat) (bs : List Byte) : (s.putBlock a bs).stripe.mem = memPut s.stripe.mem a bs :=
  markIf_mem ..

theorem performWrite_only (s : State) (a : Nat) (bs : List Byte) (hint ways : Nat) :
    StripeOnly s (s.performWrite a bs hint ways) := by
  unfold State.performWrite; dsimp only
  exact (putBlock_only s a bs).trans (StripeOnly.each _ (fun s t => (enqueue_same s t).1) _ _)

/-- A write that is performed writes its bytes. -/
theorem performWrite_mem (s : State) (a : Nat) (bs : List Byte) (hint ways : Nat) :
    (s.performWrite a bs hint ways).stripe.mem = memPut s.stripe.mem a bs := by
  unfold State.performWrite; dsimp only
  exact Eq.trans (SameBytes.each _ (fun s t => (enqueue_same s t).2) _ _) (putBlock_mem s a bs)

/-- A write within one block by a unit writes its bytes, or, held or failed, none yet (R316); nothing else changes but the
Memory Stripe Unit, accumulators and counters. -/
theorem writePart_law (s : State) (a : Nat) (bs : List Byte) (hint : Nat) :
    StripeOnly s (s.writePart a bs .unit hint) ∧
    ((s.writePart a bs .unit hint).stripe.mem = memPut s.stripe.mem a bs
      ∨ (s.writePart a bs .unit hint).stripe.mem = s.stripe.mem) := by
  have h := (wipeFirst_same s a).1
  have k := (wipeFirst_same s a).2
  unfold SameBytes at k
  unfold State.writePart State.acceptWrite; dsimp only
  split
  · exact ⟨h.trans rfl, .inr k⟩
  · split
    · exact ⟨h.trans (performWrite_only ..), .inl (by rw [performWrite_mem, k])⟩
    · exact ⟨h.trans (bump_same ..).1, .inr ((bump_same (s.wipeFirst a) K.blocksUncorrectable 1 0).2.trans k)⟩
    · exact ⟨h.trans rfl, .inr k⟩
    · exact ⟨h.trans rfl, .inr k⟩

theorem writePart_only (s : State) (a : Nat) (bs : List Byte) (hint : Nat) :
    StripeOnly s (s.writePart a bs .unit hint) := (writePart_law s a bs hint).1

/-- A write within one block writes its bytes, or, held or failed, none (R316). -/
theorem writePart_mem (s : State) (a : Nat) (bs : List Byte) (hint : Nat) :
    (s.writePart a bs .unit hint).stripe.mem = memPut s.stripe.mem a bs
      ∨ (s.writePart a bs .unit hint).stripe.mem = s.stripe.mem := (writePart_law s a bs hint).2

/-- A write by a unit of the data plane changes the Memory Stripe Unit and counts. -/
theorem writeBytes_only (s : State) (a : Nat) (bs : List Byte) (hint : Nat) :
    StripeOnly s (s.writeBytes a bs hint) := by
  unfold State.writeBytes
  refine StripeOnly.each (fun s (p : Nat × List Byte) => s.writePart p.1 p.2 .unit hint) ?_ s _
  intro s p
  exact writePart_only s p.1 p.2 hint

/-- A write keeps memory in canonical form. -/
theorem writeBytes_wf (s : State) (a : Nat) (bs : List Byte) (hint : Nat) (h : Memory.wf s.stripe.mem = true) :
    Memory.wf (s.writeBytes a bs hint).stripe.mem = true := by
  unfold State.writeBytes
  generalize blockPieces (bs.length + 1) a bs = l
  induction l generalizing s with
  | nil => exact h
  | cons x t ih =>
    refine ih (s.writePart x.1 x.2 .unit hint) ?_
    rcases writePart_mem s x.1 x.2 hint with e | e <;> rw [e]
    · exact memPut_wf h ..
    · exact h

/-- The pieces of a byte string lie within it. -/
theorem blockPieces_within (f a : Nat) (bs : List Byte) :
    ∀ x ∈ blockPieces f a bs, a ≤ x.1 ∧ x.1 + x.2.length ≤ a + bs.length := by
  induction f generalizing a bs with
  | zero => intro x hx; simp [blockPieces] at hx
  | succ f ih =>
    cases bs with
    | nil => intro x hx; simp [blockPieces] at hx
    | cons b t =>
      intro x hx
      simp only [blockPieces, List.mem_cons] at hx
      rcases hx with rfl | hx
      · simp only [List.length_take, le_refl, true_and]; omega
      · have := ih _ _ x hx
        by_cases hn : 64 - a % 64 ≤ (b :: t).length
        · simp only [List.length_drop] at this; omega
        · rw [List.drop_eq_nil_of_le (by omega)] at hx
          cases f <;> simp [blockPieces] at hx

/-- A write leaves every byte outside it. -/
theorem writeBytes_outside (s : State) (a : Nat) (bs : List Byte) (hint : Nat) {j : Nat} (h : j < a ∨ a + bs.length ≤ j) :
    Sparse.get (s.writeBytes a bs hint).stripe.mem 0 j = Sparse.get s.stripe.mem 0 j := by
  unfold State.writeBytes
  have hl := blockPieces_within (bs.length + 1) a bs
  generalize blockPieces (bs.length + 1) a bs = l at hl
  induction l generalizing s with
  | nil => rfl
  | cons x t ih =>
    refine (ih (s.writePart x.1 x.2 .unit hint) fun y hy => hl y (List.mem_cons_of_mem _ hy)).trans ?_
    rcases writePart_mem s x.1 x.2 hint with e | e <;> rw [e]
    have := hl x (List.mem_cons_self ..)
    exact memPut_outside _ _ _ (by omega)

theorem writeWord_only (s : State) (a : Nat) (w : Block) (hint : Nat) : StripeOnly s (s.writeWord a w hint) := writeBytes_only ..

end Sys2Proof.Machine
end

