-- ==== Sys2Proof/Tests/Slice0.lean ====
section
/-! SUPPORT. The author's own tests: ill-formed commands are refused, small facts the spec works out, and for each
statement of Certificates/Slice0/Obligations.lean states and operands that meet its hypotheses. -/
namespace Sys2Proof.Tests
open Sys2Proof Sys2Proof.Machine
set_option Elab.async false

/-- A PROVISIONED chip in Dawn. -/
def provisioned : State := { State.reset with mgmt := { lcCount := 1 } }

/-- A PROVISIONED chip at Noon on its divider, in a frame. -/
def noon : State := { provisioned with power := { started := true, stage := 2 }, tick := { running := true, frameOpen := true } }

/-- The memory ports of a build, all ONLINE. -/
def onlinePorts : Sparse MemPort := (List.range 24).map fun p => (p, { state := .online, trained := true, resetN := true })

/-- A chip at Noon with every memory port ONLINE in groups of 12. -/
def group12 : State := { noon with
  dict := { inForce := [(dictKey K.stripeGroupSize 0, 12)] }, stripe := { ports := onlinePorts } }

/-- A well-formed packet of an MCTP message. -/
def packet0 : MctpPacket :=
  { som := true, eom := true, seq := 0, tagOwner := true, tag := 0, src := 8, dst := 9, pecOk := true, payload := [] }

/-- A well-formed write beat. -/
def beat0 : WriteBeat :=
  { addr := 0, data := 0, hint := 0, signal := false, remote := false, chip := 0, last := true }

/-- Commands that a check refuses, each one step beyond what the check admits. -/
def illFormed1 : List Instr := [
  .dictWrite true 65536 0 0 0 [],
  .dictWrite true 0 256 0 0 [],
  .dictWrite true 0 0 65536 0 [],
  .dictWrite true 0 0 0 65536 [],
  .dictWrite true 0 0 0 0 (List.replicate 4097 0),
  .mctpMessage [{ packet0 with seq := 4 }],
  .mctpMessage [{ packet0 with tag := 8 }],
  .mctpMessage [{ packet0 with src := 256 }],
  .mctpMessage [{ packet0 with dst := 256 }],
  .setEndpointId 256,
  .entdaa 128,
  .setdasa 128 0,
  .setdasa 0 128,
  .unitStop 256,
  .unitStart 256,
  .unitStopEffect 256,
  .tickMark 16 0,
  .step 2048 0,
  .jobOpen 2048 0,
  .jobClose 2048 0,
  .jobCloseEffect 4096,
  .join 2048 0,
  .leave 2048 0,
  .doorbellDataWord 2048 0,
  .templateInstantiate 8192,
  .tokenMatch 16,
  .holdLift 524288,
  .nullTaskResolve 524288,
  .taskSkip 524288,
  .dispatch 4,
  .completionRecord 64 0,
  .writeFenceClear 64,
  .yieldRecord 64 0,
  .yieldBoundExpiry 64,
  .enginePortRestore 64,
  .enginePortConfigWrite 64 0,
  .epReadyRise 64,
  .epReadyFall 64,
  .readApertureRead 4096,
  .apertureBind true 4096 0,
  .apertureBind false 2048 0,
  .queueEnable 16384,
  .queueDisable 16384,
  .queueFlush 16384,
  .queueFlushEffect 16384,
  .queueConfigWrite 16384 0,
  .qEnqueue 524288,
  .qDequeue 524288,
  .queueProducerResume 16384,
  .resultRelease 1048576,
  .signal (.engine 64) 0,
  .signal (.queue 16384) 0,
  .signal (.link 16) 0,
  .arrive (.engine 64) 0,
  .arrive (.queue 16384) 0,
  .arrive (.link 16) 0,
  .sigWait 524288,
  .barrierArrive 524288,
  .sigPost 524288,
  .waitResolve 524288]

/-- Commands that a check refuses, each one step beyond what the check admits. -/
def illFormed2 : List Instr := [
  .preemptRequest 64,
  .spillEnd 64,
  .restoreIssue 64,
  .switchIncomingIssue 64,
  .dmaCopy 524288,
  .dmaFill 524288,
  .embGather 524288,
  .embPool 524288,
  .embScore 524288,
  .poolReq 4096 0 [],
  .scoreReq 4096 0 [],
  .poolReply 4096 0 [],
  .scoreReply 4096 0 [],
  .remoteTimeout 16777216,
  .embUpdate 524288,
  .updatePublish 524288,
  .foldStart 268435456,
  .foldCopyComplete 268435456,
  .migrationCopyComplete 4096 0,
  .hotRowDemotion 268435456,
  .replica 4096 0 [],
  .lease 4096 0,
  .drop 4096 0,
  .voxporSwap 4096,
  .voxporScanComplete 4096,
  .tableDigestScanComplete 4096,
  .expSelect 524288,
  .expSend 524288,
  .exchangeOpen 524288,
  .expReturn 524288,
  .expRecv 524288,
  .expCollect 524288,
  .sendCount 4096 0 [],
  .sendRow 4096 0 [],
  .returnCount 4096 0 [],
  .returnRow 4096 0 [],
  .engineReadRequest 64 0 0 0,
  .engineReadRequest 0 0 256 0,
  .engineWriteBeat 64 beat0,
  .engineWriteBeat 0 { beat0 with chip := 4096 },
  .hostDmaRead 0 256 0,
  .hostDmaRead 0 0 16,
  .hostDmaWrite 0 16 true 0,
  .controlRequest true 1048576 0 0,
  .controlRequest true 0 7 0,
  .memReadResponse 24 0 0 0,
  .memWriteResponse 24 0,
  .repairResponse 24 0,
  .memTimeout 24 0,
  .memTimeout 0 1024,
  .portOfflineRise 24,
  .portOfflineGrant 24,
  .drainComplete 24,
  .portOfflineFall 24 true,
  .offlineRetrain 24,
  .offlineReplace 24,
  .restore 24 true,
  .rebuildChunkComplete 24,
  .pageRestoreComplete 24 0,
  .scrubRow 4 0]

/-- Commands that a check refuses, each one step beyond what the check admits. -/
def illFormed3 : List Instr := [
  .memWipeChunk 24 0,
  .laneSignalLoss 16 0,
  .laneChangeSwitch 16,
  .controlFlit 16 [],
  .dataFlit 16 [] [],
  .dataFlit 0 [0] [],
  .flitTransmit 16,
  .controlFlitPeriod 16,
  .linkReplayTimeout 16 0,
  .linkReplayTimeout 0 4,
  .linkDeadTimeout 16,
  .trainingLock 16,
  .trainingTimeout 16,
  .identityBlock 16 0 (List.replicate 16 (0, 0)),
  .identityBlock 0 0 (List.replicate 15 (0, 0)),
  .downRetrain 16,
  .refusedRetry 16,
  .write 4096 0 [],
  .queue 4096 0 [],
  .start 16 0,
  .solderArm 256,
  .digest 524288,
  .replayControlWrite 256,
  .taskWatchdogExpiry 64,
  .dataTaskWatchdogExpiry 524288,
  .dataUnitStall 524288,
  .dispatchStall 4,
  .noEngine 524288,
  .resetRequestL0 4096,
  .resetRequestL1 64,
  .resetRequestL2 16,
  .l0DrainEnd 4096,
  .cleanupWalksComplete 4096,
  .cleanupOverrun 4096,
  .engineResetTimeout 64,
  .dumpComplete [256],
  .sramUncorrectable (.slot 524288),
  .sramUncorrectable (.spillRecord 524288),
  .sramUncorrectable (.flow 1048576),
  .sramUncorrectable (.object 262144),
  .sramUncorrectable (.barrier 4096),
  .sramUncorrectable (.queue 16384),
  .sramUncorrectable (.hotRow 25165824),
  .sramUncorrectable (.replayBuffer 16 0 0),
  .sramUncorrectable (.replayBuffer 0 4 0),
  .clockRange 8 0,
  .voltageRange 16 0,
  .selfRefreshAck 24 true,
  .debugLevelWrite 256,
  .fwLoadData (List.replicate 1025 0),
  .alarmAck 128,
  .memTrainingComplete 24,
  .laneChangeAckTimeout 16,
  .epResetRelease 64]

theorem test_illFormed1_refused : illFormed1.all (fun c => !c.wf) = true := by decide +kernel
theorem test_illFormed2_refused : illFormed2.all (fun c => !c.wf) = true := by decide +kernel
theorem test_illFormed3_refused : illFormed3.all (fun c => !c.wf) = true := by decide +kernel

theorem test_wellFormed_admitted : [Instr.tickBoundary, .tokenMatch 15, .dispatch 3, .memTimeout 23 1023, .dictWrite true 0x2110 0 63 1 [0, 1],
    .mctpMessage [packet0], .signal (.link 15) 0, .sramUncorrectable (.flow 1048575), .apertureBind true 4095 0].all Instr.wf
    = true := by decide

/-! Worked examples of the spec. -/

/-- The directory entry of ENGINE_PORT_CONFIG (the example after R496). -/
theorem test_directoryEntry :
    (objDesc K.enginePortConfig).map objEntry = some 0x2110002ED00000400002000000000000 := by decide

/-- The RESPONSE header that echoes the request of the same example with LENGTH 32 and RESULT OK. -/
theorem test_responseHeader : responseHeader 0x015C6100000028000100000000000000#128 D.ok 32
    = 0x015C6100000028000100200000000000#128 := by decide

/-- The value of the LINK_DOWN latch of the same example: PENDING, COUNT 3, LAST (81,207, 92,000), FIRST (81,204, 12,000). -/
theorem test_latchValue :
    let l : Latch := { firstTick := 81204, firstHc := 12000, lastTick := 81207, lastHc := 92000, count := 3, pending := true }
    l.word = 0x0000000000013D3400002EE00000000000013D37000167600000000000030001 := by decide

/-- ALARM_ACK takes the code 0x28 of LINK_DOWN and refuses 0x27, which no alarm has (R496). -/
theorem test_alarmAck_codes : provisioned.dictCheck false (writeReq K.alarmAck 0 0x28) = D.ok
    ∧ provisioned.dictCheck false (writeReq K.alarmAck 0 0x27) = D.range := by decide

/-- Address 0x200_F424_3140 in a group of 12: row 90,909, data port MP16, parity port MP21, block 5 (the example of R308). -/
theorem test_stripePlace :
    (State.place { State.reset with dict := { inForce := [(dictKey K.stripeGroupSize 0, 12)] } } 0x200F4243140)
      = { group := 1, row := 90909, d := 4, q := 9, port := 16, parity := 21, blk := 5 } := by decide

/-- EP5's command of the example of chapter 6: CHIP 7, NUMBER 0x1A40, AMOUNT 1, OP SIGNAL, TICK 0. -/
theorem test_signalFields : Sig.chip 0x0070690000040000 = 7 ∧ Sig.number 0x0070690000040000 = 0x1A40
    ∧ Sig.amount 0x0070690000040000 = 1 ∧ Sig.op 0x0070690000040000 = 0 ∧ Sig.tick 0x0070690000040000 = 0 := by decide

/-- 1,000 rows for a class of TILE_MULTIPLE 128 are padded to 1,024 (the example of R94). -/
theorem test_paddedRows : padRows (BitVec.ofNat 64 (1000 * 2 ^ 32)) 128 = BitVec.ofNat 64 (1000 * 2 ^ 32 + 1024) := by decide

/-- The first command of the example reaches object 0x1A40 of chip 7: COUNT goes from 0 to 1 (R169). -/
theorem test_signalCounts :
    let s : State := { State.reset with
      dict := { inForce := [(dictKey K.chipId 0, 7)] }, sig := { objs := [(0x1A40, { ctx := 40, open_ := true })] } }
    ((s.applyCommand { cmd := 0x0070690000040000, src := .link 0 }).obj 0x1A40).count = 1 := by decide

/-- The third alarm of a code adds to COUNT and sets LAST (the example of chapter 17). -/
theorem test_latchOccurs :
    let l : Latch := { firstTick := 81204, firstHc := 12000, lastTick := 81206, lastHc := 52000, count := 2, pending := true }
    l.occur 81207 92000
      = { firstTick := 81204, firstHc := 12000, lastTick := 81207, lastHc := 92000, count := 3, pending := true } := by decide

/-- CRC-32C of "123456789", the check value that names the polynomial (log 23). -/
theorem test_crc32c : crc32c [0x31, 0x32, 0x33, 0x34, 0x35, 0x36, 0x37, 0x38, 0x39] = 0xE3069283 := by decide +kernel

/-- SHA-256 of "abc" (FIPS 180-4, log 22). -/
theorem test_sha256 : sha256 [0x61, 0x62, 0x63] = [0xBA, 0x78, 0x16, 0xBF, 0x8F, 0x01, 0xCF, 0xEA, 0x41, 0x41, 0x40, 0xDE,
    0x5D, 0xAE, 0x22, 0x23, 0xB0, 0x03, 0x61, 0xA3, 0x96, 0x17, 0x7A, 0x9C, 0xB4, 0x10, 0xFF, 0x61, 0xF2, 0x00, 0x15, 0xAD]
    := by decide +kernel

/-! One command each. -/

/-- A command at the front of the queue runs, and the rest stays (the block's step). -/
theorem test_step_takes_front :
    step { State.reset with pending := [.resetNAssert, .resetNRelease] } =
      exec .resetNAssert { State.reset with pending := [.resetNRelease] } := rfl

/-- A port that the build lacks stops its command (R8). -/
theorem test_absentPort : exec (.memTimeout 12 0) { State.reset with build := { memoryPorts := 12 } } = .fault .noSuchPort := rfl

/-- A memory port's request is noted, its grant takes it to DRAINING (R318, the example of chapter 11). -/
theorem test_portDrains :
    let asks : MemPort := { state := .online, trained := true, offline := true }
    let s : State := { group12 with stripe := { ports := Sparse.set onlinePorts {} 17 asks } }
    ((portOfflineGrantEff 17 s).mport 17).state = .draining := by decide +kernel

/-- A record offered to a queue that is disabled is refused with BUSY (R150). -/
theorem test_doorbell_disabledQueue : (provisioned.offerTo 0 0 true).1 = .busy := by decide

/-! For each statement, states and operands that meet its hypotheses: one conjunct for each clause. -/

/-- A chip in RESET_N. -/
def inReset : State := { State.reset with pins := { resetN := false } }

theorem witness_StepRunsFrontCommand :
    State.pending { State.reset with pending := [.tickOutPulseEnd, .resetNAssert] } = .tickOutPulseEnd :: [.resetNAssert] := rfl

theorem witness_IdleStepPassesOneHubCycle : State.reset.pending = [] := rfl

theorem witness_CommandsStopOnlyAtAbsentPorts :
    (planeOf .tickBoundary).present State.reset = true
    ∧ (planeOf (.memTimeout 12 0)).present { State.reset with build := { memoryPorts := 12 } } = false := by decide

theorem witness_OffPlanesTakeNothing :
    (inReset.out = [] ∧ (planeOf .morningBegin).inCore = true ∧ (planeOf .morningBegin).present inReset = true
      ∧ inReset.off = true)
    ∧ (let s : State := { noon with power := { started := true, stage := 2, state := 3 } };
      s.out = [] ∧ (planeOf (.dataFlit 15 [] [])).inCore = true ∧ (planeOf (.dataFlit 15 [] [])).present s = true ∧ s.off = true)
    ∧ (planeOf .getpid = .management ∧ inReset.pins.resetN = false) := by decide

theorem witness_StepsKeepThePinsSettled : ∃ t : State, State.reset.Settled ∧ step State.reset = .next t := ⟨_, ⟨rfl, rfl⟩, rfl⟩

theorem reset_managed : State.reset.Managed := ⟨rfl, rfl⟩
theorem reset_running : State.reset.Running := ⟨rfl, rfl⟩
theorem provisioned_managed : provisioned.Managed := ⟨rfl, rfl⟩
theorem noon_managed : noon.Managed := ⟨rfl, rfl⟩
theorem noon_running : noon.Running := ⟨rfl, rfl⟩

/-- Reset with a dynamic address and a packet pending. -/
def addressed : State := { State.reset with mgmt := { dynAddr := 9, packets := [[1]] } }

theorem witness_I3cTargetCommands :
    (State.reset.Managed ∧ State.reset.mgmt.dynAddr = 0 ∧ State.reset.mgmt.packets = [])
    ∧ (addressed.Managed ∧ addressed.mgmt.dynAddr ≠ 0 ∧ addressed.mgmt.packets = [1] :: []) :=
  ⟨⟨reset_managed, rfl, rfl⟩, ⟨rfl, rfl⟩, by decide, rfl⟩

/-- Four bytes, high byte first, read as the number they came from. -/
theorem ofBe_beBytes4 (n : Nat) (h : n < 2 ^ 32) : ofBe (beBytes 4 n) = n := by
  simp [ofBe, beBytes, leBytes, ofLe]
  omega

/-- A packet whose payload is a Nymeran request of the build's vendor. -/
def requestPacket : MctpPacket :=
  { packet0 with dst := 0, payload := 0x7F#8 :: (beBytes 4 Config.vendorIana.toNat ++ List.replicate 16 0#8) }

/-- Reset with requests waiting and a message being assembled. -/
def waiting (n : Nat) : State := { State.reset with mgmt := { waiting := List.replicate n {} } }

theorem requestPacket_meets : requestPacket.pecOk = true ∧ requestPacket.dst = 0 ∧ requestPacket.tagOwner = true
    ∧ requestPacket.som = true ∧ requestPacket.eom = true ∧ 21 ≤ requestPacket.payload.length
    ∧ requestPacket.payload.length ≤ 64 ∧ requestPacket.payload[0]? = some 0x7F
    ∧ ofBe (slice requestPacket.payload 1 4) = Config.vendorIana.toNat := by
  have h := ofBe_beBytes4 Config.vendorIana.toNat (by have := Config.vendorIana.isLt; omega)
  refine ⟨rfl, rfl, rfl, rfl, rfl, by simp [requestPacket, beBytes, leBytes], by simp [requestPacket, beBytes, leBytes], rfl, ?_⟩
  have : slice requestPacket.payload 1 4 = beBytes 4 Config.vendorIana.toNat := rfl
  rw [this, h]

theorem witness_MctpEndpointAndMessages :
    (State.reset.Managed ∧ 0 < 8 ∧ 8 < 255)
    ∧ (State.reset.Managed ∧ { packet0 with pecOk := false : MctpPacket }.pecOk = false)
    ∧ ((waiting 3).Managed ∧ requestPacket.dst = (waiting 3).mgmt.eid ∧ (waiting 3).mgmt.assembling = none
      ∧ (waiting 3).mgmt.waiting.length < 4)
    ∧ ((waiting 4).Managed ∧ requestPacket.dst = (waiting 4).mgmt.eid ∧ (waiting 4).mgmt.assembling = none
      ∧ 4 ≤ (waiting 4).mgmt.waiting.length)
    ∧ ∃ s : State, s.Managed ∧ s.mgmt.assembling.isSome = true :=
  ⟨⟨reset_managed, by decide, by decide⟩, ⟨reset_managed, rfl⟩, ⟨⟨rfl, rfl⟩, rfl, rfl, by decide⟩,
    ⟨⟨rfl, rfl⟩, rfl, rfl, by decide⟩, { State.reset with mgmt := { assembling := some {} } }, ⟨rfl, rfl⟩, rfl⟩

/-- A request of the window in progress. -/
def requested : State := { State.reset with win := { inProgress := true } }

theorem witness_WindowRequests :
    (State.reset.Managed ∧ State.reset.win.inProgress = false)
    ∧ (requested.Managed ∧ requested.win.inProgress = true)
    ∧ (0x27 < 2 ^ 16 ∧ 0 ≤ 6 ∧ 0x27 % 2 ^ 0 = 0 ∧ 0x27 < 0x28 ∧ 0x20 < 0x27 + 2 ^ 0)
    ∧ (0xF < 2 ^ 16 ∧ 0xF % 2 ^ 0 = 0 ∧ 0xF < 0x10 ∧ 0 < 0xF + 2 ^ 0)
    ∧ (0x1FC0 < 2 ^ 16 ∧ 6 ≤ 6 ∧ 0x1FC0 % 2 ^ 6 = 0 ∧ 0x1FC0 < 0x2000 ∧ 0x1000 < 0x1FC0 + 2 ^ 6)
    ∧ (requested.Managed ∧ requested.win.inProgress = true ∧ requested.mgmt.waiting = []) :=
  ⟨⟨reset_managed, rfl⟩, ⟨⟨rfl, rfl⟩, rfl⟩, by decide, by decide, by decide, ⟨rfl, rfl⟩, rfl, rfl⟩

theorem witness_DictWriteDefersParameters :
    ∃ r : ObjDesc, provisioned.Managed ∧ objDesc (0x3013 * 256 + 6 % 256) = some r ∧ r.effect = 1 ∧ r.key ≠ K.replayControl
      ∧ (let w := provisioned.serveWaiting;
        State.dictCheck { w with clk := { w.clk with freeCount := w.clk.freeCount + 1 } }
          (Config.restoreAnswered w.clk.freeCount) (dictWriteReq true 0x3013 6 0 1 [1]) = D.ok) :=
  ⟨_, provisioned_managed, rfl, rfl, by decide, rfl⟩

theorem witness_DictWriteRefusals :
    (provisioned.Managed ∧ objDesc (0x0001 * 256 + 0 % 256) = none)
    ∧ (∃ code, code ≠ D.ok ∧ code ≠ D.busy
      ∧ (let w := provisioned.serveWaiting;
        State.dictCheck { w with clk := { w.clk with freeCount := w.clk.freeCount + 1 } }
          (Config.restoreAnswered w.clk.freeCount) (dictWriteReq true 1 0 0 1 [1]) = code))
    ∧ (requested.Managed ∧ (∀ x, exec .nightRelease x = runWrite K.nightRelease 0 1 x) ∧ requested.waitingRequests ≠ []
      ∧ noon.waitingRequests = []) :=
  ⟨⟨provisioned_managed, by decide⟩, ⟨D.noObject, by decide, by decide, rfl⟩, ⟨rfl, rfl⟩, fun _ => rfl, by decide, rfl⟩

/-- A write of one element of an object that a state accepts. -/
theorem accepts {s : State} {key e v : Nat} {a : Bool} (h1 : s.out = []) (h2 : s.pins.resetN = true)
    (h3 : s.dictCheck a (writeReq key e v) = D.ok) (h4 : s.waitingRequests = [] := by rfl) : s.Accepts key e v a :=
  ⟨⟨h1, h2⟩, h4, h3⟩

/-- Engine port 3 failed, unit 5 stopped. -/
def oneFailed : State := { noon with disp := { ports := [(3, { failed := true })], unitStopped := [5] } }

/-- The same in Dawn, every unit being stopped there. -/
def oneFailedDawn : State := { provisioned with disp := { ports := [(3, { failed := true })] } }

/-- Engine port 3 enabled and failed, in Night or not. -/
def restorable (night : Bool) : State := { oneFailed with
  dict := { written := [(dictKey K.enginePortConfig 3, 0x101)], inForce := [(dictKey K.enginePortConfig 3, 0x101)] }
  resets := { night := night } }

theorem restorable_accepts (b : Bool) : (restorable b).Accepts K.enginePortRestore 0 3 := by
  cases b
  · exact accepts rfl rfl (by decide)
  · exact accepts rfl rfl (by decide)

theorem witness_UnitAndPortWrites :
    (3 < 256 ∧ noon.Accepts K.unitControl 0 (2 ^ 14 + 3) ∧ noon.power.started = true ∧ 3 ∉ noon.disp.unitStopped)
    ∧ (oneFailed.Accepts K.unitControl 0 (2 ^ 14 + 5) ∧ oneFailed.power.started = true ∧ 5 ∈ oneFailed.disp.unitStopped)
    ∧ (oneFailed.Accepts K.unitControl 0 (2 ^ 15 + 5) ∧ oneFailed.power.started = true)
    ∧ (provisioned.Accepts K.unitControl 0 (2 ^ 14 + 0x40) ∧ provisioned.power.started = false)
    ∧ (provisioned.Accepts K.unitControl 0 (2 ^ 15 + 0x40) ∧ provisioned.power.started = false)
    ∧ (3 < 256 ∧ oneFailedDawn.Accepts K.enginePortRestore 0 3 ∧ oneFailedDawn.power.started = false)
    ∧ (3 < 256 ∧ ∃ s : State, s.Accepts K.enginePortRestore 0 3 ∧ s.disp.unitStopped.contains 3 = true)
    ∧ (∀ b ∈ [true, false], (restorable b).Accepts K.enginePortRestore 0 3 ∧ (restorable b).portEnabled 3 = true
      ∧ (restorable b).power.started = true ∧ (restorable b).resets.night = b)
    ∧ oneFailedDawn.Accepts K.enginePortConfig 63 0x0FB
    ∧ noon.Accepts K.doorbellBind 2047 0x8001
    ∧ { noon with qs := { queues := [(1, { kind := 3 })] } : State }.Accepts K.readBind 4095 0x8001 :=
  ⟨⟨by decide, accepts rfl rfl (by decide), rfl, by decide⟩, ⟨accepts rfl rfl (by decide), rfl, by decide⟩,
    ⟨accepts rfl rfl (by decide), rfl⟩, ⟨accepts rfl rfl (by decide), rfl⟩, ⟨accepts rfl rfl (by decide), rfl⟩,
    ⟨by decide, accepts rfl rfl (by decide), rfl⟩, ⟨by decide, { oneFailed with disp := { ports := [(3, { failed := true })], unitStopped := [3] } }, accepts rfl rfl (by decide), by decide⟩,
    fun b _ => ⟨restorable_accepts b, by cases b <;> decide, rfl, rfl⟩,
    accepts rfl rfl (by decide), accepts rfl rfl (by decide), accepts rfl rfl (by decide)⟩

/-- An image resides in slot 0, and nothing runs it. -/
def imaged : State := { noon with loader := { images := [(0, {})] } }

theorem witness_ImageLoadAndUnload :
    noon.Accepts K.imageLoadGo 0 1
    ∧ (noon.Accepts K.imageLoadGo 0 2 ∧ noon.unloadable (noon.par K.imageLoadSlot) = false)
    ∧ (imaged.Accepts K.imageLoadGo 0 2 ∧ imaged.unloadable (imaged.par K.imageLoadSlot) = true) :=
  ⟨accepts rfl rfl (by decide), ⟨accepts rfl rfl (by decide), by decide⟩, accepts rfl rfl (by decide), by decide⟩

/-- Partition 0 has the first GiB of group 0; queue 1 is configured and disabled, queue 2 of kind FLOW. -/
def windowed : State := { noon with
  dict := { inForce := [(dictKey K.partitionWindow 0, 2 ^ 31 + 1)] }
  qs := { queues := [(1, { kind := 3, sizeLog2 := 6 }), (2, { kind := 1, sizeLog2 := 6 })] } }

theorem witness_QueueWrites :
    (1 < 2 ^ 14 ∧ windowed.Accepts K.queueControl 0 (2 ^ 30 + 1))
    ∧ (2 < 2 ^ 14 ∧ windowed.Accepts K.queueControl 0 (2 * 2 ^ 30 + 2))
    ∧ (16383 < 2 ^ 14 ∧ windowed.Accepts K.queueControl 0 (3 * 2 ^ 30 + 16383))
    ∧ windowed.Accepts K.queueConfig 1 (BitVec.ofNat 128 (6 * 2 ^ 59 + 3 * 2 ^ 56)).toNat :=
  ⟨⟨by decide, accepts rfl rfl (by decide)⟩, ⟨by decide, accepts rfl rfl (by decide)⟩,
    ⟨by decide, accepts rfl rfl (by decide)⟩, accepts rfl rfl (by decide)⟩

/-- Context 40 has a job; a barrier is selected or an object. -/
def jobOpen (barrier : Bool) : State := { noon with
  dict := { inForce := if barrier then [(dictKey K.signalSelect 0, 2 ^ 31 + 7)] else [(dictKey K.signalSelect 0, 7)] }
  adm := { ctxs := [(40, { job := true })] } }

theorem witness_SignalOpenAndClose :
    ((jobOpen true).Accepts K.signalOpen 0 (BitVec.ofNat 128 (40 * 2 ^ 43 + 2 * 2 ^ 27)).toNat
      ∧ (jobOpen true).selected.1 = true)
    ∧ ((jobOpen false).Accepts K.signalOpen 0 (BitVec.ofNat 128 (40 * 2 ^ 43)).toNat ∧ (jobOpen false).selected.1 = false
      ∧ Open.period (BitVec.ofNat 128 (40 * 2 ^ 43)) = 0)
    ∧ ((jobOpen false).Accepts K.signalOpen 0 (BitVec.ofNat 128 (2 ^ 56 + 40 * 2 ^ 43)).toNat
      ∧ (jobOpen false).selected.1 = false ∧ Open.period (BitVec.ofNat 128 (2 ^ 56 + 40 * 2 ^ 43)) ≠ 0)
    ∧ ((jobOpen true).Accepts K.signalClose 0 1 ∧ (jobOpen true).selected.1 = true)
    ∧ ((jobOpen false).Accepts K.signalClose 0 1 ∧ (jobOpen false).selected.1 = false) :=
  ⟨⟨accepts rfl rfl (by decide), by decide⟩, ⟨accepts rfl rfl (by decide), by decide, by decide⟩,
    ⟨accepts rfl rfl (by decide), by decide, by decide⟩, ⟨accepts rfl rfl (by decide), by decide⟩,
    accepts rfl rfl (by decide), by decide⟩

/-- Table 0 is an open Voxpor table of no rows. -/
def voxporTable : State := { noon with emb := { tables := [(0, { state := 2, desc := 2 })] } }

theorem witness_TableWrites :
    noon.Accepts K.tableCommand 0 1 ∧ noon.Accepts K.tableCommand 0 2
    ∧ (0 < 2 ^ 16 ∧ voxporTable.Accepts K.voxporSwap 0 0) :=
  ⟨accepts rfl rfl (by decide), accepts rfl rfl (by decide), by decide, accepts rfl rfl (by decide +kernel)⟩

theorem witness_LinkAndReplayWrites :
    noon.Accepts K.linkEnable 0 (0x8001#16).toNat
    ∧ (noon.Accepts K.startBarrierGo 0 (5#128).toNat ∧ noon.par K.tickMasterChip = noon.chipId ∧ noon.tick.running = true
      ∧ bitOf (startRecord 5) 27 = false)
    ∧ (provisioned.Accepts K.startBarrierGo 0 (5#128).toNat ∧ provisioned.par K.tickMasterChip = provisioned.chipId
      ∧ provisioned.tick.running = false)
    ∧ noon.Accepts K.solderArm 0 0
    ∧ State.reset.Accepts K.solderArm 0 0
    ∧ { State.reset with dict := { inForce := [(dictKey K.solderConfig 0, 2 ^ 26)] } : State }.Accepts K.solderArm 0 1
    ∧ noon.Accepts K.rngProbeIn 0 (1#256).toNat
    ∧ (2 ≤ 2 ∧ noon.Accepts K.replayControl 0 2)
    ∧ noon.Accepts K.logConsumed 0 (0#32).toNat :=
  ⟨accepts rfl rfl (by decide), ⟨accepts rfl rfl (by decide), by decide, rfl, by decide⟩,
    ⟨accepts rfl rfl (by decide), by decide, rfl⟩, accepts rfl rfl (by decide),
    accepts rfl rfl (by decide), accepts rfl rfl (by decide), accepts rfl rfl (by decide),
    ⟨by decide, accepts rfl rfl (by decide)⟩, accepts rfl rfl (by decide)⟩

/-- A chip in Night. -/
def night : State := { noon with resets := { night := true } }

/-- An enabled engine port 3 at Noon. -/
def enabled : State := { noon with dict := { written := [(dictKey K.enginePortConfig 3, 0x101)], inForce := [(dictKey K.enginePortConfig 3, 0x101)] } }

theorem witness_ResetWrites :
    (4095 < 2 ^ 12 ∧ noon.Accepts K.resetRequest 0 4095)
    ∧ (3 < 2 ^ 12 ∧ enabled.Accepts K.resetRequest 0 (2 ^ 28 + 3))
    ∧ (15 < 2 ^ 12 ∧ noon.Accepts K.resetRequest 0 (2 * 2 ^ 28 + 15))
    ∧ noon.Accepts K.resetRequest 0 (3 * 2 ^ 28) ∧ noon.Accepts K.resetRequest 0 (4 * 2 ^ 28)
    ∧ noon.Accepts K.resetRequest 0 (5 * 2 ^ 28)
    ∧ noon.Accepts K.mcHeartbeat 0 (7#8).toNat
    ∧ night.Accepts K.nightRelease 0 1
    ∧ (noon.Accepts K.dumpRequest 0 1 ∧ noon.resets.dump.state = 0)
    ∧ (∃ s : State, s.Accepts K.dumpRequest 0 1 ∧ s.resets.dump.state ≠ 0)
    ∧ (∃ s : State, s.Accepts K.dumpAck 0 1 ∧ s.resets.dump.state = 2)
    ∧ windowed.Accepts K.memZeroFill 0 (BitVec.ofNat 128 128).toNat :=
  ⟨⟨by decide, accepts rfl rfl (by decide)⟩, ⟨by decide, accepts rfl rfl (by decide)⟩,
    ⟨by decide, accepts rfl rfl (by decide)⟩, accepts rfl rfl (by decide), accepts rfl rfl (by decide),
    accepts rfl rfl (by decide), accepts rfl rfl (by decide), accepts rfl rfl (by decide),
    ⟨accepts rfl rfl (by decide), rfl⟩,
    ⟨{ noon with resets := { dump := { state := 2 } } }, accepts rfl rfl (by decide), by decide⟩,
    ⟨{ noon with resets := { dump := { state := 2 } } }, accepts rfl rfl (by decide), rfl⟩,
    accepts rfl rfl (by decide)⟩

/-- A chip in power state p, with core power or without. -/
def inPower (p : Nat) : State := { noon with power := { started := true, stage := 2, state := p } }
def noCore : State := { inPower 3 with pins := { corePwrGood := false, corePwrReq := false } }

theorem witness_StartPowerAndTestWrites :
    provisioned.Accepts K.startGo 0 1
    ∧ (noon.Accepts K.powerRequest 0 0 ∧ 0 = noon.power.state)
    ∧ ((inPower 1).Accepts K.powerRequest 0 1 ∧ 1 = (inPower 1).power.state)
    ∧ (noon.Accepts K.powerRequest 0 3 ∧ noon.power.state ≤ 1 ∧ 3 ≠ noon.power.state)
    ∧ (noon.Accepts K.powerRequest 0 2 ∧ 2 ≠ noon.power.state ∧ ∃ p ∈ noon.memoryPorts, (noon.mport p).state ≠ .online)
    ∧ (group12.Accepts K.powerRequest 0 2 ∧ group12.power.state ≤ 1 ∧ 2 ≠ group12.power.state
      ∧ ∀ p ∈ group12.memoryPorts, (group12.mport p).state = .online ∧ (group12.mport p).wipe = {})
    ∧ ((inPower 2).Accepts K.powerRequest 0 1 ∧ (inPower 2).power.state = 2 ∧ 1 ≤ 1)
    ∧ ((inPower 2).Accepts K.powerRequest 0 3 ∧ (inPower 2).power.state = 2)
    ∧ (noCore.Accepts K.powerRequest 0 1 ∧ noCore.power.state = 3 ∧ 1 ≤ 2 ∧ noCore.pins.corePwrGood = false)
    ∧ (group12.Accepts K.selftestRequest 0 (flag true 31 + T.memMarch * 2 ^ 16 + (1#16).toNat)
      ∧ 16 ≤ T.memMarch ∧ group12.power.stage = 2)
    ∧ (noon.Accepts K.selftestRequest 0 (T.sramBist * 2 ^ 16 + (5#16).toNat) ∧ T.sramBist < 16)
    ∧ (provisioned.Accepts K.selftestRequest 0 (flag true 31 + T.logicBist * 2 ^ 16 + (0#16).toNat)
      ∧ provisioned.power.stage ≠ 2) :=
  ⟨accepts rfl rfl (by decide), ⟨accepts rfl rfl (by decide), rfl⟩, ⟨accepts rfl rfl (by decide), rfl⟩,
    ⟨accepts rfl rfl (by decide), by decide, by decide⟩, ⟨accepts rfl rfl (by decide), by decide, by decide⟩,
    ⟨accepts rfl rfl (by decide +kernel), by decide, by decide, by decide +kernel⟩,
    ⟨accepts rfl rfl (by decide), rfl, by decide⟩, ⟨accepts rfl rfl (by decide), rfl⟩,
    ⟨accepts rfl rfl (by decide), rfl, by decide, rfl⟩, ⟨accepts rfl rfl (by decide +kernel), by decide, rfl⟩,
    ⟨accepts rfl rfl (by decide), by decide⟩, accepts rfl rfl (by decide), by decide⟩

/-- A DEPLOYED chip. -/
def deployed (debug : Nat) : State := { noon with mgmt := { lcCount := 2, debugLevel := debug } }

theorem witness_DebugLevelAndChallenge :
    (noon.Accepts K.debugLevel 0 2 ∧ 2 = noon.mgmt.debugLevel)
    ∧ ((deployed 2).Accepts K.debugLevel 0 1 ∧ 1 ≠ (deployed 2).mgmt.debugLevel ∧ (deployed 2).mgmt.lcCount = 2
      ∧ (deployed 2).mgmt.debugLevel = 2)
    ∧ ((deployed 1).Accepts K.debugLevel 0 0 ∧ 0 ≠ (deployed 1).mgmt.debugLevel
      ∧ ¬ ((deployed 1).mgmt.lcCount = 2 ∧ (deployed 1).mgmt.debugLevel = 2))
    ∧ (noon.Managed ∧ noon.serveWaiting.dictCheck false (readReq K.authChallenge) = D.ok) :=
  ⟨⟨accepts rfl rfl (by decide), rfl⟩, ⟨accepts rfl rfl (by decide), by decide, rfl, rfl⟩,
    ⟨accepts rfl rfl (by decide), by decide, by decide⟩, noon_managed, by decide⟩

/-- A chip with a nonce out. -/
def challenged (count debug : Nat) : State := { noon with mgmt := { lcCount := count, debugLevel := debug, nonce := some 5 } }

theorem witness_GrantsTakeEffect :
    ((challenged 2 0).Accepts K.authResponse 0 (authValue 1 2 G.observe 0) ∧ (challenged 2 0).mgmt.nonce = some 5
      ∧ (challenged 2 0).mgmt.authFailures < 8 ∧ (challenged 2 0).grantRefused G.observe = false)
    ∧ ((challenged 2 1).Accepts K.authResponse 0 (authValue 1 2 G.open_ 0) ∧ (challenged 2 1).grantRefused G.open_ = false)
    ∧ ((challenged 1 1).Accepts K.authResponse 0 (authValue 1 2 G.solder (3#16).toNat)
      ∧ (challenged 1 1).grantRefused G.solder = false)
    ∧ ((challenged 1 0).Accepts K.authResponse 0 (authValue 1 2 G.deploy 0) ∧ (challenged 1 0).grantRefused G.deploy = false)
    ∧ ((challenged 2 0).Accepts K.authResponse 0 (authValue 1 2 G.return_ 0)
      ∧ (challenged 2 0).grantRefused G.return_ = false) :=
  ⟨⟨accepts rfl rfl (by decide +kernel), rfl, by decide, by decide⟩, ⟨accepts rfl rfl (by decide +kernel), by decide⟩,
    ⟨accepts rfl rfl (by decide +kernel), by decide⟩, ⟨accepts rfl rfl (by decide +kernel), by decide⟩,
    accepts rfl rfl (by decide +kernel), by decide⟩

/-- The base point of the curve P-384, a key that is valid. -/
def basePoint : BitVec 768 :=
  0xAA87CA22BE8B05378EB1C71EF320AD746E1D3B628BA79B9859F741E082542A385502F25DBF55296C3A545E3872760AB73617DE4A96262C6F5D9E98BF9292DC29F8F41DBD289A147CE9DA3113B5F0B8C00A60B1CE1D7E819D7A431D7C90EA0E5F

theorem witness_ProvisionFirmwareAndDebugMemoryWrites :
    State.reset.Accepts K.lifecycleProvision 0 (firstHigh 96 basePoint.toNat)
    ∧ (noon.Managed ∧ (List.replicate 1024 0xFF#8).length = 1024
      ∧ noon.serveWaiting.dictCheck false { writeReq K.fwLoadData 0 0 with length := 1024, value := List.replicate 1024 0xFF#8 } = D.ok)
    ∧ noon.Accepts K.fwLoadGo 0 1
    ∧ noon.Accepts K.debugMemData 0 (9#512).toNat
    ∧ (noon.Managed ∧ noon.serveWaiting.dictCheck false (readReq K.debugMemData) = D.ok) :=
  ⟨accepts rfl rfl (by decide +kernel), ⟨noon_managed, by decide +kernel, by decide +kernel⟩, accepts rfl rfl (by decide),
    accepts rfl rfl (by decide +kernel), noon_managed, by decide +kernel⟩

/-- Noon with an object's element at a value. -/
def withPar (s : State) (key e v : Nat) : State := { s with dict := { s.dict with inForce := (dictKey key e, v) :: s.dict.inForce } }

/-- Dawn, every memory port ONLINE, START_GO written. -/
def dawnReady : State := { provisioned with power := { started := true }, stripe := { ports := onlinePorts } }

theorem witness_BoundariesAndTheirSources :
    (noon.Managed ∧ noon.tick.running = true ∧ noon.par K.tickSource ≠ 1)
    ∧ (let s := withPar noon K.tickSource 0 1;
      s.Managed ∧ s.par K.tickSource = 1 ∧ s.power.started = true ∧ s.tick.frameOpen = true ∧ 1599 < 1600
        ∧ s.tick.running = true ∧ s.tick.holdover = false ∧ 1600 ≤ 1600)
    ∧ (let s := withPar (inPower 3) K.tickSource 0 1;
      s.Managed ∧ s.par K.tickSource = 1 ∧ s.power.state = 3 ∧ s.tick.frameOpen = true)
    ∧ (let s := { withPar noon K.tickSource 0 2 with links := { noMarkTicks := 4 } };
      s.Managed ∧ s.par K.tickSource = 2 ∧ s.tick.running = true ∧ 4 ≤ s.links.noMarkTicks ∧ s.tick.freeRun = false)
    ∧ (let s : State := { noon with tick := { startArmed := some (7, 0) } };
      s.Managed ∧ s.tick.startArmed = some (7, 0))
    ∧ (dawnReady.Running ∧ dawnReady.morningMayBegin = true ∧ dawnReady.par K.tickSource = 0)
    ∧ (∀ k ∈ [1, 2], let s := { withPar dawnReady K.tickSource 0 k with tick := { running := true } };
      s.Running ∧ s.morningMayBegin = true ∧ s.par K.tickSource = k ∧ s.tick.running = true)
    ∧ (let s := withPar dawnReady K.tickSource 0 2;
      s.Running ∧ s.morningMayBegin = true ∧ s.par K.tickSource ≠ 0 ∧ s.tick.running = false)
    ∧ (∀ e ∈ [(0, 0), (2, 0), (2, 5)], let s := withPar (withPar (inPower 2) K.tickSource 0 e.1) K.tickMasterChip 0 e.2;
      s.Managed ∧ s.tick.running = true ∧ s.par K.tickSource = e.1 ∧ s.power.state = 2
        ∧ s.power.target = none ∧ s.resets.l0s = [] ∧ s.replay.mode ≠ 2 ∧ s.replay.wanted = none
        ∧ (decide (s.par K.tickMasterChip = s.chipId)) = (e.2 == 0)) := by
  unfold State.Running State.Managed
  decide +kernel

/-- A record that is not delivered yet, and behind which none of its stream waits, is the one that its command serves. -/
theorem serves_itself {s : State} (d : Delivered) (h : s.links.inbox = []) (k : s.resets.night = false := by rfl) :
    s.Serves d d :=
  ⟨k, .inr ⟨by rw [h]; rfl, rfl, by rw [h]; rfl⟩⟩

/-- A record from the partner of link port 15. -/
def ofPort15 (vc family : Nat) (slot : BitVec 128) : Delivered :=
  { port := some 15, src := (noon.lport 15).partner, vc := vc, family := family, slots := [slot] }

theorem witness_TickMarksAndStarts : noon.Running ∧ noon.hasLink 15 = true
    ∧ noon.Serves (ofPort15 3 Fam.mgmt 0) (ofPort15 3 Fam.mgmt 0) := ⟨noon_running, by decide, serves_itself _ rfl⟩

/-- A Delay List with one entry that has expired, of context 40, for the request of sequence number 0 of flow 0. -/
def delayed (d : DelayEntry) : State := { noon with adm := { delay := [d], holds := [(5, { record := 2 ^ 66 + 2 ^ 147 })] } }

theorem witness_ExpiriesLeaveTheDelayLists :
    (let d : DelayEntry := { tested := true, gen := 1, release := true };
      (delayed d).Running ∧ (delayed d).expired = some d ∧ d.gen ≠ ((delayed d).ctx d.ctx).gen ∧ d.release = true)
    ∧ (let d : DelayEntry := { tested := true, gen := 1 };
      (delayed d).Running ∧ (delayed d).expired = some d ∧ d.gen ≠ ((delayed d).ctx d.ctx).gen ∧ d.release = false)
    ∧ (let d : DelayEntry := { tested := true, doneAtTick := true };
      (delayed d).expired = some d ∧ d.gen = ((delayed d).ctx d.ctx).gen ∧ d.release = false ∧ d.doneAtTick = true)
    ∧ (let d : DelayEntry := { tested := true };
      (delayed d).expired = some d ∧ d.gen = ((delayed d).ctx d.ctx).gen ∧ d.release = false ∧ d.doneAtTick = false)
    ∧ (let d : DelayEntry := { tested := true, release := true };
      (delayed d).Running ∧ (delayed d).expired = some d ∧ d.gen = ((delayed d).ctx d.ctx).gen ∧ d.release = true
        ∧ (delayed d).dropDelay.flowHold d.flow d.seq = some 5) := by
  unfold State.Running
  decide +kernel

/-- One task of an operation in slot 0, the one template of its instance. -/
def tasked (op : Nat) (q : Slot) : State := { noon with
  loader := { images := [(0, { templates := [BitVec.ofNat 256 (at' op 66 16)] })], instances := [{ base := some 0, count := 1, inst := 1 }] }
  mat := { slots := [(0, q)] } }

/-- The bytes of memory that hold a number. -/
def stored (addr n v : Nat) : List Host.Cell :=
  ((List.range n).map fun i => (addr + i, BitVec.ofNat 8 (v / 2 ^ (8 * i)))).filter fun c => c.2 ≠ 0

/-- A word that is a packet of its own. -/
def word1 : BitVec 512 := 0x6000010000000000#512

/-- Queue 3, an enabled DATA queue, at which a producer waits with a word. -/
def awaited (k : ProducerKind) (w : BitVec 512) : State := { noon with
  qs := { queues := [(3, { kind := 3, sizeLog2 := 6, enable := true, waiting := [({ kind := k }, w)] })] } }

theorem witness_QueueTasks :
    (let s := tasked Op.qEnqueue { state := .issued, cls := 0xC };
      s.Works 0 Op.qEnqueue (qEnqueueEff 0) ∧ (s.atWork 0).taskWaits 0 = false ∧ ((s.atWork 0).slot 0).request = 0)
    ∧ (let s := tasked Op.qEnqueue { state := .issued, cls := 0xC, request := 1 };
      s.Works 0 Op.qEnqueue (qEnqueueEff 0) ∧ (s.atWork 0).taskWaits 0 = false ∧ ((s.atWork 0).slot 0).request ≠ 0)
    ∧ (let s := tasked Op.qDequeue { state := .issued, cls := 0xC };
      s.Works 0 Op.qDequeue (qDequeueEff 0) ∧ ((s.atWork 0).requestBlock 0).1.following = false
        ∧ ((s.atWork 0).requestBlock 0).1.logRoom = true)
    ∧ (∀ e ∈ [(ProducerKind.link, word1), (.task, word1), (.task, 0)],
      let s := awaited e.1 e.2
      s.Running ∧ (s.queue 3).enable = true ∧ (s.queue 3).kind = 3
        ∧ (s.queue 3).waiting.find? (s.queue 3).serves = some ({ kind := e.1 }, e.2)
        ∧ decide ((s.queue 3).admits { kind := e.1 } e.2 = .taken) = (e.2 != 0)) := by
  unfold State.Works State.Running
  decide +kernel

/-- The bytes of an image of one step, whose two graphs are one null task, with a digest in its header. -/
def imageBytes (digest : Nat) : List (BitVec 8) :=
  leBytes 128 (0x47534947 + 0x20000 * 2 ^ 32 + 256 * 2 ^ 64 + 2 ^ 96 + digest * 2 ^ 128 + 128 * 2 ^ 768 + 192 * 2 ^ 832 + 224 * 2 ^ 896)
  ++ leBytes 64 (2 ^ 32 + 6 * 2 ^ 64 + 6 * 2 ^ 72 + 2 ^ 128) ++ leBytes 32 (0xF * 2 ^ 82) ++ leBytes 32 0

/-- Memory that holds the image, a window of partition 0 over it, and a load of it in progress. -/
def loading : State := { noon with
  dict := { inForce := [(dictKey K.stripeGroupSize 0, 12), (dictKey K.partitionWindow 0, 2 ^ 31 + 1)] }
  stripe := { ports := onlinePorts
              mem := memPut [] 0 (imageBytes 10475415033444533088234977252434162324805704364654282005729702010462802053327) }
  loader := { op := some {} } }

theorem loading_loads : ((loading.asking .loader).examineImage 0 0 0).2.1 = Load.loaded
    ∧ (State.endLoad (loading.asking .loader)).stripe.stuck = none := by decide +kernel

theorem witness_StepLoaderCommands :
    (loading.Running ∧ loading.loader.op = some {} ∧ ((loading.asking .loader).examineImage 0 0 0).2.1 = Load.loaded
      ∧ (State.endLoad (loading.asking .loader)).stripe.stuck = none ∧ (loading.asking .loader).logRoom = true)
    ∧ (let s : State := { group12 with loader := { op := some {} } };
      s.Running ∧ s.loader.op = some {} ∧ ((s.asking .loader).examineImage 0 0 0).2.1 ≠ Load.loaded
        ∧ (State.endLoad (s.asking .loader)).stripe.stuck = none)
    ∧ (let s : State := { noon with loader := { instances := [{}] } };
      s.Running ∧ s.loader.instances.find? (fun i => i.base.isNone && !s.tearing i.ctx) = some {} ∧ s.freeWindow 64 = some 0)
    ∧ (let i : Instance := { base := some 64, count := 1, prevDone := true };
      let s : State := { noon with loader := { instances := [i] }, mat := { slots := [(64, { state := .reserved })] } };
      s.Running ∧ s.inst 0 = some i ∧ i.base = some 64 ∧ i.inst < i.count ∧ (s.slot (i.slotOf i.inst)).state = .reserved
        ∧ s.tearing i.ctx = false ∧ i.prevDone = true) :=
  ⟨⟨⟨rfl, rfl⟩, rfl, loading_loads.1, loading_loads.2, by decide +kernel⟩,
    ⟨⟨rfl, rfl⟩, rfl, by decide +kernel, by decide +kernel⟩, ⟨⟨rfl, rfl⟩, by decide +kernel⟩, ⟨rfl, rfl⟩, by decide +kernel⟩

/-- A REQUEST queue 2 and a FLOW queue 3 of context 40, both enabled, which has a job; aperture 7 is bound to queue 2. -/
def queued : State := { noon with
  dict := { inForce := [(dictKey K.doorbellBind 7, 0x8002)] }
  qs := { queues := [(2, { enable := true, ctx := 40, sizeLog2 := 6 }), (3, { enable := true, kind := 1, ctx := 40, sizeLog2 := 6 }),
    (4, { kind := 2 })] }
  adm := { ctxs := [(40, { job := true })] } }

/-- A JOB_CLOSE of a context and generation. -/
def closing (ctx gen : Nat) : BitVec 512 := BitVec.ofNat 512 (cmdJobClose * 2 ^ 66 + ctx * 2 ^ 114 + gen * 2 ^ 98)

theorem witness_DoorbellsAnswerTheirRecords :
    (queued.Running ∧ 2047 < 2048 ∧ bit (queued.par K.doorbellBind 2047) 15 = false ∧ bit (queued.par K.doorbellBind 7) 15 = true)
    ∧ ((noon.queue 2).kind = 0 ∧ (noon.queue 2).enable = false)
    ∧ (let s : State := { queued with qs := { queues := [(2, { enable := true, ctx := 40 , tail := 1 })] } };
      ¬ (s.doorbellsClosed = true ∨ s.replaying = true ∨ (s.queue 2).enable = false) ∧ (s.queue 2).isFull = true)
    ∧ (∀ n ∈ [2, 3], ((queued.queue n).kind = 0 ∨ (queued.queue n).kind = 1)
      ∧ ¬ (queued.doorbellsClosed = true ∨ queued.replaying = true ∨ (queued.queue n).enable = false)
      ∧ ¬ ((queued.queue n).isFull = true ∨ queued.logRoom = false)
      ∧ Req.gen (closing 40 1) ≠ (queued.ctx (Req.ctx (closing 40 1))).gen
      ∧ Req.gen (closing 41 0) = (queued.ctx (Req.ctx (closing 41 0))).gen ∧ Req.ctx (closing 41 0) ≠ (queued.queue n).ctx)
    ∧ (let w := closing 40 0;
      Req.gen w = (queued.ctx (Req.ctx w)).gen ∧ Req.ctx w = (queued.queue 2).ctx
        ∧ queued.recordPart 0 w = some (Req.part w) ∧ queued.recordOk 0 w = true)
    ∧ (let w := BitVec.ofNat 512 (cmdJoin * 2 ^ 66 + 40 * 2 ^ 114 + 4 * 2 ^ 442);
      Req.gen w = (queued.ctx (Req.ctx w)).gen ∧ Req.ctx w = (queued.queue 3).ctx
        ∧ queued.recordPart 1 w = some (Req.part w) ∧ queued.recordOk 1 w = true) := by
  unfold State.Running
  decide +kernel

/-- Context 40 has a JOB_CLOSE in hold 9, and an earlier request that is complete or not. -/
def closes (done : Bool) : State := { noon with adm := {
  ctxs := [(40, { job := true, closePending := true, closeHold := some 9 })]
  holds := [(8, { record := closing 40 0, phase := if done then .complete else .admitted }), (9, { record := closing 40 0, at_ := 1 })] } }

/-- Flow 0, whose next result in sequence is in hold 9, releasable or not; its RESULT queue 4 has room or not. -/
def releasing (ready room : Bool) : State := { noon with
  qs := { queues := [(4, { kind := 2, enable := room, sizeLog2 := 6 })] }
  adm := { flows := [(0, { done := if ready then 1 else 0, resultQueue := 4 })]
           holds := [(9, { record := 2 ^ 66 + 2 ^ 147, phase := .complete })] } }

theorem witness_JobsCloseAndResultsLeave :
    (∀ b ∈ [true, false], (closes b).Running ∧ ((closes b).ctx 40).closeHold = some 9
      ∧ ((closes b).hold 9).any ((closes b).earlierDone ·) = b ∧ ((closes b).hold 9).isSome = true)
    ∧ noon.Running
    ∧ (∀ b ∈ [true, false], ∀ r ∈ [true, false],
      let t := (releasing b r).offerLeaves 0
      let e := t.flow 0
      (e.done.getLsbD 0 = b ∧ t.leaveWaits 0 = false ∧ t.flowHold 0 e.rel = some 9)
        ∧ (t.hold 9).any (fun h => t.resultRoom e.resultQueue h.words) = r) := by
  unfold State.Running
  decide +kernel

/-- A QUEUE record of one word for queue 1 from the partner of link port 15, and queue 1, enabled or not, full or not, or
with that record's producer waiting at it. -/
def queueRec : Delivered := { src := 7, vc := 2, family := Fam.queue, slots := BitVec.ofNat 128 (2 ^ 114 + 2 ^ 103) :: [word1].flatMap blockSlots }
def receiving (kind : Nat) (full waits : Bool) : State := { noon with qs := { queues := [(1, {
  kind := kind, enable := true, sizeLog2 := 6, tail := if full then 64 else 0
  waiting := if waits then [(queueRec.producer, word1)] else [] })] } }

theorem witness_AperturesFlushesAndQueueRecords :
    (noon.Running ∧ noon.apertureQueue 4095 = none)
    ∧ (let s : State := { noon with
        dict := { inForce := [(dictKey K.readBind 4095, 0x8001)] }
        qs := { queues := [(1, { kind := 3, enable := true, tail := 1, visible := 1, flushPending := true })] } };
      s.Running ∧ s.apertureQueue 4095 = some 1 ∧ (s.queue 1).flushPending = true ∧ (s.queue 1).packetOpen = false
        ∧ (s.queue 1).readOpen = false)
    ∧ (noon.queue 1).flushPending = false
    ∧ (∀ e ∈ [(2, false, false), (3, false, true), (3, false, false), (3, true, false)],
      let s := receiving e.1 e.2.1 e.2.2
      let q := s.queue (bits (queueRec.slots.headD 0) 114 14)
      let r := State.offerWords (bits (queueRec.slots.headD 0) 114 14) queueRec.producer queueRec.got s
        (queueRec.queueWords.drop queueRec.got)
      s.Running ∧ q.enable = true ∧ q.kind = e.1 ∧ q.part = bits (queueRec.slots.headD 0) 110 4
        ∧ (q.waiting.any fun x => x.1 == queueRec.producer) = e.2.2
        ∧ (e.1 = 3 → e.2.2 = false → decide (queueRec.queueWords.length ≤ r.1) = !e.2.1)) := by
  unfold State.Running
  decide +kernel

theorem queueRec_serves (e : Nat × Bool × Bool) : (receiving e.1 e.2.1 e.2.2).Serves queueRec queueRec := serves_itself _ rfl

/-- A token for slot 19 of context 40, which waits for a count of 2 or for its operand 1. -/
def tok (v : Nat) : BitVec 128 := BitVec.ofNat 128 (40 * 2 ^ 36 + 19 * 2 ^ 17 + v)

/-- A state in which it waits at bank 3. -/
def tokened (v : Nat) : State := { noon with
  loader := { images := [(0, { templates := [BitVec.ofNat 256 (2 * 2 ^ 86)] })], instances := [{ base := some 0, count := 1, inst := 1 }] }
  mat := { tokens := [tok v], slots := [(19, { state := .waiting, ctx := 40, counter := 2 })] } }

/-- What the clauses on tokens that meet their slot have in common. -/
def tokenMeets (v : Nat) : Prop := (tokened v).Running ∧ (tokened v).mat.tokens.find? (fun t => Tok.slot t % 16 == 3) = some (tok v)
  ∧ Tok.slot (tok v) = 19 ∧ Tok.gen (tok v) = ((tokened v).ctx (Tok.ctx (tok v))).gen ∧ ((tokened v).slot 19).ctx = Tok.ctx (tok v)
  ∧ ((tokened v).slot 19).state = .waiting

theorem witness_TokensAreMatched :
    ((tokened (2 ^ 48)).Running ∧ Tok.gen (tok (2 ^ 48)) ≠ ((tokened (2 ^ 48)).ctx (Tok.ctx (tok (2 ^ 48)))).gen)
    ∧ ((tokened (5 * 2 ^ 36)).Running ∧ Tok.gen (tok (5 * 2 ^ 36)) = 0
      ∧ ((tokened (5 * 2 ^ 36)).slot 19).ctx ≠ Tok.ctx (tok (5 * 2 ^ 36)))
    ∧ (tokenMeets 3 ∧ Tok.isOperand (tok 3) = false ∧ Tok.count (tok 3) > ((tokened 3).slot 19).counter)
    ∧ (tokenMeets 2 ∧ Tok.isOperand (tok 2) = false ∧ Tok.count (tok 2) ≤ ((tokened 2).slot 19).counter)
    ∧ (tokenMeets (2 ^ 14) ∧ Tok.isOperand (tok (2 ^ 14)) = true
      ∧ Tpl.operandMask ((tokened (2 ^ 14)).slotTpl 19) &&& mask4 (Tok.operand (tok (2 ^ 14))) = 0)
    ∧ (tokenMeets (3 * 2 ^ 14) ∧ Tok.isOperand (tok (3 * 2 ^ 14)) = true
      ∧ Tpl.operandMask ((tokened (3 * 2 ^ 14)).slotTpl 19) &&& mask4 (Tok.operand (tok (3 * 2 ^ 14))) ≠ 0
      ∧ ((tokened (3 * 2 ^ 14)).slot 19).present &&& mask4 (Tok.operand (tok (3 * 2 ^ 14))) = 0) := by
  unfold tokenMeets State.Running
  decide +kernel

/-- Engine port 0, enabled for class 0 of partition 0 with a scratchpad of 64 KiB, in a state; pre-emption is enabled. -/
def engined (e : EnginePort) : State := { noon with
  clk := { abs := 2 ^ 40 }
  dict := { inForce := [(dictKey K.enginePortConfig 0, 0x100), (dictKey K.scratchBytes 0, 65536), (dictKey K.preemptEnable 0, 1)] }
  disp := { ports := [(0, e)], maps := [(mapKey 0 0 0, 128)] } }

theorem witness_TasksResolveIssueAndRetire :
    (let s := tasked 0 { state := .held };
      s.Running ∧ (s.slot 0).state = .held ∧ (s.slot 0).parked = false ∧ s.holds 0 = false ∧ s.tearing (s.slot 0).ctx = false)
    ∧ (let s := tasked 0 { state := .ready, cls := 0xF };
      s.Running ∧ (s.slot 0).state = .ready ∧ s.nullRoom = true ∧ s.tearing (s.slot 0).ctx = false ∧ (s.slot 0).cls = 0xF)
    ∧ (let t := tasked 0 { state := .ready, cls := 0xC, resolved := true };
      t.Running ∧ (t.slot 0).state = .ready ∧ t.nullRoom = true ∧ (t.slot 0).resolved = true)
    ∧ (let t := tasked 0 { state := .ready, cls := 0, empty := 1 };
      let s : State := { t with loader := { t.loader with images := [(0, { templates := [BitVec.ofNat 256 (2 ^ 86)] })] } };
      s.Running ∧ (s.slot 0).state = .ready ∧ s.nullRoom = true ∧ (s.slot 0).skips (s.slotTpl 0) = true)
    ∧ (let s := engined { epReady := true, discards := [{}] };
      s.Running ∧ 0 < s.dispatchers ∧ (s.tryDiscard 0).isSome = true)
    ∧ (let s := engined { epReady := true, resetN := true, suspects := [7], replaying := true };
      s.Running ∧ (s.tryDiscard 0).isNone = true ∧ (s.trySuspect 0).isSome = true)
    ∧ (let s : State := { engined { epReady := true, bound := some 7 } with mat := { ready := [{ slot := 7 }] } };
      s.Running ∧ (s.tryDiscard 0).isNone = true ∧ (s.trySuspect 0).isNone = true ∧ (s.tryBound 0).isSome = true)
    ∧ (let s : State := { noon with mat := { ready := [{ slot := 0, data := true }] } };
      s.Running ∧ (s.tryDiscard 0).isNone = true ∧ (s.trySuspect 0).isNone = true ∧ (s.tryBound 0).isNone = true
        ∧ (s.tryBand 0 false).isSome = true)
    ∧ (let s : State := { noon with mat := { ready := [{ slot := 0, data := true }], slots := [(0, { tin := true })] } };
      s.Running ∧ (s.tryDiscard 0).isNone = true ∧ (s.trySuspect 0).isNone = true ∧ (s.tryBound 0).isNone = true
        ∧ (s.tryBand 0 false).isNone = true ∧ (s.tryBand 0 true).isSome = true)
    ∧ (let t := tasked 0 { state := .done };
      let s : State := { t with mat := { t.mat with pend := [{}] } };
      s.Running ∧ s.mat.pend.find? (fun c => !c.fenced && !s.tearing (s.slot c.slot).ctx) = some {}
        ∧ (s.inst (s.slot 0).inst).isSome = true) := by
  unfold State.Running
  decide +kernel

theorem witness_EngineRecords :
    (let s : State := { engined { held := some 7, resetN := true } with mat := { slots := [(7, { state := .issued })] } };
      s.Running ∧ s.hasEngine 0 = true ∧ (s.port 0).failed = false ∧ (s.port 0).resetN = true ∧ (s.port 0).held = some 7
        ∧ (s.port 0).expired = false ∧ Cmpl.status 0 = 0 ∧ Cmpl.status 1 = 1 ∧ 2 ≤ Cmpl.status 3 ∧ s.overdue 7 = true)
    ∧ (∀ b ∈ [true, false], let s := engined { resetN := true, expired := b };
      s.Running ∧ s.hasEngine 0 = true ∧ (s.port 0).failed = false ∧ (s.port 0).resetN = true
        ∧ (s.port 0).held = none ∧ (s.port 0).expired = b)
    ∧ (let c : PendingCompletion := { port := some 0, fenced := true };
      let s : State := { engined {} with mat := { pend := [c] } };
      s.Running ∧ s.mat.pend = [c] ∧ s.writesOf c.slot = 0) := by
  unfold State.Running
  decide +kernel

theorem witness_PreemptionSwitchesTasks :
    (let s : State := { engined { held := some 7 } with
        mat := { ready := [{ slot := 1 }], slots := [(1, { state := .ready }), (7, { state := .issued, tin := true })] } };
      s.Running ∧ s.hasEngine 0 = true ∧ s.claimant 0 = some { slot := 1 } ∧ ({ slot := 1 } : ReadyEntry).refused = false
        ∧ bit (s.par K.preemptEnable) (s.slot 1).part = true ∧ s.isBound 1 = false
        ∧ s.par K.preemptWaitHc ≤ s.clk.abs - 0 ∧ s.victimPort 0 = some 0)
    ∧ (let s := engined { held := some 7, resetN := true, preempt := true, preemptTag := true };
      s.Running ∧ (s.port 0).preempt = true ∧ (s.port 0).held.isSome = true ∧ (s.port 0).lateCounted = false
        ∧ (s.port 0).failed = false ∧ (s.port 0).resetN = true ∧ (s.port 0).expired = false ∧ (s.port 0).preemptTag = (s.port 0).issueTag
        ∧ Yield.live 65536 % 64 = 0 ∧ Yield.live 65536 ≤ s.scratch (Cfg.cls (s.portConfig 0))
        ∧ ¬ Yield.live 65537 % 64 = 0 ∧ s.tearing (s.slot 7).ctx = false)
    ∧ (let s := engined { held := some 7, resetN := true };
      s.Running ∧ (s.port 0).resetN = true ∧ (s.port 0).expired = false ∧ (s.port 0).preempt = false)
    ∧ (let s : State := { engined { held := some 7, resetN := true, preempt := true, preemptTag := true } with
        adm := { ctxs := [(0, { tearing := .draining })] } };
      s.Running ∧ (s.port 0).held = some 7 ∧ (s.port 0).resetN = true ∧ (s.port 0).expired = false
        ∧ (s.port 0).preempt = true ∧ s.tearing (s.slot 7).ctx = true)
    ∧ (let w : Switch := { spilling := true, spills := [{}] };
      let s := engined { sw := some w };
      s.Running ∧ (s.port 0).sw = some w ∧ w.spilling = true ∧ w.spills = {} :: [] ∧ s.writesOf 0 = 0)
    ∧ (∀ l ∈ [[], [({} : SysDesc)]],
      let w : Switch := { incoming := some 7, restores := l };
      (engined { sw := some w }).Running ∧ ((engined { sw := some w }).port 0).sw = some w ∧ w.spills = [] ∧ w.spilling = false
        ∧ w.incoming = some 7 ∧ (engined { sw := some w }).tearing ((engined { sw := some w }).slot 7).ctx = false
        ∧ (engined { sw := some w }).comesIn w = true ∧ (engined { sw := some w }).resumeHeld 7 = false)
    ∧ (let w : Switch := { incoming := some 7 };
      let s : State := { engined { sw := some w } with
        mat := { slots := [(7, { resume := true })] }, loader := { instances := [{ hold := 5 }] }
        adm := { flows := [(0, { state := .suspended })], holds := [(5, { record := 2 ^ 66 + 2 ^ 146 + 2 ^ 147 })] } };
      s.Running ∧ (s.port 0).sw = some w ∧ s.tearing (s.slot 7).ctx = false ∧ s.resumeHeld 7 = true)
    ∧ (let w : Switch := { incoming := some 7 };
      let s : State := { engined { sw := some w } with adm := { ctxs := [(0, { tearing := .draining })] } };
      s.Running ∧ (s.port 0).sw = some w ∧ s.tearing (s.slot 7).ctx = true) := by
  unfold State.Running
  decide +kernel

theorem witness_EnginePortsAndStalls :
    (∀ b ∈ [true, false], let s := engined { resetN := true, inL1 := b, epReady := true };
      s.Running ∧ s.hasEngine 0 = true ∧ (s.port 0).failed = false ∧ (s.port 0).resetN = true ∧ (s.port 0).inL1 = b
        ∧ (s.port 0).epReady = true)
    ∧ (∀ b ∈ [true, false], let s := engined { inL1 := true, epReady := b };
      s.Running ∧ (s.port 0).inL1 = true ∧ (s.port 0).resetN = false ∧ s.resets.night = false ∧ s.power.state ≠ 2
        ∧ (s.port 0).epReady = b)
    ∧ (let s := engined { inL1 := true, resetN := true };
      s.Running ∧ s.hasEngine 0 = true ∧ (s.port 0).inL1 = true ∧ (s.port 0).resetN = true)
    ∧ (let s := engined { restoring := true };
      s.Running ∧ (s.port 0).restoring = true)
    ∧ (let s : State := { noon with disp := { unitStopReq := [0, 0x40] } };
      s.Running ∧ ∀ u ∈ [0, 0x40], s.disp.unitStopReq.contains u = true ∧ s.unitIdle u = true)
    ∧ (let s := tasked Op.digest { state := .issued, cls := 0xC };
      s.Running ∧ (s.slot 0).state = .issued ∧ (s.slot 0).cls = 0xC ∧ s.overdue 0 = true ∧ s.mat.aborts.contains 0 = false)
    ∧ (let s : State := { noon with mat := { aborts := [524287] } };
      s.Running ∧ s.mat.aborts.contains 524287 = true)
    ∧ (let s : State := { noon with mat := { ready := [{ slot := 0, data := true }] } };
      s.Running ∧ s.hasCandidate 0 = true)
    ∧ (let s : State := { noon with mat := { ready := [{ slot := 0 }], slots := [(0, { cls := 5 })] } };
      s.Running ∧ (s.mat.ready.any fun e => e.slot == 0 && !e.data) = true
        ∧ ∀ e < 64, ∀ q ∈ s.mapPort (s.slot 0).part (s.slot 0).cls e, s.portWorks q = false) := by
  unfold State.Running
  refine ⟨?_, ?_, ?_, ?_, ?_, ?_, ?_, ?_, ?_⟩
  all_goals decide +kernel

/-- Object 9, barrier 9, each open or not, of context 0; 2 parties, one of which has arrived. -/
def signalled (o : SigObj) (b : Barrier) : State := { noon with sig := { objs := [(9, o)], barriers := [(9, b)] } }

/-- A command for NUMBER 9 of this chip. -/
def command9 (op amount : Nat) : BitVec 64 := mkCommand 0 9 amount op 0

theorem witness_SignalsAndArrivalsApply :
    (Sig.bad (command9 2 1) = true ∧ Sig.bad (command9 0 1) = false ∧ Sig.op (command9 0 1) ≠ 1 ∧ Sig.number (command9 0 1) = 9
      ∧ Sig.amount (command9 0 1) = 1)
    ∧ ((signalled {} {}).objLive 9 = false)
    ∧ (let s := signalled { open_ := true, count := 0xFFFFFFFE } {};
      s.objLive 9 = true ∧ (s.obj 9).aligned = false ∧ (s.obj 9).binary = false ∧ (s.obj 9).count = 0xFFFFFFFE)
    ∧ (let s := signalled { open_ := true, count := 0xFFFFFFFF, aligned := true } {};
      s.objLive 9 = true ∧ s.stampLater (command9 0 1) = false ∧ (s.obj 9).binary = false
        ∧ (s.obj 9).count = 0xFFFFFFFF)
    ∧ (∀ k ∈ [0, 1], (signalled { open_ := true, binary := true, count := BitVec.ofNat 32 k } {}).objLive 9 = true
      ∧ ((signalled { open_ := true, binary := true, count := BitVec.ofNat 32 k } {}).obj 9).count = BitVec.ofNat 32 k)
    ∧ (Sig.bad (command9 1 0) = false ∧ Sig.op (command9 1 0) = 1 ∧ (signalled {} {}).barrierLive 9 = false)
    ∧ (let s := signalled {} { open_ := true, parties := 2 };
      s.barrierLive 9 = true ∧ (s.barrier 9).arrived + 1 < (s.barrier 9).parties)
    ∧ (let s := signalled {} { open_ := true, parties := 2, arrived := 1 };
      s.barrierLive 9 = true ∧ (s.barrier 9).parties ≤ (s.barrier 9).arrived + 1)
    ∧ (noon.Running ∧ Sig.chip (command9 0 1) = noon.chipId ∧ Sig.chip (mkCommand 7 9 1 0 0) ≠ noon.chipId)
    ∧ (∀ n ∈ [4095, 4096],
      let s : State := { signalled { open_ := true, aligned := true } {} with
        sig := { objs := [(9, { open_ := true, aligned := true })], held := List.replicate n {} } };
      s.Running ∧ s.mustWait (mkCommand 0 9 1 0 1) = (n == 4096))
    ∧ (noon.Running ∧ noon.sourceOf (.queue 3) = some (.queue 3) ∧ noon.sourceOf .hostDma = some .hostDma
      ∧ noon.sig.inbound.find? (fun c => c.isFrom (.queue 3) (command9 0 1)) = none
      ∧ noon.writesBefore (noon.handed .hostDma (command9 0 1)) = true
      ∧ noon.writesBefore (noon.handed (.queue 3) (command9 1 1)) = true ∧ noon.logRoom = true)
    ∧ (let s : State := { noon with replay := { mode := 1, backlog := [0] } };
      s.Running ∧ s.sourceOf .hostDma = some .hostDma ∧ s.sig.inbound.find? (fun c => c.isFrom .hostDma (command9 0 1)) = none
        ∧ s.writesBefore (s.handed .hostDma (command9 0 1)) = true ∧ s.logRoom = false) := by
  unfold State.Running
  decide +kernel

/-- A command of each kind from the partner of link port 15 is served where nothing of its stream waits. -/
theorem witness_SignalsArriveOverLinks (cmd : BitVec 64) :
    noon.Serves (ofPort15 (if Sig.op cmd = 1 then 3 else 2) Fam.signal (cmd.setWidth 128))
      (ofPort15 (if Sig.op cmd = 1 then 3 else 2) Fam.signal (cmd.setWidth 128)) := serves_itself _ rfl

theorem witness_StaleEngineSignalsAreDropped :
    (let w : SigCmd := { cmd := command9 0 1, src := .engine 3 40 1 };
      let s : State := { noon with sig := { inbound := [w] } };
      s.Running ∧ s.sig.inbound.find? (fun x => x.isFrom (.engine 3) (command9 0 1)) = some w ∧ w.src = .engine 3 40 1
        ∧ s.writesBefore w = true ∧ s.sourceWaits w.src = false ∧ (1 : BitVec 16) ≠ (s.ctx 40).gen)
    ∧ ((engined { held := some 7 }).port 0).held = some 7 := by
  unfold State.Running
  decide +kernel

/-- A held task of an operation with an argument. -/
def examining (op arg : Nat) (o : SigObj) (b : Barrier) : State :=
  let s := tasked op { state := .held, cls := 0xC }
  { s with
    loader := { s.loader with images := [(0, { templates := [BitVec.ofNat 256 (at' op 66 16 + at' arg 208 48)] })] }
    sig := { objs := [(9, o)], barriers := [(9, b)] } }

/-- What a SIG_WAIT of object 9 for a count meets. -/
def waits (k : Nat) (o : SigObj) : Prop :=
  let s := examining Op.sigWait (9 * 2 ^ 30 + k) o {}
  s.Running ∧ s.examined 0 Op.sigWait = true ∧ fld (Tpl.arg (s.slotTpl 0)) 30 18 = 9 ∧ fld (Tpl.arg (s.slotTpl 0)) 0 30 = k
    ∧ (s.obj 9) = o

theorem witness_WaitsArrivalsAndPosts :
    waits 0 { open_ := true } ∧ (waits 2 { open_ := true, binary := true }) ∧ (waits 1 {})
    ∧ (waits 1 { open_ := true, gen := 1 } ∧ (examining Op.sigWait 0 { open_ := true, gen := 1 } {}).objLive 9 = false)
    ∧ (waits 3 { open_ := true, count := 3 } ∧ (examining Op.sigWait 0 { open_ := true } {}).objLive 9 = true)
    ∧ waits 3 { open_ := true, count := 2 }
    ∧ (∀ b ∈ [({} : Barrier), { open_ := true, gen := 1 }, { open_ := true }],
      let s := examining Op.barrierArrive (9 * 2 ^ 30) {} b;
      s.Running ∧ s.examined 0 Op.barrierArrive = true ∧ fld (Tpl.arg (s.slotTpl 0)) 30 12 = 9 ∧ s.barrier 9 = b
        ∧ s.barrierLive 9 = (b.open_ && b.gen == 0))
    ∧ (let t := examining Op.sigPost (9 * 2 ^ 30 + 2 ^ 2) {} {};
      let s : State := { t with mat := { slots := [(0, { state := .ready, cls := 0xC })] } };
      s.Running ∧ (s.slot 0).state = .ready ∧ (s.slot 0).cls = 0xC ∧ (s.slot 0).resolved = false
        ∧ s.postsHere (s.slotTpl 0) = true ∧ s.tearing (s.slot 0).ctx = false ∧ s.sourceWaits (.task 0) = false)
    ∧ (let s := tasked Op.sigPost { state := .issued, cls := 0xC };
      s.Works 0 Op.sigPost (fun s => if (s.slot 0).unaccepted = 0 then s.postAway 0 else s)
        ∧ ((s.atWork 0).slot 0).unaccepted = 0) := by
  unfold waits State.Works State.Running
  decide +kernel

theorem witness_DmaTasksAndAborts :
    (tasked Op.dmaCopy { state := .issued, cls := 0xC }).Works 0 Op.dmaCopy (dmaCopyEff 0)
    ∧ (tasked Op.dmaFill { state := .issued, cls := 0xC }).Works 0 Op.dmaFill (dmaFillEff 0)
    ∧ (tasked Op.digest { state := .issued, cls := 0xC }).Works 0 Op.digest (digestEff 0)
    ∧ (let s : State := { noon with mat := { aborts := [524287] } };
      s.Running ∧ s.mat.aborts.contains 524287 = true) := by
  unfold State.Works State.Running
  decide +kernel

/-- A data task of an operation, issued, of a context in which nothing is torn down. -/
def working (op : Nat) : State := tasked op { state := .issued, cls := 0xC }

/-- A partial that has left, of tag 5, for a pool or a score request. -/
def parted (score : Bool) : State := { noon with emb := { partials := [{ tag := 5, sent := true, score := score }] } }

theorem witness_LookupsAndRemotePartials :
    (∀ op ∈ [Op.embGather, Op.embPool, Op.embScore],
      (working op).Works 0 op (fun s => s.lookup 0 op) ∧ ((working op).atWork 0).embStopped = false
        ∧ ((working op).atWork 0).lookupOf 0 = none)
    ∧ (noon.Running ∧ noon.embStopped = false ∧ noon.tick.frameOpen = true ∧ noon.tick.exchangePointDone = false)
    ∧ (∀ k ∈ [0, 1, 2, 3], Rem.kind (BitVec.ofNat 128 (k * 2 ^ 8)) = k)
    ∧ (∀ b ∈ [true, false], let h := BitVec.ofNat 128 (5 * 2 ^ 72 + 0x30);
      Status.ofFinal (Rem.status h) = none ∧ Rem.status h ≠ 0
        ∧ (parted b).pendingFor h b = some { tag := 5, sent := true, score := b })
    ∧ (noon.pendingFor (BitVec.ofNat 128 (2 ^ 8)) false = none ∧ noon.pendingFor (BitVec.ofNat 128 (3 * 2 ^ 8)) true = none)
    ∧ (∀ b ∈ [true, false], (parted b).Running ∧ (parted b).embStopped = false
      ∧ (parted b).pendingFor (BitVec.ofNat 128 (5 * 2 ^ 72 + 2 ^ 8)) b = some { tag := 5, sent := true, score := b }
      ∧ (parted b).emb.partials.find? (fun p => p.sent && p.tag.toNat == 5) = some { tag := 5, sent := true, score := b })
    ∧ (noon.tickLater (Rem.tick (2 ^ 96 : BitVec 128)) = true ∧ noon.tickLater (Rem.tick (0 : BitVec 128)) = false
      ∧ ∀ k ∈ [0, 2],
        let r : RemoteRec := { header := BitVec.ofNat 128 (k * 2 ^ 8) }
        let f (t : State) : State := if k = 0 then t.servePool r else t.serveScore r
        (f (noon.asking r.reader)).stripe.stuck = none
          ∧ ((f (noon.asking r.reader)).stripe.heldReads.any fun h => h.src == r.reader) = false) := by
  unfold State.Works State.Running
  decide +kernel

/-- Overlay entry 3, in a state; row 3 of table 0 is in a migration. -/
def overlaid (e : Overlay) : State := { noon with
  dict := { inForce := [(dictKey K.foldEnable 0, 1)] }
  tick := { noon.tick with number := 1000000 }
  emb := { overlay := [(3, e)], folds := [{ index := 3 }], migrations := [{ row := 3 }] } }

/-- Row 3 of table 0 is in a migration, and the overlay map is empty. -/
def migrating : State := { noon with emb := { migrations := [{ row := 3 }] } }

/-- The row takes the first of the entries it may have, wherever the hash function puts them. -/
theorem migrating_takes : ∃ i, migrating.takeableOvl 0 3 false = some i ∧ (migrating.ovl i).versions = []
    ∧ (migrating.ovl i).hasRoom = true ∧ (migrating.newestBytes 0 3 1).2.1 = .ok := by
  have h : ∀ i, migrating.ovl i = {} := fun _ => rfl
  have n : migrating.newest 0 3 = none := by simp [State.newest, State.findOvl, State.findOvlOf, h]
  refine ⟨(migrating.probes 0 3).head (by simp [State.probes]), ?_, by rw [h], by rw [h]; rfl, ?_⟩
  · simp [State.takeableOvl, State.findOvl, State.findOvlOf, State.probes, h, List.range_succ]
  · simp only [State.newestBytes, n]
    decide +kernel

/-- The same with a row of 16 bytes that no memory port gives. -/
def unread : State := { migrating with emb := { migrating.emb with tables := [(0, { desc := 2 ^ 281 })] } }

theorem unread_fails : (unread.newestBytes 0 3 1).2.1 ≠ .ok := by
  have h : ∀ i, unread.ovl i = {} := fun _ => rfl
  have n : unread.newest 0 3 = none := by simp [State.newest, State.findOvl, State.findOvlOf, h]
  simp only [State.newestBytes, n]
  decide +kernel

theorem witness_UpdatesFoldsAndMigrations :
    ((working Op.embUpdate).Works 0 Op.embUpdate (embUpdateEff 0) ∧ (working Op.embUpdate).embStopped = false
      ∧ ((working Op.embUpdate).atWork 0).embStopped = false ∧ ((working Op.embUpdate).atWork 0).updateOf 0 = none
      ∧ (State.advanceUpdate ((working Op.embUpdate).asking (.task 0 0)) 0).stripe.stuck = none)
    ∧ (let s := overlaid { inUse := true, versions := [{ loc := .memory }] };
      s.Running ∧ s.embStopped = false ∧ s.par K.foldEnable ≠ 0 ∧ s.foldable 3 = some { loc := .memory }
        ∧ (s.newestBytes (s.ovl 3).table (s.ovl 3).row 1).2.1 = .ok)
    ∧ (let s := overlaid { inUse := true, folding := true };
      s.Running ∧ s.embStopped = false ∧ s.emb.folds.any (fun f => f.index == 3) = true ∧ (s.ovl 3).hasRoom = true)
    ∧ (let v : Version := { stamp := (overlaid {}).nextTick.truncate 32 }
      let s := overlaid { inUse := true, folding := true, versions := [{}, {}, {}, v] };
      (s.ovl 3).hasRoom = false ∧ ∃ w ∈ (s.ovl 3).versions, w.stamp = s.nextTick.truncate 32)
    ∧ (migrating.Running ∧ migrating.emb.migrations.find? (fun m => m.table == 0 && m.row == 3 && !m.published) = some { row := 3 }
        ∧ (migrating.table 0).state = 0)
    ∧ (unread.Running ∧ unread.embStopped = false
      ∧ unread.emb.migrations.find? (fun m => m.table == 0 && m.row == 3 && !m.published) = some { row := 3 })
    ∧ (let s := overlaid { inUse := true, idle := 2 ^ 40, versions := [{ loc := .hot }] };
      s.Running ∧ s.embStopped = false ∧ (s.ovl 3).inUse = true ∧ (s.ovl 3).replica = false ∧ (s.ovl 3).demote = false
        ∧ (s.ovl 3).versions.getLast? = some { loc := .hot } ∧ s.par K.hotIdleTicks ≤ (s.ovl 3).idle) := by
  unfold State.Works State.Running
  decide +kernel

/-- A table with a swap or a scan in progress, of no rows. -/
def scanning : State := { noon with emb := { tables := [(7, { swap := some {}, scan := some 0 })] } }

theorem witness_ReplicasAndScans :
    (noon.Running ∧ noon.embStopped = false ∧ ∀ k ∈ [0, 1, 2], Rep.kind (BitVec.ofNat 128 (k * 2 ^ 10)) = k
      ∧ (ofPort15 0 Fam.replica (BitVec.ofNat 128 (k * 2 ^ 10))).slots = [BitVec.ofNat 128 (k * 2 ^ 10)])
    ∧ noon.findOvl 0 0 true = none
    ∧ (scanning.Running ∧ (scanning.table 7).swap = some {} ∧ (scanning.table 7).scan = some 0
      ∧ (scanning.scanInactive 7).2 = some 0 ∧ (scanning.scanRows 7 (fun s i => s.readRow none 7 i false 0 1)).2 = some 0) := by
  unfold State.Running
  decide +kernel

/-- The request of an EXP_SELECT of one token and one expert, and memory that holds it; writes to the row of its
outputs wait behind one that is held. -/
def selecting : State :=
  let s := working Op.expSelect
  let r := 192 * 2 ^ 448 + 64 * 2 ^ 384 + 65792 * 2 ^ 320 + 65856 * 2 ^ 256 + 128 * 2 ^ 192 + 2 ^ 143 + 2 ^ 129 + 2 ^ 115 + 2 ^ 111 + 2 ^ 98
  { s with
    dict := { inForce := [(dictKey K.stripeGroupSize 0, 12), (dictKey K.partitionWindow 0, 2 ^ 31 + 1)] }
    stripe := { ports := onlinePorts, mem := memPut [] 0 (leBytes 64 r), heldWrites := [{ addr := 65536 }] } }

/-- An exchange of tag 0 is open, as many as given with the tags after it. -/
def exchanging (op n : Nat) : State :=
  let s := working op
  { s with route := { exchanges := (List.range n).map fun i => { tag := BitVec.ofNat 32 i } } }

theorem witness_RoutingTasks :
    (let y := selecting.atWork 0
      let t := (y.requestBlock 0).1
      let r := (y.requestBlock 0).2.2
      let map := t.readArray 0 (Sel.mapAddr r) 4 (Sel.experts r)
      let group := map.1.readArray 0 (Sel.groupAddr r) 2 (Sel.group r)
      selecting.Works 0 Op.expSelect (expSelectEff 0) ∧ (y.requestBlock 0).2.1 = .ok ∧ Sel.inRange r = true ∧ Sel.cap r ≠ 0
        ∧ Sel.experts r = 1 ∧ Sel.group r = 1 ∧ Sel.tokens r = 1
        ∧ (map.2 ++ group.2).foldl (fun st e => st.worse e.1) Status.ok = .ok
        ∧ group.1.groupOk (group.2.map (·.2)) = true ∧ mapOk (map.2.map (·.2)) (group.2.map (·.2)) = true
        ∧ (group.1.readScores 0 r).2.1 = .ok)
    ∧ (let s : State := { selecting with stripe := { ports := onlinePorts } };
      s.Works 0 Op.expSelect (expSelectEff 0) ∧ ((s.atWork 0).requestBlock 0).2.1 = .ok
        ∧ Sel.inRange ((s.atWork 0).requestBlock 0).2.2 = false)
    ∧ (let s : State := { selecting with stripe := { expired := [.task 0 0] } };
      s.Works 0 Op.expSelect (expSelectEff 0) ∧ ((s.atWork 0).requestBlock 0).2.1 ≠ .ok)
    ∧ (∀ k ∈ [7, 8], let y := (exchanging Op.expSend k).atWork 0;
      (exchanging Op.expSend k).Works 0 Op.expSend (expSendEff 0) ∧ (y.slot 0).unaccepted = 0
        ∧ y.route.sendWaits.contains 0 = false ∧ y.route.exchanges.length = k)
    ∧ (let s : State := { working Op.expSend with route := { sendWaits := [0] } };
      s.Running ∧ s.route.sendWaits = 0 :: [] ∧ s.route.exchanges.length < 8 ∧ s.isItem 0 Op.expSend = true)
    ∧ (∀ k ∈ [0, 1], let y := (exchanging Op.expReturn k).atWork 0;
      (exchanging Op.expReturn k).Works 0 Op.expReturn (expReturnEff 0) ∧ (y.slot 0).unaccepted = 0
        ∧ (y.exchange (y.argTag 0)).isSome = (k == 1))
    ∧ (∀ op ∈ [Op.expRecv, Op.expCollect],
      let s : State := { examining op 0 {} {} with route := { exchanges := [{}] } };
      s.Running ∧ s.examined 0 op = true ∧ s.exchange (s.argTag 0) = some {}) := by
  unfold State.Works State.Running
  refine ⟨?_, ?_, ?_, ?_, ?_, ?_, ?_⟩
  all_goals decide +kernel

/-- A record of an exchange to come, and a chip with others of it in the early buffer. -/
def comingRec : RemoteRec := { header := BitVec.ofNat 128 (2 ^ 96) }
def earlyHeld (l : List RemoteRec) : State := { noon with route := { early := l } }

/-- The record is held where the early buffer is full. -/
theorem early_full (l : List RemoteRec) (h : (l.map recordBeats).sum = 4096) : (earlyHeld l).recordHeld comingRec = true := by
  have later : (earlyHeld l).tagLater (Exc.tag comingRec.header) = true := by
    show noon.tagLater (Exc.tag comingRec.header) = true
    decide
  have none : (earlyHeld l).exchange (Exc.tag comingRec.header) = none := rfl
  have beats : recordBeats comingRec = 1 := by decide
  unfold State.recordHeld
  rw [none, later]
  simp [earlyHeld, h, beats]

theorem witness_ExchangeRecords_held : ∃ l, (earlyHeld l).Running ∧ (earlyHeld l).recordHeld comingRec = true :=
  ⟨List.replicate 4096 comingRec, ⟨rfl, rfl⟩, early_full _ (by
    rw [List.map_replicate, List.sum_replicate, show recordBeats comingRec = 1 by decide]; rfl)⟩

theorem witness_ExchangeRecords :
    (∀ k ∈ [0, 1, 2, 3], Exc.kind (BitVec.ofNat 128 (k * 2 ^ 81)) = k)
    ∧ (let s := exchanging Op.expSend 1;
      s.Running ∧ s.recordHeld {} = false ∧ (s.exchange (Exc.tag 0)).isSome = true)
    ∧ (let s := exchanging Op.expSend 1
      let h := BitVec.ofNat 128 (0x30 * 2 ^ 29);
      s.recordHeld { header := h } = false ∧ Status.ofFinal (Exc.status h) = none ∧ (s.exchange (Exc.tag h)).isSome = true)
    ∧ (let h := BitVec.ofNat 128 (2 ^ 96);
      noon.Running ∧ noon.recordHeld { header := h } = false ∧ noon.exchange (Exc.tag h) = none ∧ noon.tagLater (Exc.tag h) = true)
    ∧ (noon.recordHeld {} = false ∧ noon.exchange (Exc.tag 0) = none ∧ noon.tagLater (Exc.tag 0) = false) := by
  unfold State.Running
  decide +kernel

theorem witness_PortRequests :
    (let s := engined { resetN := true };
      s.Running ∧ s.hasEngine 0 = true ∧ s.channelsOpen 0 = true ∧ 255 < 256 ∧ (s.port 0).reads.any (fun r => r.tag == 255) = false
        ∧ s.liveStamp 0 = none)
    ∧ (let s := engined { resetN := true, held := some 7 };
      s.Running ∧ s.channelsOpen 0 = true ∧ s.liveStamp 0 = some 7 ∧ s.inWindow (s.slot 7).part 64 64 = false
        ∧ s.hostMay 64 0 = false)
    ∧ (let s := withPar (engined { resetN := true, held := some 7 }) K.partitionWindow 0 (2 ^ 31 + 1);
      s.Running ∧ s.channelsOpen 0 = true ∧ s.liveStamp 0 = some 7 ∧ s.inWindow (s.slot 7).part 64 64 = true
        ∧ s.hostMay 64 0 = true)
    ∧ (0xFFFC0 < 2 ^ 20 ∧ 6 ≤ 6 ∧ 0xFFFC0 % 2 ^ 6 = 0 ∧ 0x80000 ≤ 0xFFFC0) := by
  unfold State.Running
  decide +kernel

/-- Memory port 17 in a state, the others ONLINE, groups of 12. -/
def port17 (x : MemPort) : State := { group12 with stripe := { ports := Sparse.set onlinePorts {} 17 x } }

theorem witness_MemoryResponses :
    ((port17 {}).Running ∧ (port17 {}).hasMemory 17 = true ∧ ((port17 {}).mport 17).resetN = false)
    ∧ (let s := port17 { state := .lost, resetN := true };
      s.Running ∧ s.hasMemory 17 = true ∧ (s.mport 17).resetN = true ∧ (s.mport 17).state = .lost)
    ∧ (∀ e ∈ [(MemOp.write, fun op st => op.isRead && decide (st ≤ 1)), (.read, fun op st => op == .write && decide (st ≤ 1)),
        (.verify, fun op st => op == .repair && decide (2 ≤ st ∧ st ≤ 4))],
      let s := port17 { state := .online, resetN := true, tags := [{ op := e.1, tag := 1023 }] };
      s.Running ∧ s.hasMemory 17 = true ∧ (s.mport 17).resetN = true ∧ (s.mport 17).state ≠ .lost
        ∧ ∀ t ∈ (s.mport 17).tags, t.tag = Rsp.tag (1023 * 64) → e.2 t.op (Rsp.status (1023 * 64)) = false)
    ∧ (∀ op ∈ [MemOp.read, .verify, .write, .repair], ∀ b ∈ [true, false],
      let t : MemTag := { op := op, tag := 1023, chk := b, src := if b then .unit else .engine 0 0, gen := 1 };
      let s := port17 { resetN := true, tags := [t] }
      s.Running ∧ (s.mport 17).resetN = true ∧ (s.mport 17).state ≠ .lost
        ∧ (s.mport 17).tags.find? (fun t => t.tag == Rsp.tag (1023 * 64)) = some t
        ∧ (s.mport 17).tags.any (fun t => t.tag == 1023) = true
        ∧ s.readStale t.src t.ctx t.gen = !b)
    ∧ (Rsp.status (8 * 0) = 0 ∧ Rsp.status 8 = 1 ∧ Rsp.status 16 = 2 ∧ Rsp.status 24 = 3 ∧ Rsp.status 32 = 4)
    ∧ (∀ b ∈ [true, false], ∀ src ∈ [MemSource.unit, .loader],
      let h : HeldRead := { uncorr := b, src := src };
      let s : State := { noon with stripe := { heldReads := [h] } };
      s.Running ∧ s.stripe.heldReads.find? (fun h => h.id == 0) = some h ∧ h.uncorr = b ∧ h.src.runsAgain = (src != .unit))
    ∧ (∀ b ∈ [true, false],
      let h : HeldWrite := {};
      let s : State := { group12 with stripe := { ports := if b then onlinePorts else [], heldWrites := [h] } };
      s.Running ∧ s.stripe.heldReads.find? (fun h => h.id == 0) = none
        ∧ s.stripe.heldWrites.find? (fun h => h.id == 0) = some h ∧ decide (s.writeFate h.addr = .held) = !b) := by
  unfold State.Running
  refine ⟨?_, ?_, ?_, ?_, ?_, ?_, ?_⟩
  all_goals decide +kernel

/-- The same with a scrub period and no chunk to wipe but those given. -/
def scrubbed (w : ChunkSet) : State :=
  withPar (port17 { state := .online, trained := true, resetN := true, wipe := w }) K.scrubPeriodH 0 24

theorem witness_MemPortControlWrites : 17 < 32 ∧ (port17 { state := .online }).Accepts K.memPortControl 0 (2 ^ 12 + 17)
    ∧ (port17 { state := .online }).Accepts K.memPortControl 0 (2 * 2 ^ 12 + 17)
    ∧ (port17 { state := .lost }).Accepts K.memPortControl 0 (3 * 2 ^ 12 + 17) true := by
  unfold State.Accepts State.Managed
  decide +kernel

theorem witness_MemoryPortStates :
    ((port17 {}).Running ∧ (port17 {}).hasMemory 17 = true)
    ∧ (port17 { state := .online, trained := true, offline := true }).mayGrant 17 = true
    ∧ (∀ b ∈ [true, false], let s := port17 { state := .draining, offline := b };
      (s.mport 17).state = .draining ∧ (s.mport 17).tags = [] ∧ (s.mport 17).offline = b ∧ (s.mport 17).bySoftware = false)
    ∧ (let s := port17 { state := .offline, offline := true, grant := true };
      (s.mport 17).offline = true ∧ (s.mport 17).state = .offline ∧ (s.mport 17).grant = true)
    ∧ (let s := port17 { state := .rebuilding };
      (s.mport 17).state = .rebuilding ∧ s.rebuildTurn 17 = true ∧ (s.bitmapOf (17 / s.groupSize)).first s.chunks = none)
    ∧ (let t := port17 { state := .rebuilding, rebuildRow := 256 };
      let s : State := { t with stripe := { t.stripe with bitmap := [(1, { except := [0] })] } };
      s.rebuildTurn 17 = true ∧ (s.bitmapOf (17 / s.groupSize)).first s.chunks = some 0 ∧ s.chunkRows 0 ≤ (s.mport 17).rebuildRow)
    ∧ (∀ k ∈ [none, some 0],
      let o : PageOp := { page := 9, phase := .restored, spare := k };
      let s := port17 { state := .online, ops := [o] };
      (s.mport 17).ops.find? (fun o => o.page == 9 && o.phase == .restored) = some o ∧ s.othersOnline 17 = true)
    ∧ (∀ b ∈ [true, false],
      let s := scrubbed (if b then { except := [0] } else {});
      s.Running ∧ s.resets.night = false ∧ (s.mport 17).state = .online ∧ s.par K.scrubPeriodH ≠ 0 ∧ 17 / s.groupSize < s.groups ∧ (∀ q ∈ s.groupPorts (17 / s.groupSize), (s.mport q).state = .online)
        ∧ s.stripe.rows.any (fun w => w.kind == .scrub && w.group == 17 / s.groupSize) = false
        ∧ Sparse.get s.stripe.scrubRow 0 (17 / s.groupSize) = 0 ∧ s.unusable (17 / s.groupSize) 0 = []
        ∧ s.chunkPending (17 / s.groupSize) 0 = b ∧ s.stripe.heldWrites = []
        ∧ (s.mport 17).wipe.first s.chunks = if b then some 0 else none)
    ∧ (let s := port17 { state := .untrained, resetN := true };
      s.Running ∧ s.power.started = true ∧ s.pins.corePwrGood = true ∧ (s.mport 17).resetN = true ∧ (s.mport 17).state = .untrained
        ∧ (s.mport 17).trained = false) := by
  unfold State.Running
  refine ⟨?_, ?_, ?_, ?_, ?_, ?_, ?_, ?_, ?_⟩
  all_goals decide +kernel

theorem witness_StoresLeaveOtherBytes :
    (Memory.wf group12.stripe.mem = true ∧ group12.Running ∧ 64 % 64 = 0 ∧ (group12.wipeFirst 64).rowHeld 64 = false
      ∧ (group12.wipeFirst 64).writeFate 64 = .put
      ∧ group12.Accepts K.debugMemData 0 (1 : BitVec 512).toNat)
    ∧ (let s : State := { group12 with resets := { zeroFill := some (64, 64) } };
      Memory.wf s.stripe.mem = true ∧ s.Running ∧ s.resets.zeroFill = some (64, 64) ∧ 0 < 64) := by
  unfold State.Accepts State.Managed State.Running
  decide +kernel

/-- Link port 15 in a state, of an enabled link. -/
def port15 (l : LinkPort) : State := withPar { noon with links := { ports := [(15, l)] } } K.linkEnable 0 0x8000

/-- An identity block of another chip. -/
def partner : BitVec 512 := BitVec.ofNat 512 (at' 0x46495350 480 32 + at' 0x00020000 448 32 + at' 7 436 12)

theorem witness_LinkStates :
    (let s := port15 { state := .up, change := some { acked := true } };
      s.Running ∧ s.hasLink 15 = true ∧ (s.lport 15).state = .up ∧ (s.lport 15).change = some { acked := true }
        ∧ (s.lport 15).txTurn = 0 ∧ (s.lport 15).txIndex % 1024 = 0)
    ∧ (let s := port15 { state := .up, change := some {} };
      s.Running ∧ (s.lport 15).state = .up ∧ (s.lport 15).change = some {})
    ∧ (let s := port15 { state := .training };
      s.Running ∧ (s.lport 15).state = .training ∧ s.pins.corePwrGood = true ∧ (s.lport 15).locked = false
        ∧ (s.lport 15).loopback = false ∧ 2 ≤ s.power.stage)
    ∧ (let s := { port15 { state := .training } with power := { started := true, stage := 1 } };
      s.Running ∧ (s.lport 15).state = .training ∧ s.pins.corePwrGood = true ∧ (s.lport 15).loopback = false
        ∧ 4 ≤ 15 ∧ s.power.stage < 2)
    ∧ ((port15 { state := .identify }).Running ∧ (port15 { state := .identify }).pins.corePwrGood = true ∧ ((port15 { state := .identify }).lport 15).state = .identify
      ∧ (port15 { state := .identify }).refusesPartner 0 = true ∧ (port15 { state := .identify }).refusesPartner partner = false)
    ∧ (let s := port15 { state := .down };
      s.Running ∧ (s.lport 15).state = .down ∧ (s.lport 15).loopback = false ∧ s.linkEnabled 15 = true)
    ∧ ((port15 { state := .refused }).Running ∧ ((port15 { state := .refused }).lport 15).state = .refused) := by
  unfold State.Running
  decide +kernel

/-- A link port that is UP, in whose virtual channel vc something waits: a flit to send, or one to send again. -/
def sending (vc : Nat) (new : Bool) : State :=
  port15 { state := .up, tx := [(vc, if new then { queue := [(0, [])] } else { replay := [0] })] }

/-- A flit of a family with a sequence number. -/
def arriving (family seq : Nat) : Flit := BitVec.ofNat 2048 (at' family 1997 3 + at' seq 2003 13)

/-- The bits of a flit have come to link port 15, one of them from a failed codeword or none. -/
def received (bad : Nat) (f : Flit) : State :=
  port15 { state := .up, rxMsg := { val := f.toNat, len := 2048 }, rxBad := { val := bad, len := 2048 } }

theorem witness_FlitsAndWriteRecords :
    (let s := port15 { state := .up, owed := true };
      s.Running ∧ s.hasLink 15 = true ∧ (s.lport 15).state = .up ∧ (s.lport 15).owed = true)
    ∧ (let s := sending 2 false;
      s.Running ∧ (s.lport 15).owed = false ∧ (List.range 4).find? (s.lport 15).replays = some 2)
    ∧ (let s := sending 3 true;
      s.Running ∧ (s.lport 15).owed = false ∧ (List.range 4).find? (s.lport 15).replays = none ∧ (s.lport 15).offers 3 = true)
    ∧ (let s := sending 2 true;
      s.Running ∧ (s.lport 15).owed = false ∧ (List.range 4).find? (s.lport 15).replays = none ∧ (s.lport 15).offers 3 = false
        ∧ [(s.lport 15).rr, ((s.lport 15).rr + 1) % 3, ((s.lport 15).rr + 2) % 3].find? (s.lport 15).offers = some 2)
    ∧ (selecting.Running ∧ selecting.inWindow 0 64 64 = true) ∧ (noon.Running ∧ noon.inWindow 0 64 64 = false)
    ∧ (((port15 { state := .up }).receiveWords 15 []).lport 15).nextFlit = none
    ∧ (((received 1 (arriving Fam.signal 0)).receiveWords 15 []).lport 15).nextFlit = some (arriving Fam.signal 0, false)
    ∧ (((received 0 (arriving Fam.control 0)).receiveWords 15 []).lport 15).nextFlit = some (arriving Fam.control 0, true)
    ∧ (((received 0 (arriving Fam.signal 1)).receiveWords 15 []).lport 15).nextFlit = some (arriving Fam.signal 1, true)
    ∧ (((received 0 (arriving Fam.signal 0)).lport 15).rxVc 0).expect = 0
    ∧ (Flit.family (arriving Fam.control 0) = Fam.control ∧ Flit.seq (arriving Fam.signal 0) = 0
      ∧ Flit.seq (arriving Fam.signal 1) ≠ 0) := by
  unfold State.Running
  refine ⟨?_, ?_, ?_, ?_, ?_, ?_, ?_, ?_, ?_, ?_, ?_, ?_⟩
  all_goals decide +kernel

/-- A state with firmware in a state. -/
def firmware (k : Nat) : State := { noon with mgmt := { lcCount := 1, fwState := k } }

theorem witness_TeardownsLevelsAndFirmware :
    (let s : State := { noon with resets := { l0s := [{ ctx := 4095 }] } };
      s.Running ∧ s.resets.l0s.find? (fun x => x.ctx == 4095 && !x.complete && !x.waitTick) = some { ctx := 4095 })
    ∧ (let s : State := { noon with adm := { ctxs := [(4095, { tearing := .cleanup })] } };
      s.Running ∧ (s.ctx 4095).tearing = .cleanup)
    ∧ (∀ k ∈ [2, 3, 4], let s : State := { noon with resets := { levels := [{ level := k }] } };
      s.out = [] ∧ s.pins.resetN = true ∧ s.power.started = true ∧ argMin (fun r => 5 - r.level) s.resets.levels = some { level := k })
    ∧ (let s : State := { provisioned with resets := { levels := [{ level := 4 }] } };
      s.out = [] ∧ s.pins.resetN = true ∧ s.power.started = false
        ∧ argMin (fun r => 5 - r.level) s.resets.levels = some { level := 4 })
    ∧ (let s : State := { firmware 3 with resets := { mcExpired := some 0 } };
      s.Managed ∧ s.mgmt.fwState = 3 ∧ s.resets.mcExpired = some 0 ∧ s.ms - 0 < s.par K.escalateWindowS * 1000)
    ∧ (let s : State := { firmware 3 with clk := { units := 2 ^ 60 }, resets := { mcExpired := some 0 } };
      s.Managed ∧ s.par K.escalateWindowS * 1000 ≤ s.ms - 0)
    ∧ ((firmware 3).Managed ∧ (firmware 3).mgmt.fwState = 3 ∧ (firmware 3).resets.mcExpired = none)
    ∧ ((firmware 5).Managed ∧ (firmware 5).mgmt.fwState = 5)
    ∧ ((firmware 2).Managed ∧ (firmware 2).mgmt.fwState = 2) := by
  unfold State.Running State.Managed
  decide +kernel

theorem witness_DumpsFillsAndSram :
    (∀ r ∈ [none, some 7], let s : State := { noon with resets := { dump := { state := 1, read := r }, zeroFill := some (64, 64) } };
      s.Managed ∧ s.Running ∧ s.resets.dump.state = 1 ∧ s.resets.dump.read = r ∧ s.resets.zeroFill = some (64, 64))
    ∧ (noon.Running ∧ 31 < 32 ∧ (noon.sramArray 5).spared = none ∧ (noon.sramArray 5).testing = false)
    ∧ (let s : State := { noon with resets := { sram := [(5, { spared := some 3 })] } };
      s.Running ∧ (s.sramArray 5).spared ≠ none)
    ∧ (let s : State := { noon with resets := { sram := [(5, { testing := true })] } };
      s.Running ∧ (s.sramArray 5).testing = true)
    ∧ (∀ k ∈ [LinkState.up, .down], (((port15 { state := k }).raise A.sramUncorrectable).lport 15).state = k)
    ∧ ((inPower 3).Managed ∧ (inPower 3).power.state = 3)
    ∧ ((tasked 0 { state := .ready }).raise A.sramUncorrectable).sramContext (.slot 0) = some 0
    ∧ (noon.raise A.sramUncorrectable).sramContext (.slot 0) = none := by
  unfold State.Running State.Managed
  decide +kernel

theorem witness_ResetAndCorePowerPins :
    (State.reset.out = [] ∧ State.reset.pins.resetN = true ∧ ∀ r ∈ State.reset.resets.levels, r.level ≠ 5)
    ∧ (inReset.out = [] ∧ inReset.pins.resetN = false)
    ∧ (∃ s : State, s.out = [] ∧ s.pins.resetN = false ∧ ∃ r ∈ s.resets.levels, r.level = 5) := by
  refine ⟨by decide, by decide, { inReset with resets := { levels := [{ level := 5 }] } }, ?_⟩
  decide

/-- A state whose last readings ask for less, or allow more. -/
def throttled (hot cool : Bool) (k : Nat) : State := { noon with power := { started := true, stage := 2, hot := hot, cool := cool, throttle := k } }

theorem witness_PowerAndSensors :
    (dawnReady.Running ∧ dawnReady.power.started = true ∧ dawnReady.power.stage < 2 ∧ dawnReady.power.noonLate = false)
    ∧ (noon.Managed ∧ (readingRange [2500]).1 < noon.par K.thermalTripC * 100
      ∧ (noon.par K.thermalTripC * 100 : Nat) ≤ (readingRange [20000]).1 ∧ noon.power.state ≠ 3)
    ∧ (∀ k ∈ [1, 8], (throttled true false k).Managed ∧ (throttled true false k).power.hot = true ∧ 0 < k)
    ∧ (∀ k ∈ [0, 7], (throttled false true k).Managed ∧ (throttled false true k).power.cool = true ∧ k < 8)
    ∧ (noon.regionPresent 15 = true ∧ { noon with build := { enginePorts := 0, memoryPorts := 0, linkPorts := 0 } : State }.regionPresent 15 = false)
    ∧ ((inPower 3).Managed ∧ (inPower 3).power.state = 3)
    ∧ (let s : State := { noon with power := { started := true, stage := 2, draining := true } };
      s.Running ∧ s.power.draining = true ∧ s.drainReached = true ∧ s.power.drained = false)
    ∧ (∀ k ∈ [1, 2], let s : State := { noon with power := { started := true, stage := 2, selfTest := { state := k } } };
      s.Running ∧ s.power.selfTest.state = k ∧ s.power.selfTest.waitTick = false) := by
  unfold State.Running State.Managed
  decide +kernel

/-- INDEX and SUB of an object, as COUNTER_CLEAR takes them. -/
def counterOf (key : Nat) : Nat := key / 256 * 65536 + key % 256 * 256

theorem witness_CounterClearZeroesItsCounter :
    provisioned.Accepts K.counterClear 0 (BitVec.ofNat 32 (counterOf K.tokensMatched)).toNat
    ∧ ((objDesc K.chipId).map (·.cls)).all (· ≠ 2) = true
    ∧ provisioned.dictCheck false (writeReq K.counterClear 0 (BitVec.ofNat 32 (counterOf K.chipId)).toNat) = D.range := by
  unfold State.Accepts State.Managed
  decide +kernel

theorem witness_CountersCountAndForward :
    (noon.Running ∧ (objDesc K.tokensMatched).map (·.cls) = some 2 ∧ (objDesc K.tokensMatched).any (fun r => 0 < r.elements) = true)
    ∧ Sparse.wf 0 noon.dict.acc = true ∧ Sparse.wf 0 noon.dict.counters = true
    ∧ Sparse.get noon.dict.counters 0 (dictKey K.tokensMatched 0) = 0 ∧ Sparse.get noon.dict.acc 0 (dictKey K.tokensMatched 0) = 0
    ∧ dictKey K.tokensStaleDropped 0 ≠ dictKey K.tokensMatched 0 := by
  unfold State.Running
  decide +kernel

/-- A chip one of whose alarms is pending. -/
def alarmed : State := State.raise noon A.linkDown

theorem witness_AlarmsLatchAndDriveThePin :
    (Sparse.wf {} noon.tele.latches = true ∧ Sparse.wf {} alarmed.tele.latches = true)
    ∧ (alarmed.pins.resetN = true ∧ (Sparse.get alarmed.tele.latches {} A.linkDown).pending = true
      ∧ bit (alarmed.par K.alarmMask) A.linkDown = false)
    ∧ (0x28 < 128 ∧ alarmed.Accepts K.alarmAck 0 0x28) ∧ noon.Accepts K.alarmMask 0 (1#128).toNat := by
  unfold State.Accepts State.Managed
  decide +kernel

theorem witness_LoggedInputsTakeTheirPlace :
    noon.replay.mode ≠ 1
    ∧ (let s : State := { noon with replay := { mode := 1 } };
      s.replay.mode = 1 ∧ Sparse.wf 0 s.replay.orders = true ∧ s.replay.backlog = [] ∧ s.logUsed + 1 + 15 ≤ s.logSize)
    ∧ (255 < 256 ∧ 15 < 16 ∧ 4095 < 4096 ∧ 65535 < 2 ^ 16 ∧ 4294967295 < 2 ^ 32)
    ∧ (let a := group12.par K.replayLogBase + group12.replay.produced.toNat % 2 ^ group12.par K.replayLogLog2 * 64
      Memory.wf group12.stripe.mem = true ∧ a % 64 = 0 ∧ (group12.wipeFirst a).rowHeld a = false
        ∧ (group12.wipeFirst a).writeFate a = .put) := by
  decide +kernel

end Sys2Proof.Tests
end

/-! How a bank treats the first token that waits at it (R72, R73). -/
namespace Sys2Proof.Machine

/-- The state in which the first token that waits at a bank has left it (R72). -/
def State.withoutToken (s : State) (bank : Nat) : State :=
  { s with mat := { s.mat with tokens := dropFirst (fun t => Tok.slot t % 16 == bank) s.mat.tokens } }

/-- What a bank makes of a token that has left it, by the outcome of R73's checks. -/
def State.meetToken (s : State) (t : BitVec 128) : TokenFate → State
  | .stale => s.bump K.tokensStaleDropped
  | .protocol => ((s.bump K.tokensProtocolDropped).raise A.matchProtocol).startL0 (Tok.ctx t) 0x04
  | .matched => ((s.modSlot (Tok.slot t) fun q => q.take t).bump K.tokensMatched).checkInputs (Tok.slot t)

/-- The checks do not look at the tokens that wait, so they give the same before and after the token leaves its bank. -/
theorem tokenFate_withoutToken (s : State) (bank : Nat) (t : BitVec 128) :
    (s.withoutToken bank).tokenFate t = s.tokenFate t := rfl

theorem tokenMatchEff_of_find {s : State} {bank : Nat} {t : BitVec 128}
    (ht : s.mat.tokens.find? (fun t => Tok.slot t % 16 == bank) = some t) :
    tokenMatchEff bank s = (s.withoutToken bank).meetToken t (s.tokenFate t) := by
  rw [← tokenFate_withoutToken s bank t]
  simp only [tokenMatchEff, ht]
  rfl

section TokenMatch
variable {s : State} {bank : Nat} {t : BitVec 128} (hs : s.Running)
  (ht : s.mat.tokens.find? (fun t => Tok.slot t % 16 == bank) = some t)
include hs ht

/-- The command completes in what the bank makes of the first token that waits at it. -/
theorem completes_tokenMatch {fate : TokenFate} (hf : s.tokenFate t = fate) :
    Completes (.tokenMatch bank) s ((s.withoutToken bank).meetToken t fate) :=
  hf ▸ (completes_core hs fun x _ => exec_tokenMatch bank x).eq (tokenMatchEff_of_find ht)

theorem completes_tokenMatch_stale (hf : s.tokenFate t = .stale) :
    Completes (.tokenMatch bank) s ((s.withoutToken bank).bump K.tokensStaleDropped) :=
  (completes_tokenMatch hs ht hf).eq rfl

theorem completes_tokenMatch_protocol (hf : s.tokenFate t = .protocol) :
    Completes (.tokenMatch bank) s
      ((((s.withoutToken bank).bump K.tokensProtocolDropped).raise A.matchProtocol).startL0 (Tok.ctx t) 0x04) :=
  (completes_tokenMatch hs ht hf).eq rfl

end TokenMatch

section TokenFate
variable {s : State} {t : BitVec 128}

theorem tokenFate_of_old_generation (hg : Tok.gen t ≠ (s.ctx (Tok.ctx t)).gen) : s.tokenFate t = .stale := by
  simp [State.tokenFate, hg]

theorem tokenFate_of_not_awaited (hg : Tok.gen t = (s.ctx (Tok.ctx t)).gen)
    (hq : (s.slot (Tok.slot t)).ctx ≠ Tok.ctx t ∨ (s.slot (Tok.slot t)).state ≠ .waiting) :
    s.tokenFate t = .protocol := by
  simp [State.tokenFate, hg, hq]

variable (hg : Tok.gen t = (s.ctx (Tok.ctx t)).gen) (hc : (s.slot (Tok.slot t)).ctx = Tok.ctx t)
  (hw : (s.slot (Tok.slot t)).state = .waiting)
include hg hc hw

/-- A counted token that its slot awaits is checked against the slot's counter alone. -/
theorem tokenFate_of_counted (hk : Tok.isOperand t = false) :
    s.tokenFate t = if Tok.count t > (s.slot (Tok.slot t)).counter then .protocol else .matched := by
  simp [State.tokenFate, hg, hc, hw, hk]

/-- An operand token that its slot awaits is checked against the operands declared and those present. -/
theorem tokenFate_of_operand (hk : Tok.isOperand t = true) :
    s.tokenFate t =
      if Tpl.operandMask (s.slotTpl (Tok.slot t)) &&& mask4 (Tok.operand t) = 0
        ∨ (s.slot (Tok.slot t)).present &&& mask4 (Tok.operand t) ≠ 0 then .protocol else .matched := by
  simp [State.tokenFate, hg, hc, hw, hk]

end TokenFate

theorem meetToken_matched_counted (s : State) {t : BitVec 128} (hk : Tok.isOperand t = false) :
    s.meetToken t .matched = ((s.modSlot (Tok.slot t) fun q => { q with counter := q.counter - Tok.count t }).bump
      K.tokensMatched).checkInputs (Tok.slot t) := by
  simp [State.meetToken, Slot.take, hk]

theorem meetToken_matched_operand (s : State) {t : BitVec 128} (hk : Tok.isOperand t = true) :
    s.meetToken t .matched = ((s.modSlot (Tok.slot t) fun q => { q.setOp (Tok.operand t) (Tok.value t) with
      present := q.present ||| mask4 (Tok.operand t)
      empty := if Tok.empty t then q.empty ||| mask4 (Tok.operand t) else q.empty }).bump
        K.tokensMatched).checkInputs (Tok.slot t) := by
  simp [State.meetToken, Slot.take, hk]

/-- Settles O32, by the outcome of R73's checks on the token in each case. -/
theorem tokensAreMatched : Obligations.TokensAreMatched := by
  intro s bank t hs ht left n c
  refine ⟨fun hg => ?stale, fun hg hq => ?notAwaited, fun hg hc hw hk => ⟨fun hx => ?above, fun hx => ?counted⟩,
    fun hg hc hw hk => ⟨fun hx => ?undue, fun hd hp => ?operand⟩⟩
  case stale => exact completes_tokenMatch_stale hs ht (tokenFate_of_old_generation hg)
  case notAwaited => exact completes_tokenMatch_protocol hs ht (tokenFate_of_not_awaited hg hq)
  case above => exact completes_tokenMatch_protocol hs ht ((tokenFate_of_counted hg hc hw hk).trans (if_pos hx))
  case counted =>
    have hf : s.tokenFate t = .matched := (tokenFate_of_counted hg hc hw hk).trans (if_neg (Nat.not_lt.mpr hx))
    exact (completes_tokenMatch hs ht hf).eq (meetToken_matched_counted _ hk)
  case undue => exact completes_tokenMatch_protocol hs ht ((tokenFate_of_operand hg hc hw hk).trans (if_pos hx))
  case operand =>
    have hf : s.tokenFate t = .matched :=
      (tokenFate_of_operand hg hc hw hk).trans (if_neg (not_or.mpr ⟨hd, not_not.mpr hp⟩))
    exact (completes_tokenMatch hs ht hf).eq (meetToken_matched_operand _ hk)

end Sys2Proof.Machine

/-! How a command of an engine port is taken by the generation that its port stamped (R168). -/
namespace Sys2Proof.Machine

/-- The state in which a command handed over has left those that wait for the writes before them (R165). -/
def State.withoutInbound (s : State) (c : SigCmd) : State :=
  { s with sig := { s.sig with inbound := dropFirst (· == c) s.sig.inbound } }

/-- SIGNAL and ARRIVE enter the Signal Unit alike (R164). -/
theorem completes_signalOrArrive {s : State} {c : Instr} {src : SignalSource} {cmd : BitVec 64} (hs : s.Running)
    (hc : c ∈ [.signal src cmd, .arrive src cmd]) : Completes c s (signalEff src cmd s) := by
  rcases List.mem_pair.mp hc with rfl | rfl
  · exact completes_core hs fun x _ => exec_signal src cmd x
  · exact completes_core hs fun x _ => exec_arrive src cmd x

/-- A command handed over earlier, of a source that the log does not record, takes effect once the writes before it are
accepted (R165). -/
theorem fromSource_of_accepted {s : State} {src : SignalSource} {cmd : BitVec 64} {w : SigCmd}
    (hf : s.sig.inbound.find? (fun x => x.isFrom src cmd) = some w) (hl : w.src ≠ .hostDma)
    (hw : s.writesBefore w = true) : s.fromSource src cmd = (s.withoutInbound w).localCommand w := by
  have hh : s.logHolds w = false := by simp [State.logHolds, hl]
  simp [State.fromSource, State.withoutInbound, hf, hh, hw, hl]

/-- A command for an ended generation, behind none of its port that waits, is dropped and counted whatever its fields say
(R168). -/
theorem localCommand_of_stale {s : State} {w : SigCmd} {p ctx : Nat} {gen : BitVec 16}
    (hsrc : w.src = .engine p ctx gen) (hv : s.sourceWaits w.src = false) (hg : gen ≠ (s.ctx ctx).gen) :
    s.localCommand w = s.bump K.signalsStaleDropped := by
  rw [hsrc] at hv
  simp [State.localCommand, hsrc, hv, hg]

/-- Which sources wait, and which generations have ended, does not depend on the commands handed over. -/
@[simp] theorem sourceWaits_withoutInbound (s : State) (c : SigCmd) (src : SigSource) :
    (s.withoutInbound c).sourceWaits src = s.sourceWaits src := rfl
@[simp] theorem ctx_withoutInbound (s : State) (c : SigCmd) (n : Nat) : (s.withoutInbound c).ctx n = s.ctx n := rfl

/-- What an engine port hands over: its held task's context and generation, behind the writes it sent before a SIGNAL and
behind none before an ARRIVE (R164 to R168). -/
theorem signalBeat_inbound (s : State) (p n : Nat) (cmd : BitVec 64) :
    (s.signalBeat p n cmd).sig.inbound = s.sig.inbound ++ [
      { cmd := s.stamped cmd, src := .engine p (s.slot n).ctx (s.slot n).gen
        behind := if Sig.op cmd = 1 then [] else (s.port p).sent.map (·.1) }] := rfl

/-- Settles O38: the command leaves those handed over, and no earlier one of its port waits, so its stamped
generation is judged before its fields. -/
theorem staleEngineSignalsAreDropped : Obligations.StaleEngineSignalsAreDropped := by
  refine ⟨?stale, fun s p n cmd _ => signalBeat_inbound s p n cmd, fun s p q => ⟨rfl, rfl, rfl⟩⟩
  case stale =>
    intro s c p ctx gen cmd w hs hc hf hsrc hw hv hg
    have hl : w.src ≠ .hostDma := by simp [hsrc]
    have hdrop : (s.withoutInbound w).localCommand w = (s.withoutInbound w).bump K.signalsStaleDropped :=
      localCommand_of_stale hsrc (by simpa using hv) (by simpa using hg)
    exact (completes_signalOrArrive hs hc).eq ((fromSource_of_accepted hf hl hw).trans hdrop)

end Sys2Proof.Machine

/-! The dictionary window: its GO write, the writes that it discards, and the service of its request (R454, R455). -/
namespace Sys2Proof.Machine

section Window
variable {s : State}

theorem windowGo_of_idle (h : s.win.inProgress = false) :
    s.windowGo = s.modWin fun w => { w with
      done := false, inProgress := true, collision := false, ahead := s.mgmt.waiting.length, goAt := s.clk.units } := by
  simp [State.windowGo, h]

theorem windowGo_of_inProgress (h : s.win.inProgress = true) : s.windowGo = s.collide := by
  simp [State.windowGo, h]

/-- A write that touches GO, REQUEST or REQUEST_VALUE while a request is in progress is discarded whole (R455). -/
theorem windowWrite_of_inProgress {off : Nat} {bytes : List Byte} (h : s.win.inProgress = true)
    (ht : touches off bytes.length 0x20 0x28 = true ∨ touches off bytes.length 0 0x10 = true
      ∨ touches off bytes.length 0x1000 0x2000 = true) :
    s.windowWrite off bytes = s.collide := by
  have hg : (touches off bytes.length 0x20 0x28 || touches off bytes.length 0 0x10
      || touches off bytes.length 0x1000 0x2000) = true := by
    simpa only [Bool.or_eq_true, or_assoc] using ht
  simp only [State.windowWrite, h, hg, if_true]

/-- What a naturally aligned access touches stays within its 64-byte word (R504). -/
theorem aligned_within_word {addr size : Nat} (hs : size ≤ 6) (ha : addr % 2 ^ size = 0) :
    addr % 64 + 2 ^ size ≤ 64 := by
  have hd : 2 ^ size ∣ 64 := pow_dvd_pow 2 hs
  have hm : addr % 64 ≡ 64 [MOD 2 ^ size] :=
    ((Nat.dvd_mod_iff hd).mpr (Nat.dvd_of_mod_eq_zero ha)).modEq_zero_nat.trans hd.modEq_zero_nat.symm
  exact hm.add_le_of_lt (Nat.mod_lt addr (by decide))

/-- The natural lanes of an aligned write carry as many bytes as its size names (R504). -/
theorem length_lanes {addr size : Nat} (v : Nat) (hs : size ≤ 6) (ha : addr % 2 ^ size = 0) :
    (((leBytes 64 v).drop (addr % 64)).take (2 ^ size)).length = 2 ^ size := by
  have := aligned_within_word hs ha
  simp only [List.length_take, List.length_drop, length_leBytes]
  omega

/-- An aligned control-port write of an allowed size is answered after its write (R504). -/
theorem controlRequestEff_write {addr size : Nat} (data : Block) (hr : addr < 2 ^ 20) (hs : size ≤ 6)
    (ha : addr % 2 ^ size = 0) :
    controlRequestEff true addr size data s = (s.controlWrite addr size data).emit (.controlResponse 0) := by
  have hok : ¬ (addr ≥ 2 ^ 20 ∨ size > 6 ∨ addr % 2 ^ size ≠ 0) := by omega
  simp only [controlRequestEff, if_neg hok, if_true]

/-- The dictionary window takes a control request in every power state (R24, R439). -/
theorem completes_controlRequest_window {write : Bool} {addr size : Nat} {data : BitVec 512} (hs : s.Managed)
    (hw : addr < 2 ^ 16) :
    Completes (.controlRequest write addr size data) s (controlRequestEff write addr size data s) := by
  have hn : ¬ (s.off = true ∧ addr ≥ 0x10000) := fun h => by omega
  exact (completes_mgmt hs fun x _ => exec_controlRequest write addr size data x).eq (if_neg hn)

/-- An aligned write that touches GO, REQUEST or REQUEST_VALUE while a request is in progress does nothing but collide
(R455). -/
theorem controlWrite_of_inProgress {addr size : Nat} (data : Block) (h : s.win.inProgress = true)
    (hw : addr < 2 ^ 16) (hs : size ≤ 6) (ha : addr % 2 ^ size = 0)
    (ht : touches addr (2 ^ size) 0x20 0x28 = true ∨ touches addr (2 ^ size) 0 0x10 = true
      ∨ touches addr (2 ^ size) 0x1000 0x2000 = true) :
    s.controlWrite addr size data = s.collide := by
  have hl := length_lanes data.toNat hs ha
  have hwin : addr < 0x10000 := hw
  simp only [State.controlWrite, if_pos hwin]
  exact windowWrite_of_inProgress h (by simpa only [hl] using ht)

/-- The window's request is the only one that waits, so it is served next, whether or not it reads alarm latches. -/
theorem dictRequestCompleteEff_window (h : s.win.inProgress = true) (hm : s.mgmt.waiting = []) :
    dictRequestCompleteEff s = s.serveWindow := by
  have hl : s.waitingRequests = [(none, s.win.request)] := by simp [State.waitingRequests, h, hm]
  cases ha : readsAlarms s.win.request <;> simp [dictRequestCompleteEff, hl, ha]

end Window

/-! What the window shows once its request is served (R454, R455). -/

@[simp] theorem serveWindow_inProgress (s : State) : s.serveWindow.win.inProgress = false := rfl
@[simp] theorem serveWindow_done (s : State) : s.serveWindow.win.done = true := rfl
@[simp] theorem serveWindow_doneSeq (s : State) : s.serveWindow.win.doneSeq = bits s.win.request 112 8 := rfl
@[simp] theorem serveWindow_rspValue (s : State) : s.serveWindow.win.rspValue = s.serveWindow.dict.lastValue := rfl
@[simp] theorem serveWindow_response (s : State) : s.serveWindow.win.response =
    responseHeader s.win.request s.serveWindow.dict.lastResult s.serveWindow.dict.lastValue.length := rfl

/-- Settles O10, by what GO, a colliding write and the service of the window's request do to the window. -/
theorem windowRequests : Obligations.WindowRequests := by
  refine ⟨fun s hs => ⟨fun hi => ?go, fun hi => ?goAgain⟩, ?collides, fun s hs hi hm => ?served⟩
  case go =>
    refine (completes_mgmt hs fun x _ => exec_windowGo x).eq ?_
    simp [windowGoEff, windowGo_of_idle hi, State.emit, State.modWin, hs.1]
  case goAgain =>
    refine (completes_mgmt hs fun x _ => exec_windowGo x).eq ?_
    rw [windowGoEff, windowGo_of_inProgress hi]
    rfl
  case collides =>
    intro s addr size data hs hi hw hsize ha touched ht t
    have hc : s.controlWrite addr size data = s.collide :=
      controlWrite_of_inProgress data hi hw hsize ha (by simpa [touches, touched] using ht)
    refine (completes_controlRequest_window hs hw).eq ?_
    rw [controlRequestEff_write data (by omega) hsize ha, hc]
    rfl
  case served =>
    have hserves : Completes .dictRequestComplete s s.serveWindow :=
      (completes_mgmt hs fun x _ => exec_dictRequestComplete x).eq (dictRequestCompleteEff_window hi hm)
    exact ⟨s.serveWindow, hserves, serveWindow_inProgress s, serveWindow_done s, serveWindow_doneSeq s,
      serveWindow_rspValue s, serveWindow_response s⟩

end Sys2Proof.Machine

/-! COUNTER_CLEAR: what clearing a table leaves, and which of R449's checks a WRITE of another value fails (R475). -/
namespace Sys2Proof

/-- A table reads as its default at every index whose entries have been taken out. -/
theorem Sparse.get_filter_of_false {α : Type} (m : Sparse α) (d : α) {keep : Nat × α → Bool} {k : Nat}
    (h : ∀ x, keep (k, x) = false) : Sparse.get (m.filter keep) d k = d := by
  suffices hf : Sparse.find (m.filter keep) k = none by rw [Sparse.get, hf, Option.getD_none]
  induction m with
  | nil => rfl
  | cons entry rest ih =>
    obtain ⟨i, x⟩ := entry
    by_cases hx : keep (i, x) = true
    · have hi : i ≠ k := by rintro rfl; simp [h] at hx
      rw [List.filter_cons_of_pos hx, Sparse.find, if_neg hi, ih]
    · rw [List.filter_cons_of_neg hx, ih]

namespace Machine

/-! The checks of R449 on the WRITE of one element. -/

section
variable {s : State} {answered : Bool} {key e v w : Nat} {r : ObjDesc}

/-- Over MCTP, the checks of R449 that a WRITE of one element meets, in their order. -/
theorem dictCheck_writeReq (h : objDesc key = some r) :
    s.dictCheck answered (writeReq key e v) =
      if s.absentElement r.key e then D.noObject
      else if s.gateShut r then D.gate
      else if s.debugShut r (writeReq key e v) then D.debug
      else if r.access = 0 then D.access
      else if lengthBad r (writeReq key e v) then D.length
      else if s.rangeBad r (writeReq key e v) then D.range
      else if s.busy answered r (writeReq key e v) then D.busy
      else D.ok := by
  have hq : (writeReq key e v).opcode = 2 ∧ (writeReq key e v).key = key ∧ (writeReq key e v).first = e
    ∧ (writeReq key e v).count = 1 ∧ (writeReq key e v).mctp = true := ⟨rfl, rfl, rfl, rfl, rfl⟩
  simp [State.dictCheck, hq, h]

/-- DEBUG judges a WRITE whatever its value, except to the objects that it shuts to values other than 0 alone (R449,
R469). -/
theorem debugShut_writeReq (hd : r.debug ≠ 1) :
    s.debugShut r (writeReq key e v) = s.debugShut r (writeReq key e w) := by
  have hd' : (r.debug == 1) = false := beq_eq_false_iff_ne.mpr hd
  simp only [State.debugShut, hd', Bool.false_and]

/-- The length of a WRITE does not depend on its value. -/
theorem lengthBad_writeReq : lengthBad r (writeReq key e v) = lengthBad r (writeReq key e w) := by
  simp [lengthBad, writeReq]

/-- Where one value is accepted, the checks before RANGE pass, so a value out of range is refused with RANGE (R449). -/
theorem dictCheck_range_of_accepted (h : objDesc key = some r) (hd : r.debug ≠ 1)
    (ok : s.dictCheck answered (writeReq key e w) = D.ok) (hr : s.rangeBad r (writeReq key e v) = true) :
    s.dictCheck answered (writeReq key e v) = D.range := by
  rw [dictCheck_writeReq h] at ok ⊢
  have hcodes : D.noObject ≠ D.ok ∧ D.gate ≠ D.ok ∧ D.debug ≠ D.ok ∧ D.access ≠ D.ok ∧ D.length ≠ D.ok := by decide
  simp only [ite_eq_iff, hcodes, and_false, false_or] at ok
  obtain ⟨hpresent, hgate, hdebug, haccess, hlength, -⟩ := ok
  rw [debugShut_writeReq (w := w) hd, lengthBad_writeReq (w := w), if_neg hpresent, if_neg hgate, if_neg hdebug,
    if_neg haccess, if_neg hlength, if_pos hr]

/-- A WRITE of one element is out of range where its value is (R449). -/
theorem rangeBad_writeReq (h : objDesc key = some r) (hk : r.key = key)
    (hv : s.inRange r (writeMask key (v % 256 ^ r.bytes)) = false) : s.rangeBad r (writeReq key e v) = true := by
  have hq : (writeReq key e v).opcode = 2 := rfl
  simp [State.rangeBad, writeReq_values h hk, hq, hv]

end

/-! COUNTER_CLEAR (R475). -/

/-- The bits of INDEX:SUB in a 32-bit value (R475). -/
theorem clearKey_toNat (v : BitVec 32) : clearKey v.toNat = v.toNat / 65536 * 256 + v.toNat / 256 % 256 := by
  have hv : v.toNat < 2 ^ 32 := v.isLt
  simp only [clearKey, fld, Nat.shiftRight_eq_div_pow]
  omega

/-- COUNTER_CLEAR has no reserved bits, and its 4 bytes hold every 32-bit value. -/
theorem writeMask_counterClear (v : BitVec 32) : writeMask K.counterClear (v.toNat % 256 ^ 4) = v.toNat :=
  Nat.mod_eq_of_lt v.isLt

/-- An accepted write of COUNTER_CLEAR clears the counter that it names (R475). -/
theorem actAtOnce_counterClear (s : State) (v : Nat) :
    s.actAtOnce K.counterClear 0 v = s.clearCounter (clearKey v) := rfl

/-- COUNTER_CLEAR takes a value that names an event counter, and no other (R475). -/
theorem fieldsOk_counterClear (s : State) (v : Nat) :
    s.fieldsOk K.counterClear v = ((objDesc (clearKey v)).map fun r => r.cls == 2).getD false := rfl

/-- The places of an object's elements in the dictionary's stores are the object's own. -/
theorem dictKey_div {key e : Nat} (he : e < 2 ^ 20) : dictKey key e / 2 ^ 20 = key := by unfold dictKey; omega

/-- Every element of a cleared event counter is zero, and so is its accumulator (R475). -/
theorem clearCounter_zero (s : State) (key : Nat) {e : Nat} (he : e < 2 ^ 20) :
    (s.clearCounter key).counterAt key e = 0
    ∧ Sparse.get (s.clearCounter key).dict.acc 0 (dictKey key e) = 0 := by
  have hmine : (!(dictKey key e / 2 ^ 20 == key)) = false := by rw [dictKey_div he, beq_self_eq_true, Bool.not_true]
  exact ⟨Sparse.get_filter_of_false _ _ fun _ => hmine, Sparse.get_filter_of_false _ _ fun _ => hmine⟩

/-- A write that the dictionary accepts clears the event counter it names (R475). -/
theorem completes_counterClear {s : State} {v : BitVec 32} (hs : s.Accepts K.counterClear 0 v.toNat) :
    Completes (.counterClear v) s (s.wrote fun s => s.clearCounter (clearKey v.toNat)) :=
  (completes_wrote acts_counterClear hs (exec_counterClear v)).eq (by
    simp only [writeMask_counterClear, actAtOnce_counterClear])

/-- No debug level shuts COUNTER_CLEAR for its value. -/
theorem counterClear_debug {r : ObjDesc} (h : objDesc K.counterClear = some r) : r.debug ≠ 1 := by
  have hd : (objDesc K.counterClear).map (·.debug) = some 0 := rfl
  rw [h] at hd
  have hzero : r.debug = 0 := Option.some.inj hd
  omega

/-- COUNTER_CLEAR takes no value that names an object which is not an event counter (R475). -/
theorem inRange_counterClear {s : State} {v : Nat} {r : ObjDesc} (hk : r.key = K.counterClear)
    (hv : ∀ c, objDesc (clearKey v) = some c → c.cls ≠ 2) : s.inRange r v = false := by
  have hf : s.fieldsOk r.key v = false := by
    rw [hk, fieldsOk_counterClear]
    cases hc : objDesc (clearKey v) with
    | none => rfl
    | some c => simpa using hv c hc
  rw [State.inRange, hf, Bool.and_false]

/-- Settles O57: what an accepted clear takes out of the two stores, and the one check that a clear of another object
fails once those before it pass. -/
theorem counterClearZeroesItsCounter : Obligations.CounterClearZeroesItsCounter := by
  intro s v key
  have hkey : clearKey v.toNat = key := clearKey_toNat v
  refine ⟨fun hs => ?cleared, fun w hs hother => ?refused⟩
  case cleared =>
    refine ⟨_, completes_counterClear hs, ?_, fun e he => ?_⟩
    · exact bump_replay ..
    · rw [hkey]
      exact clearCounter_zero (s.bump K.dictRequests) key he
  case refused =>
    obtain ⟨-, -, haccepted⟩ := hs
    obtain ⟨r, hr, hk, -, hbytes⟩ := acts_counterClear
    have hrange : s.inRange r (writeMask K.counterClear (v.toNat % 256 ^ r.bytes)) = false := by
      rw [hbytes, writeMask_counterClear]
      exact inRange_counterClear hk (hkey ▸ hother)
    exact dictCheck_range_of_accepted hr (counterClear_debug hr) haccepted (rangeBad_writeReq hr hk hrange)

end Machine
end Sys2Proof

/-! What every command has in common: it stops where its port is absent, and otherwise runs one effect (R8, R439). -/
namespace Sys2Proof.Machine

/-- A command to the reset and power sequencer runs one effect there. -/
theorem exec_sequencer (c : Instr) (hc : planeOf c = .sequencer) :
    ∃ f : State → State, ∀ x : State, exec c x = run f x := by
  cases c
  case levelTimeout => exact ⟨_, exec_levelTimeout⟩
  case resetLevelComplete => exact ⟨_, exec_resetLevelComplete⟩
  case resetNAssert => exact ⟨_, exec_resetNAssert⟩
  case resetNRelease => exact ⟨_, exec_resetNRelease⟩
  case corePwrGoodFall => exact ⟨_, exec_corePwrGoodFall⟩
  case corePwrGoodRise => exact ⟨_, exec_corePwrGoodRise⟩
  case clockLowerSettle => exact ⟨_, exec_clockLowerSettle⟩
  all_goals exact nomatch hc

/-- A command whose unit or port the build has runs one effect. -/
theorem exec_present (c : Instr) (s : State) (h : (planeOf c).present s = true) :
    ∃ f : State → State, exec c s = run f s := by
  cases hp : planeOf c with
  | sequencer =>
    obtain ⟨f, hf⟩ := exec_sequencer c hp
    exact ⟨f, hf s⟩
  | management =>
    obtain ⟨f, hf⟩ := exec_management c hp
    exact ⟨_, hf s⟩
  | core | enginePort | memoryPort | linkPort =>
    obtain ⟨f, hf⟩ := exec_inCore c s (by rw [hp]; rfl) h
    exact ⟨_, hf s rfl⟩

/-- A command that names a port the build lacks stops (R8). -/
theorem exec_absent (c : Instr) (s : State) (h : (planeOf c).present s = false) : exec c s = .fault .noSuchPort := by
  cases c
  case completionRecord | writeFenceClear | yieldRecord | yieldBoundExpiry | epReadyRise | epReadyFall | preemptRequest
    | spillEnd | restoreIssue | switchIncomingIssue | engineReadRequest | engineWriteBeat | taskWatchdogExpiry
    | engineResetTimeout | epResetRelease | memReadResponse | memWriteResponse | repairResponse | memTimeout
    | portOfflineRise | portOfflineGrant | drainComplete | portOfflineFall | rebuildChunkComplete | pageRestoreComplete
    | memWipeChunk | selfRefreshAck | memTrainingComplete | tickMark | laneSignalLoss | laneChangeSwitch | controlFlit
    | dataFlit | flitTransmit | controlFlitPeriod | linkReplayTimeout | linkDeadTimeout | trainingLock | trainingTimeout
    | identityBlock | downRetrain | refusedRetry | start | laneChangeAckTimeout => exact runPort_absent h _ s
  all_goals exact nomatch h

/-- Settles O3: a present unit runs an effect within the frame of every command, an absent port stops. -/
theorem commandsStopOnlyAtAbsentPorts : Obligations.CommandsStopOnlyAtAbsentPorts := by
  intro c s
  refine ⟨fun h => ?_, exec_absent c s⟩
  obtain ⟨f, hf⟩ := exec_present c s h
  exact ⟨_, hf.trans (run_eq f s), rfl⟩

/-- Settles O4: an effect of a plane that is off is the state itself, within the frame of every command. -/
theorem offPlanesTakeNothing : Obligations.OffPlanesTakeNothing := by
  intro c s hs
  refine ⟨fun hc hp hoff => ?_, fun hc hoff => ?_⟩
  · obtain ⟨f, hf⟩ := exec_inCore c s hc hp
    exact (completes_run hs fun x hx => (hf x hx).trans (congrFun (runCore_eq f) x)).eq (by simp [hoff])
  · obtain ⟨f, hf⟩ := exec_management c hc
    exact (completes_run hs fun x _ => (hf x).trans (congrFun (runMgmt_eq f) x)).eq (by simp [hoff])

/-! The pins after a step (R432, R483). -/

/-- Whether the pins are at their levels does not depend on the queue of commands. -/
theorem Settled.of_pending {s : State} (h : s.Settled) (l : List Instr) :
    ({ s with pending := l } : State).Settled := h

/-- The frame of every command leaves the pins at their levels, whatever the effect. -/
theorem run_settled {f : State → State} {s t : State} (h : run f s = .next t) : t.Settled := by
  obtain rfl := Host.Outcome.next.inj ((run_eq f s).symm.trans h)
  exact Settled.of_pending (settle_settled _) _

theorem exec_settled {c : Instr} {s t : State} (h : exec c s = .next t) : t.Settled := by
  cases hp : (planeOf c).present s with
  | true =>
    obtain ⟨f, hf⟩ := exec_present c s hp
    exact run_settled (hf.symm.trans h)
  | false => exact absurd ((exec_absent c s hp).symm.trans h) (by simp)

/-- Settles O6: a step is a hub cycle or a command, and the frame of both brings the pins to their levels. -/
theorem stepsKeepThePinsSettled : Obligations.StepsKeepThePinsSettled := by
  intro s t _ h
  cases hq : s.pending with
  | nil =>
    have hidle : step s = run idleEff s := by simp only [step, hq, idle]
    exact run_settled (hidle.symm.trans h)
  | cons c rest =>
    have hexec : step s = exec c { s with pending := rest } := by simp only [step, hq]
    exact exec_settled (hexec.symm.trans h)

end Sys2Proof.Machine

/-! Steps, reset and the management transports (R419, R451, R452). -/
namespace Sys2Proof.Machine

/-- Settles O1, by the definition of a step at a queue with a command at its front. -/
theorem stepRunsFrontCommand : Obligations.StepRunsFrontCommand := by
  intro s c rest hq
  simp only [step, hq]

/-- Settles O5, by evaluation at reset. -/
theorem resetIsSettled : Obligations.ResetIsSettled := ⟨rfl, rfl⟩

/-- Settles O7: every table is empty at reset, so every entry of it is its default. -/
theorem resetLeavesNothingBehind : Obligations.ResetLeavesNothingBehind := by
  refine ⟨rfl, rfl, rfl, rfl, rfl, rfl, rfl, rfl, rfl, rfl, rfl, rfl, rfl, rfl, rfl, rfl, fun c => rfl, fun n => rfl,
    fun o => rfl, fun n => rfl, fun p => ?_, rfl, rfl, rfl, rfl, rfl⟩
  have hp : (State.reset.lport p).state = .disabled := rfl
  simp [hp]

/-- With nothing on the output ports, presenting an item leaves that item alone. -/
theorem emit_of_quiet {s : State} (h : s.out = []) (e : Emit) : s.emit e = { s with out := [e] } := by
  simp [State.emit, h]

/-- An acknowledged change of the target's own values. -/
theorem ackWith_of_quiet {s : State} (h : s.out = []) (f : Mgmt → Mgmt) :
    ackWith f s = { s with mgmt := f s.mgmt, out := [.i3cAck] } :=
  emit_of_quiet (s := s.modMgmt f) h _

/-- Two bytes, high byte first. -/
theorem beBytes_two (v : Nat) : beBytes 2 v = [BitVec.ofNat 8 (v / 256), BitVec.ofNat 8 v] := by
  simp [beBytes, leBytes, Nat.shiftRight_eq_div_pow]

/-- Settles O8: each command is one emission, after at most one change of the target's own values. -/
theorem i3cTargetCommands : Obligations.I3cTargetCommands := by
  refine ⟨fun s a static_ hs => ⟨fun h => ?_, fun h => ?_, ?_, ?_⟩, fun s n e hs => ⟨?_, ?_, ?_, ?_, ?_, ?_, ?_, ?_, ?_, ?_⟩,
    fun s hs => ⟨fun h => ?_, fun p rest h => ?_⟩⟩
  · refine (completes_mgmt hs fun x _ => exec_entdaa a x).eq ?_
    rw [entdaaEff, if_pos h, ackWith_of_quiet hs.1]
  · refine (completes_mgmt hs fun x _ => exec_entdaa a x).eq ?_
    rw [entdaaEff, if_neg h, emit_of_quiet hs.1]
  · exact (completes_mgmt hs fun x _ => exec_rstdaa x).eq (ackWith_of_quiet hs.1 _)
  · refine (completes_mgmt hs fun x _ => exec_setdasa static_ a x).eq ?_
    rw [setdasaEff, ackWith_of_quiet hs.1, emit_of_quiet hs.1]
  · exact (completes_mgmt hs fun x _ => exec_getpid x).eq (emit_of_quiet hs.1 _)
  · exact (completes_mgmt hs fun x _ => exec_getbcr x).eq (emit_of_quiet hs.1 _)
  · exact (completes_mgmt hs fun x _ => exec_getdcr x).eq (emit_of_quiet hs.1 _)
  · exact (completes_mgmt hs fun x _ => exec_getstatus x).eq
      (emit_of_quiet (s := { s with clk := { s.clk with freeCount := s.clk.freeCount + 1 } }) hs.1 _)
  · exact (completes_mgmt hs fun x _ => exec_getmwl x).eq (beBytes_two s.mgmt.mwl ▸ emit_of_quiet hs.1 _)
  · exact (completes_mgmt hs fun x _ => exec_getmrl x).eq (beBytes_two s.mgmt.mrl ▸ emit_of_quiet hs.1 _)
  · exact (completes_mgmt hs fun x _ => exec_setmwl n x).eq (ackWith_of_quiet hs.1 _)
  · exact (completes_mgmt hs fun x _ => exec_setmrl n x).eq (ackWith_of_quiet hs.1 _)
  · exact (completes_mgmt hs fun x _ => exec_enec e x).eq (ackWith_of_quiet hs.1 _)
  · exact (completes_mgmt hs fun x _ => exec_disec e x).eq (ackWith_of_quiet hs.1 _)
  · refine (completes_mgmt hs fun x _ => exec_i3cPrivateRead x).eq ?_
    simp only [privateReadEff, h, emit_of_quiet hs.1]
  · refine (completes_mgmt hs fun x _ => exec_i3cPrivateRead x).eq ?_
    simp only [privateReadEff, h]
    exact emit_of_quiet (s := s.modMgmt fun m => { m with packets := rest }) hs.1 _

/-- SET_ENDPOINT_ID gives an endpoint ID that DSP0236 leaves to assign (R452). -/
theorem controlAnswer_setEid (s : State) {eid : Nat} (h0 : 0 < eid) (h1 : eid < 255) :
    s.controlAnswer 1 [BitVec.ofNat 8 0, BitVec.ofNat 8 eid]
      = ({ s with mgmt := { s.mgmt with eid := eid } }, [0, 0, BitVec.ofNat 8 eid, 0]) := by
  have he : (BitVec.ofNat 8 eid).toNat = eid := by simp; omega
  have hn : ¬ (eid = 0 ∨ eid = 255) := by omega
  simp [State.controlAnswer, State.modMgmt, he, hn]

/-- A good packet that holds a whole Nymeran message is that message's request (R451, R452). -/
theorem mctpPacket_whole {s : State} {p : MctpPacket} (hpec : p.pecOk = true) (hdst : p.dst = s.mgmt.eid)
    (hto : p.tagOwner = true) (hsom : p.som = true) (heom : p.eom = true) (hmin : 21 ≤ p.payload.length)
    (hmax : p.payload.length ≤ 64) (htype : p.payload[0]? = some 0x7F)
    (hvendor : ofBe (slice p.payload 1 4) = Config.vendorIana.toNat) (hnone : s.mgmt.assembling = none) :
    s.mctpPacket p = s.nymeranRequest { eid := p.src, tag := p.tag, seq := (p.seq + 1) % 4, bytes := p.payload } := by
  have hfits : ¬ p.payload.length > mctpLongest := by unfold mctpLongest; omega
  have hsame : (s.modMgmt fun x => { x with assembling := none }) = s := by
    unfold State.modMgmt
    rw [← hnone]
  simp [State.mctpPacket, State.mctpJoin, State.mctpMessage, hpec, hdst, hto, hsom, heom, hmin, htype, hvendor,
    hnone, hfits, hsame, not_lt.mpr hmax]

/-- Settles O9, by the answer to each control command and the course of a packet through the endpoint. -/
theorem mctpEndpointAndMessages : Obligations.MctpEndpointAndMessages := by
  refine ⟨fun s eid hs => ⟨fun h0 h1 => ?_, ?_, ?_, ?_, ?_⟩,
    fun s p hs => ⟨fun hpec => ?_, ?request, fun ha => ?_⟩⟩
  · refine (completes_mgmt hs fun x _ => exec_setEndpointId eid x).eq ?_
    simp only [endpointEff, controlAnswer_setEid s h0 h1]
    exact emit_of_quiet (s := s.modMgmt fun m => { m with eid := eid }) hs.1 _
  · exact (completes_mgmt hs fun x _ => exec_getEndpointId x).eq (emit_of_quiet hs.1 _)
  · exact (completes_mgmt hs fun x _ => exec_getMctpVersionSupport x).eq (emit_of_quiet hs.1 _)
  · exact (completes_mgmt hs fun x _ => exec_getMessageTypeSupport x).eq (emit_of_quiet hs.1 _)
  · exact (completes_mgmt hs fun x _ => exec_getVendorDefinedMessageSupport x).eq (emit_of_quiet hs.1 _)
  · refine (completes_mgmt hs fun x _ => exec_mctpMessage [p] x).eq ?_
    simp [mctpMessageEff, State.each, State.mctpPacket, hpec]
  case request =>
    intro hpec hdst hto hsom heom hmin hmax htype hvendor hnone m
    have heff : mctpMessageEff [p] s = s.nymeranRequest m :=
      mctpPacket_whole hpec hdst hto hsom heom hmin hmax htype hvendor hnone
    have hdone := (completes_mgmt hs fun x _ => exec_mctpMessage [p] x).eq heff
    refine ⟨fun hroom => hdone.eq ?_, fun hfull => hdone.eq ?_⟩
    · simp only [State.nymeranRequest, if_pos hroom, State.modMgmt, State.modWin, List.length_append, List.length_singleton]
    · rw [State.nymeranRequest, if_neg (Nat.not_lt.mpr hfull)]
  · refine (completes_mgmt hs fun x _ => exec_mctpAssemblyTimeout x).eq ?_
    rw [mctpAssemblyTimeoutEff, if_pos ha]
    rfl

end Sys2Proof.Machine

/-! Dictionary writes that a boundary puts in force, and those that fail a check (R28, R446 to R449). -/
namespace Sys2Proof.Machine

/-- The WRITE of one element that DICT_WRITE carries, accepted: its value, masked, is what the element takes. -/
theorem dictServe_dictWriteReq {s : State} {answered mctp : Bool} {index sub first : Nat} {value : List Byte} {r : ObjDesc}
    (h : objDesc (index * 256 + sub % 256) = some r)
    (ok : s.dictCheck answered (dictWriteReq mctp index sub first 1 value) = D.ok) :
    s.dictServe (dictWriteReq mctp index sub first 1 value) answered =
      s.wrote fun s => s.writeElem r first (writeMask r.key (ofLe (slice value 0 r.bytes))) := by
  have hq : (dictWriteReq mctp index sub first 1 value).opcode = 2
    ∧ (dictWriteReq mctp index sub first 1 value).key = index * 256 + sub % 256
    ∧ (dictWriteReq mctp index sub first 1 value).first = first := ⟨rfl, rfl, rfl⟩
  have hv : (dictWriteReq mctp index sub first 1 value).values r = [writeMask r.key (ofLe (slice value 0 r.bytes))] := by
    simp [dictWriteReq, DictReq.values]
  unfold State.dictServe
  simp only [ok, ne_eq, not_true_eq_false, if_false, hq, h, hv]
  simp [State.each, State.wrote]

/-- An accepted WRITE of a parameter waits for phase 1, and is logged (R28, R381). -/
theorem writeElem_parameter (s : State) {r : ObjDesc} (he : r.effect = 1) (hk : r.key ≠ K.replayControl) (e v : Nat) :
    s.writeElem r e v =
      (let t : State := { s with dict := { s.dict with
        written := s.putValue s.dict.written r.key e v
        deferred := s.dict.deferred ++ [(dictKey r.key e, v)] } }
      t.logInput t.nextTick L.param 0 0 (at' (r.key / 256) 360 16 + at' r.key 352 8) (paramBody r.bytes e v)) := by
  simp only [State.writeElem, State.deferWrite, if_pos he, if_neg hk]
  rfl

/-- Settles O11: DICT_WRITE is served after the requests that wait, and the element it writes is a parameter. -/
theorem dictWriteDefersParameters : Obligations.DictWriteDefersParameters := by
  intro s mctp index sub first value r hs hr he hk w f ok v
  refine (completes_mgmt hs fun x _ => exec_dictWrite mctp index sub first 1 value x).eq ?_
  exact (dictServe_dictWriteReq hr ok).trans (congrArg f.wrote (funext fun s => writeElem_parameter s he hk first v))

/-- A request that names no object of the directory fails that check first (R449). -/
theorem dictCheck_noObject {s : State} {answered : Bool} {q : DictReq} (hop : q.opcode = 2) (h : objDesc q.key = none) :
    s.dictCheck answered q = D.noObject := by
  simp [State.dictCheck, hop, h]

/-- Settles O12, by the service of a request that fails a check and the frame of a command that stands for a WRITE. -/
theorem dictWriteRefusals : Obligations.DictWriteRefusals := by
  refine ⟨?refused, fun c key e v s hs hc => ?stands⟩
  case refused =>
    intro s mctp index sub first count value hs q w f code
    refine ⟨fun h => dictCheck_noObject rfl h, fun hok hbusy => ?_⟩
    have hserved : f.dictServe q (Config.restoreAnswered w.clk.freeCount) = _ := dictServe_refused hok hbusy
    exact (completes_mgmt hs fun x _ => exec_dictWrite mctp index sub first count value x).eq hserved
  case stands =>
    have hserved := completes_write' hs fun x _ => hc x
    exact ⟨hserved, fun hw => by rwa [serveWaiting_none hw] at hserved⟩

/-! Event counters (R472 to R474). -/

/-- Where the planes run, the management plane runs too. -/
theorem State.Running.managed {s : State} (hs : s.Running) : s.Managed := by
  obtain ⟨hout, hoff⟩ := hs
  refine ⟨hout, ?_⟩
  simp only [State.off, Bool.or_eq_false_iff, Bool.not_eq_false'] at hoff
  exact hoff.1

/-- All events that a counter element and its accumulator hold together. -/
theorem counted_forwardSum_self {s : State} (ha : Sparse.wf 0 s.dict.acc = true) (hc : Sparse.wf 0 s.dict.counters = true)
    (k : Nat) :
    Sparse.get (s.forwardSum k).dict.counters 0 k + Sparse.get (s.forwardSum k).dict.acc 0 k
      = Nat.min counterTop (Sparse.get s.dict.counters 0 k + Sparse.get s.dict.acc 0 k) := by
  have herased : Sparse.get (Sparse.erase s.dict.acc k) 0 k = 0 := by simp [Sparse.get, Sparse.find_erase_self ha]
  simp only [State.forwardSum, Sparse.get_set_self hc, herased, Nat.add_zero]

/-- Forwarding one element's sum leaves every other element (R474). -/
theorem counted_forwardSum_ne (s : State) {k j : Nat} (h : j ≠ k) :
    Sparse.get (s.forwardSum k).dict.counters 0 j = Sparse.get s.dict.counters 0 j
    ∧ Sparse.get (s.forwardSum k).dict.acc 0 j = Sparse.get s.dict.acc 0 j :=
  ⟨Sparse.get_set_ne _ _ _ h, by simp only [State.forwardSum, Sparse.get, Sparse.find_erase_ne _ h]⟩

/-- The accumulator of an element after events are counted in it, before any sum is forwarded (R474). -/
def State.accumulate (s : State) (k n : Nat) : State :=
  { s with dict := { s.dict with acc := Sparse.set s.dict.acc 0 k (Sparse.get s.dict.acc 0 k + n) } }

/-- Counting accumulates, and forwards the sum where it has reached 2^23 (R474). -/
theorem bump_eq (s : State) (key n e : Nat) :
    s.bump key n e = if Sparse.get s.dict.acc 0 (dictKey key e) + n ≥ 2 ^ 23
      then (s.accumulate (dictKey key e) n).forwardSum (dictKey key e) else s.accumulate (dictKey key e) n := rfl

/-- Settles O58: accumulating adds the events, and forwarding moves the sum below the counter's top. -/
theorem countersCountAndForward : Obligations.CountersCountAndForward := by
  refine ⟨fun s key e r hs hr hcls he => ?forwarded, ?counts⟩
  case forwarded =>
    have hlisted : ((objDesc key).map fun r => r.cls == 2 && decide (e < r.elements)).getD false = true := by
      simp [hr, hcls, he]
    exact (completes_mgmt hs.managed fun x _ => exec_counterSumForward key e x).eq (if_pos hlisted)
  case counts =>
    intro s key n e ha hc total
    refine ⟨fun hroom => ?counted, fun k hk => ?other⟩
    case counted =>
      have hacc : Sparse.get (s.accumulate (dictKey key e) n).dict.acc 0 (dictKey key e)
          = Sparse.get s.dict.acc 0 (dictKey key e) + n := Sparse.get_set_self ha _ _
      have hsum : total (s.accumulate (dictKey key e) n) (dictKey key e) = total s (dictKey key e) + n := by
        simp only [total, hacc]; exact (Nat.add_assoc ..).symm
      rw [bump_eq]
      split
      · have htop : total s (dictKey key e) + n ≤ counterTop := by unfold counterTop; omega
        have hwf : Sparse.wf 0 (s.accumulate (dictKey key e) n).dict.acc = true := Sparse.wf_set ha _ _
        calc total ((s.accumulate (dictKey key e) n).forwardSum (dictKey key e)) (dictKey key e)
            = Nat.min counterTop (total (s.accumulate (dictKey key e) n) (dictKey key e)) := counted_forwardSum_self hwf hc _
          _ = total s (dictKey key e) + n := by rw [hsum]; exact Nat.min_eq_right htop
      · exact hsum
    case other =>
      have hacc : Sparse.get (s.accumulate (dictKey key e) n).dict.acc 0 k = Sparse.get s.dict.acc 0 k :=
        Sparse.get_set_ne _ _ _ hk
      have hsame : total (s.accumulate (dictKey key e) n) k = total s k := by simp only [total, hacc]; rfl
      rw [bump_eq]
      split
      · obtain ⟨h1, h2⟩ := counted_forwardSum_ne (s.accumulate (dictKey key e) n) hk
        simp only [total, h1, h2, hacc]; rfl
      · exact hsame

/-! Alarm latches and ALARM_N (R482, R483). -/

/-- In canonical form the entry of an index is the one listed for it. -/
theorem sparse_find_eq_some_iff {α : Type} [DecidableEq α] {d : α} {m : Sparse α} (h : Sparse.wf d m = true) (k : Nat)
    (v : α) : Sparse.find m k = some v ↔ (k, v) ∈ m := by
  induction m with
  | nil => simp
  | cons e t ih =>
    obtain ⟨i, w⟩ := e
    obtain ⟨-, hlt, ht⟩ := (Sparse.wf_cons d i w t).1 h
    by_cases hi : i = k
    · subst hi
      have hnot : (i, v) ∉ t := fun hm => Nat.lt_irrefl _ (hlt _ hm)
      simp [Sparse.find, hnot, eq_comm]
    · simp [Sparse.find, hi, ih ht, Ne.symm hi]

/-- A latch reads as the occurrence leaves it, and every other latch as before (R482). -/
theorem raise_latches (s : State) (code : Nat) : (s.raise code).tele.latches =
    Sparse.set s.tele.latches {} code (Latch.occur (s.latch code) s.tick.number (BitVec.ofNat 32 s.clk.hc)) := by
  simp only [State.raise, bump_tele]
  rfl

/-- An alarm is due exactly where a latch is pending whose mask bit is clear (R483). -/
theorem alarmDue_iff {s : State} (h : Sparse.wf {} s.tele.latches = true) :
    s.alarmDue = true ↔ ∃ c, (s.latch c).pending = true ∧ bit (s.par K.alarmMask) c = false := by
  simp only [State.alarmDue, List.any_eq_true, Bool.and_eq_true, Bool.not_eq_true']
  constructor
  · rintro ⟨⟨c, l⟩, hm, hp, hb⟩
    have hl : s.latch c = l := by simp [State.latch, Sparse.get, (sparse_find_eq_some_iff h c l).2 hm]
    exact ⟨c, hl ▸ hp, hb⟩
  · rintro ⟨c, hp, hb⟩
    cases hf : Sparse.find s.tele.latches c with
    | none => simp [State.latch, Sparse.get, hf] at hp
    | some l =>
      refine ⟨(c, l), (sparse_find_eq_some_iff h c l).1 hf, ?_, hb⟩
      simpa [State.latch, Sparse.get, hf] using hp

/-- Once the pins are brought to their levels, ALARM_N is low exactly where the chip runs and an alarm is due (R483). -/
theorem settle_alarmN (s : State) :
    (State.settle s).pins.alarmN = false ↔ s.pins.resetN = true ∧ s.alarmDue = true := by
  rw [settle_frame]
  simp [State.alarmPin]

/-- ALARM_ACK's one byte holds every code of an alarm (R483, R495). -/
theorem writeMask_alarmAck {code : Nat} (h : code < 128) : writeMask K.alarmAck (code % 256 ^ 1) = code :=
  Nat.mod_eq_of_lt (by omega)

/-- Settles O59: what an occurrence does to its latch, when a latch drives the pin, and the two writes. -/
theorem alarmsLatchAndDriveThePin : Obligations.AlarmsLatchAndDriveThePin := by
  refine ⟨⟨?occurs, fun s h => ?pin⟩, fun s code m => ⟨fun hc hs => ?ack, fun hs => ?mask⟩⟩
  case occurs =>
    intro s code h hc old new
    have hnew : new = Latch.occur old s.tick.number hc := by
      simp only [new, raise_latches, Sparse.get_set_self h]
      rfl
    have hother (c : Nat) (hne : c ≠ code) : Sparse.get (s.raise code).tele.latches {} c = Sparse.get s.tele.latches {} c := by
      rw [raise_latches, Sparse.get_set_ne _ _ _ hne]
    rw [hnew]
    refine ⟨rfl, rfl, rfl, rfl, rfl, ?_, ?_, hother⟩ <;> simp [Latch.occur]
  case pin => exact (settle_alarmN s).trans (and_congr_right fun _ => alarmDue_iff h)
  case ack =>
    refine (completes_wrote acts_alarmAck hs (exec_alarmAck code)).eq ?_
    rw [writeMask_alarmAck hc]
    rfl
  case mask =>
    refine (completes_wrote acts_alarmMask hs (exec_alarmMaskWrite m)).eq ?_
    rw [Nat.mod_eq_of_lt (show m.toNat < 256 ^ 16 from m.isLt)]
    rfl

end Sys2Proof.Machine

/-! A held write that runs on past its block: the stores after it read back otherwise than as they were written (R303,
R316). -/
namespace Sys2Proof.Machine

/-- The memory ports of the build, all ONLINE. -/
def allOnline : Sparse MemPort := (List.range 24).map fun p => (p, { state := .online, trained := true, resetN := true })

/-- A chip at Noon in groups of 12, whose row 1 begins at 45056, where the log ring begins too. A write of two blocks'
bytes is held at the last block of row 0: no held write waits for row 1, yet the bytes of one reach into it. -/
def overrunHold : State := { State.reset with
  power := { started := true, stage := 2 }
  dict := { inForce := [(dictKey K.stripeGroupSize 0, 12), (dictKey K.replayLogBase 0, 45056)] }
  stripe := { ports := allOnline, heldWrites := [{ addr := 45056 - 64, bytes := List.replicate 128 1 }] } }

theorem overrunHold_row_free : (overrunHold.wipeFirst 45056).rowHeld 45056 = false := by decide +kernel

theorem overrunHold_fate : (overrunHold.wipeFirst 45056).writeFate 45056 = .put := by decide +kernel

/-- A zero word written there reads as the held bytes. -/
theorem overrunHold_reads_held : (overrunHold.writeWord 45056 0).peekWord 45056 ≠ 0 := by decide +kernel

/-- Refutes O50: its last clause bounds no held write to its own block, and the bytes of one that is held for another
row reach over the word written. -/
theorem not_storesLeaveOtherBytes : ¬ Obligations.StoresLeaveOtherBytes := by
  rintro ⟨-, h⟩
  exact overrunHold_reads_held (h overrunHold 45056 0 rfl rfl overrunHold_row_free overrunHold_fate)

/-- The log ring of that chip begins where its row 1 does. -/
theorem overrunHold_logAddr : overrunHold.par K.replayLogBase
    + overrunHold.replay.produced.toNat % 2 ^ overrunHold.par K.replayLogLog2 * 64 = 45056 := by decide +kernel

/-- A log word written there reads as the held bytes: what notes that it was produced leaves memory alone. -/
theorem overrunHold_log_reads_held :
    ((State.modReplay (overrunHold.writeWord (overrunHold.logAddr overrunHold.replay.produced) 0) fun r =>
      { r with produced := r.produced + 1, backlog := r.backlog.drop 1 }).bump K.replayEntries).peekWord 45056 ≠ 0 := by
  have ha : overrunHold.logAddr overrunHold.replay.produced = 45056 := overrunHold_logAddr
  rw [ha]
  simpa only [State.peekWord, State.peekNat, State.peek, bump_stripe, modReplay_stripe] using overrunHold_reads_held

/-- Refutes O60, as O50: its last clause bounds no held write to its own block either. -/
theorem not_loggedInputsTakeTheirPlace : ¬ Obligations.LoggedInputsTakeTheirPlace := by
  rintro ⟨-, h⟩
  have hread := h overrunHold 0
  simp only [overrunHold_logAddr] at hread
  exact overrunHold_log_reads_held (hread rfl trivial overrunHold_row_free overrunHold_fate)

end Sys2Proof.Machine

/-! Commands that write one object on which the dictionary acts at once (R28). -/
namespace Sys2Proof.Machine

/-- A command that is an accepted WRITE of an object on which the dictionary acts at once, by what the write does once
the request is counted. -/
theorem completes_acts {c : Instr} {key e v n : Nat} {s : State} {f : State → State} (h : ActsAtOnce key n)
    (hs : s.Accepts key e v) (hx : ∀ x : State, exec c x = runWrite key e v x)
    (hf : (s.bump K.dictRequests).actAtOnce key e (writeMask key (v % 256 ^ n)) = f (s.bump K.dictRequests)) :
    Completes c s (s.wrote f) := by
  refine (completes_wrote h hs hx).eq ?_
  simp only [State.wrote, hf]

/-- A value that fits its object, whose entry has no reserved bits there, is written as it is. -/
theorem completes_acts_plain {c : Instr} {key e v n : Nat} {s : State} {f : State → State} (h : ActsAtOnce key n)
    (hs : s.Accepts key e v) (hx : ∀ x : State, exec c x = runWrite key e v x) (hv : v < 256 ^ n)
    (hm : writeMask key v = v) (hf : (s.bump K.dictRequests).actAtOnce key e v = f (s.bump K.dictRequests)) :
    Completes c s (s.wrote f) :=
  completes_acts h hs hx (by rw [Nat.mod_eq_of_lt hv, hm]; exact hf)

/-- A field placed where its width holds it. -/
theorem at'_of_lt {v lo len : Nat} (h : v < 2 ^ len) : at' v lo len = v * 2 ^ lo := by
  rw [at', Nat.mod_eq_of_lt h, Nat.shiftLeft_eq]

/-- A field of a number, by division. -/
theorem fld_eq (v lo len : Nat) : fld v lo len = v / 2 ^ lo % 2 ^ len := by rw [fld, Nat.shiftRight_eq_div_pow]

end Sys2Proof.Machine

/-! Writes that stop and start units, restore engine ports and bind apertures (R30, R98, R99, R132). -/
namespace Sys2Proof.Machine

section UnitControl
variable {s : State} {u : Nat}

/-- UNIT_STOP's code and unit lie where UNIT_CONTROL has them (R30). -/
theorem exec_unitStop_code (hu : u < 256) (x : State) :
    exec (.unitStop u) x = runWrite K.unitControl 0 (2 ^ 14 + u) x := by
  rw [exec_unitStop, at'_of_lt (by decide), at'_of_lt hu, Nat.one_mul, Nat.pow_zero, Nat.mul_one]

theorem exec_unitStart_code (hu : u < 256) (x : State) :
    exec (.unitStart u) x = runWrite K.unitControl 0 (2 ^ 15 + u) x := by
  rw [exec_unitStart, at'_of_lt (by decide), at'_of_lt hu, Nat.pow_zero, Nat.mul_one,
    show 2 * 2 ^ 14 = 2 ^ 15 from rfl]

theorem actAtOnce_unitStop (hu : u < 256) : s.actAtOnce K.unitControl 0 (2 ^ 14 + u) = s.unitControl true u := by
  have hcode : fld (2 ^ 14 + u) 14 2 = 1 := by rw [fld_eq]; omega
  have hunit : fld (2 ^ 14 + u) 0 8 = u := by rw [fld_eq]; omega
  have heff : s.actAtOnce K.unitControl 0 (2 ^ 14 + u)
    = s.unitControl (fld (2 ^ 14 + u) 14 2 == 1) (fld (2 ^ 14 + u) 0 8) := rfl
  rw [heff, hcode, hunit]; rfl

theorem actAtOnce_unitStart (hu : u < 256) : s.actAtOnce K.unitControl 0 (2 ^ 15 + u) = s.unitControl false u := by
  have hcode : fld (2 ^ 15 + u) 14 2 = 2 := by rw [fld_eq]; omega
  have hunit : fld (2 ^ 15 + u) 0 8 = u := by rw [fld_eq]; omega
  have heff : s.actAtOnce K.unitControl 0 (2 ^ 15 + u)
    = s.unitControl (fld (2 ^ 15 + u) 14 2 == 1) (fld (2 ^ 15 + u) 0 8) := rfl
  rw [heff, hcode, hunit]; rfl

/-- An accepted stop of a unit does what UNIT_CONTROL does with it. -/
theorem completes_unitStop {f : State → State} (hu : u < 256) (hs : s.Accepts K.unitControl 0 (2 ^ 14 + u))
    (hf : (s.bump K.dictRequests).unitControl true u = f (s.bump K.dictRequests)) :
    Completes (.unitStop u) s (s.wrote f) :=
  completes_acts_plain acts_unitControl hs (exec_unitStop_code hu) (by omega) rfl ((actAtOnce_unitStop hu).trans hf)

theorem completes_unitStart {f : State → State} (hu : u < 256) (hs : s.Accepts K.unitControl 0 (2 ^ 15 + u))
    (hf : (s.bump K.dictRequests).unitControl false u = f (s.bump K.dictRequests)) :
    Completes (.unitStart u) s (s.wrote f) :=
  completes_acts_plain acts_unitControl hs (exec_unitStart_code hu) (by omega) rfl ((actAtOnce_unitStart hu).trans hf)

end UnitControl

/-- A write of ENGINE_PORT_RESTORE restores the port that it names. -/
theorem actAtOnce_enginePortRestore (s : State) (p : Nat) : s.actAtOnce K.enginePortRestore 0 p = s.restorePort p := rfl

theorem actAtOnce_enginePortConfig (s : State) (p v : Nat) :
    s.actAtOnce K.enginePortConfig p v = s.writePortConfig p v := rfl

theorem actAtOnce_doorbellBind (s : State) (a v : Nat) :
    s.actAtOnce K.doorbellBind a v = (s.setValue K.doorbellBind a v).modDoorbell a fun d => { d with accepted := 0 } := rfl

theorem actAtOnce_readBind (s : State) (a v : Nat) : s.actAtOnce K.readBind a v = s.setValue K.readBind a v := rfl

/-- Settles O13: each write reaches the unit or port through its fields, and the conditions on the state choose the
branch there. -/
theorem unitAndPortWrites : Obligations.UnitAndPortWrites := by
  refine ⟨?units, fun s p a v => ⟨fun hp hs => ?restore, fun hs => ?config, fun hs => ?doorbell, fun hs => ?read⟩⟩
  case units =>
    intro s u hu keep lift
    refine ⟨fun hs hon => ⟨fun hn => completes_unitStop hu hs ?_, fun hn => completes_unitStop hu hs ?_⟩,
      fun hs hon => completes_unitStart hu hs ?_, fun hs hoff => completes_unitStop hu hs ?_,
      fun hs hoff => completes_unitStart hu hs ?_⟩
    · simp [State.unitControl, State.modUnits, hon, hn, keep]
    · simp [State.unitControl, State.modUnits, hon, hn, keep]
    · simp [State.unitControl, State.modUnits, hon, lift]
    · simp [State.unitControl, State.modUnits, hoff, keep]
    · simp [State.unitControl, State.modUnits, hoff, lift]
  case restore =>
    exact completes_acts_plain acts_enginePortRestore hs (exec_enginePortRestore p) hp rfl rfl
  case config =>
    refine completes_acts acts_enginePortConfig hs (exec_enginePortConfigWrite p v) ?_
    rw [Nat.mod_eq_of_lt (show v.toNat < 256 ^ 2 from v.isLt), actAtOnce_enginePortConfig]
    rfl
  case doorbell =>
    refine completes_acts acts_doorbellBind hs (exec_apertureBind false a v) ?_
    rw [Nat.mod_eq_of_lt (show v.toNat < 256 ^ 2 from v.isLt), actAtOnce_doorbellBind]
  case read =>
    refine completes_acts acts_readBind hs (exec_apertureBind true a v) ?_
    rw [Nat.mod_eq_of_lt (show v.toNat < 256 ^ 2 from v.isLt), actAtOnce_readBind]

end Sys2Proof.Machine

/-! Graph images and queues (R60, R61, R143, R159). -/
namespace Sys2Proof.Machine

theorem actAtOnce_imageLoad (s : State) : s.actAtOnce K.imageLoadGo 0 1 = s.startLoad := rfl

theorem actAtOnce_imageUnload (s : State) : s.actAtOnce K.imageLoadGo 0 2 = s.unload := rfl

/-- Which images are resident, and which are in use, does not depend on the counts. -/
@[simp] theorem bump_image (s : State) (k n e i : Nat) : (s.bump k n e).image i = s.image i := by simp [State.image]
@[simp] theorem bump_unloadable (s : State) (k n e i : Nat) : (s.bump k n e).unloadable i = s.unloadable i := by
  simp [State.unloadable]

/-- Settles O14: the two values of IMAGE_LOAD_GO begin a load and unload the slot, which SLOT_BUSY alone refuses. -/
theorem imageLoadAndUnload : Obligations.ImageLoadAndUnload := by
  intro s
  refine ⟨fun hs => ?_, fun hs => ⟨fun hb => ?_, fun hb => ?_⟩⟩
  · exact completes_acts_plain acts_imageLoadGo hs exec_imageLoad (by decide) rfl (actAtOnce_imageLoad _)
  · refine completes_acts_plain acts_imageLoadGo hs exec_imageUnload (by decide) rfl ((actAtOnce_imageUnload _).trans ?_)
    simp [State.unload, hb]
  · refine completes_acts_plain acts_imageLoadGo hs exec_imageUnload (by decide) rfl ((actAtOnce_imageUnload _).trans ?_)
    simp [State.unload, hb, State.logImage, State.dropImage]

section QueueControl
variable {s : State} {n : Nat}

/-- The fields of QUEUE_CONTROL: what to do, and with which queue (R159). -/
theorem actAtOnce_queueControl {a : Nat} (ha : a < 4) (hn : n < 2 ^ 14) :
    s.actAtOnce K.queueControl 0 (a * 2 ^ 30 + n) = s.queueControl a n := by
  have haction : fld (a * 2 ^ 30 + n) 30 2 = a := by rw [fld_eq]; omega
  have hqueue : fld (a * 2 ^ 30 + n) 0 14 = n := by rw [fld_eq]; omega
  have heff : s.actAtOnce K.queueControl 0 (a * 2 ^ 30 + n)
    = s.queueControl (fld (a * 2 ^ 30 + n) 30 2) (fld (a * 2 ^ 30 + n) 0 14) := rfl
  rw [heff, haction, hqueue]

theorem queueControl_value {a : Nat} (ha : a < 4) (hn : n < 2 ^ 14) : at' a 30 2 + at' n 0 14 = a * 2 ^ 30 + n := by
  rw [at'_of_lt (show a < 2 ^ 2 from ha), at'_of_lt hn, Nat.pow_zero, Nat.mul_one]

/-- QUEUE_CONTROL has no reserved bits. -/
theorem writeMask_queueControl (v : Nat) : writeMask K.queueControl v = v := rfl

/-- An accepted write of QUEUE_CONTROL does to its queue what the action says. -/
theorem completes_queueControl {c : Instr} {a : Nat} {f : State → State} (ha : a < 4) (hn : n < 2 ^ 14)
    (hs : s.Accepts K.queueControl 0 (a * 2 ^ 30 + n))
    (hx : ∀ x : State, exec c x = runWrite K.queueControl 0 (at' a 30 2 + at' n 0 14) x)
    (hf : (s.bump K.dictRequests).queueControl a n = f (s.bump K.dictRequests)) : Completes c s (s.wrote f) :=
  completes_acts_plain acts_queueControl hs (fun x => (hx x).trans (by rw [queueControl_value ha hn])) (by omega)
    (writeMask_queueControl _) ((actAtOnce_queueControl ha hn).trans hf)

end QueueControl

/-- An accepted QUEUE_CONFIG is kept, and the queue starts from it (R159). -/
theorem actAtOnce_queueConfig (s : State) (n w : Nat) :
    s.actAtOnce K.queueConfig n w = (s.setValue K.queueConfig n w).queueConfig n w := rfl

/-- A value kept in the dictionary leaves every queue. -/
theorem queue_setValue (s : State) (key e v n : Nat) : (s.setValue key e v).queue n = s.queue n := rfl

/-- QUEUE_CONFIG: what becomes of the queue, its words and its records (R159). -/
theorem queueConfig_setValue (s : State) (n w : Nat) : (s.setValue K.queueConfig n w).queueConfig n w =
    (let t := ((s.setValue K.queueConfig n w).modQueue n fun _ => {
        base := fld w 64 64, sizeLog2 := fld w 59 5, kind := fld w 56 3, part := fld w 52 4
        ctx := fld w 40 12, cut := fld w 32 8, waiting := (s.queue n).waiting }).bump K.queueWordsFlushed (s.queue n).len
    (s.queue n).accepted.foldl (State.discardRecord (s.queue n).kind) t) := by
  simp only [State.queueConfig, State.each, queue_setValue]

/-- QUEUE_CONFIG's low 32 bits are reserved. -/
theorem writeMask_queueConfig (v : BitVec 128) :
    writeMask K.queueConfig (v.toNat % 256 ^ 16) = v.toNat / 2 ^ 32 * 2 ^ 32 := by
  rw [Nat.mod_eq_of_lt (show v.toNat < 256 ^ 16 from v.isLt)]
  rfl

/-- Settles O15: an action on a queue by the queue's kind, and a configuration by the descriptor that it makes. -/
theorem queueWrites : Obligations.QueueWrites := by
  refine ⟨fun s n hn => ⟨fun hs => ?enable, fun hs => ?disable, fun hs => ?flush⟩, ?config⟩
  case enable =>
    refine completes_queueControl (a := 1) (by decide) hn (by simpa using hs) (exec_queueEnable n) ?_
    by_cases hk : ((s.bump K.dictRequests).queue n).kind ≤ 1 <;> simp [State.queueControl, hk]
  case disable =>
    refine completes_queueControl (a := 2) (by decide) hn hs (exec_queueDisable n) ?_
    by_cases hk : ((s.bump K.dictRequests).queue n).kind ≤ 1 <;> simp [State.queueControl, hk]
  case flush =>
    refine completes_queueControl (a := 3) (by decide) hn hs (exec_queueFlush n) ?_
    by_cases hk : ((s.bump K.dictRequests).queue n).kind ≤ 1 <;> simp [State.queueControl, State.logFlush, hk]
  case config =>
    intro s n v hs
    refine completes_acts acts_queueConfig hs (exec_queueConfigWrite n v) ?_
    rw [writeMask_queueConfig, actAtOnce_queueConfig]
    generalize v.toNat / 2 ^ 32 * 2 ^ 32 = w
    exact queueConfig_setValue _ n w

end Sys2Proof.Machine

/-! Signal objects, barriers, tables and Voxpor swaps (R162, R224, R268). -/
namespace Sys2Proof.Machine

theorem actAtOnce_signalOpen (s : State) (v : Nat) :
    s.actAtOnce K.signalOpen 0 v = s.signalAdmin false (BitVec.ofNat 128 v) := rfl

theorem actAtOnce_signalClose (s : State) : s.actAtOnce K.signalClose 0 1 = s.signalAdmin true 0 := rfl

@[simp] theorem bump_selected (s : State) (k n e : Nat) : (s.bump k n e).selected = s.selected := by
  simp [State.selected]

/-- Freeing an entry of the aligned table changes the Signal Unit alone. -/
theorem freeAlign_adm (s : State) (o : Nat) : (s.freeAlign o).adm = s.adm := by
  unfold State.freeAlign; split <;> rfl

theorem freeAlign_ctx (s : State) (o c : Nat) : (s.freeAlign o).ctx c = s.ctx c := by
  simp only [State.ctx, freeAlign_adm]

/-- An accepted SIGNAL_OPEN is the administration of the selection (R162). -/
theorem completes_signalOpen {s : State} {v : BitVec 128} {f : State → State} (hs : s.Accepts K.signalOpen 0 v.toNat)
    (hf : (s.bump K.dictRequests).signalAdmin false v = f (s.bump K.dictRequests)) :
    Completes (.signalOpen v) s (s.wrote f) :=
  completes_acts_plain acts_signalOpen hs (exec_signalOpen v) v.isLt rfl (by
    rw [actAtOnce_signalOpen, BitVec.ofNat_toNat, BitVec.setWidth_eq]; exact hf)

theorem completes_signalClose {s : State} {f : State → State} (hs : s.Accepts K.signalClose 0 1)
    (hf : (s.bump K.dictRequests).signalAdmin true 0 = f (s.bump K.dictRequests)) :
    Completes .signalClose s (s.wrote f) :=
  completes_acts_plain acts_signalClose hs exec_signalClose (by decide) rfl ((actAtOnce_signalClose _).trans hf)

/-- What SIGNAL_OPEN and SIGNAL_CLOSE do to a selection, once it is known (R162). -/
theorem signalAdmin_of_selected {s : State} {bar : Bool} {n : Nat} (h : s.selected = (bar, n)) (close : Bool) (v : BitVec 128) :
    s.signalAdmin close v =
      (let t := s.logInput s.nextTick L.signalAdmin 0 0
        (at' n 358 18 + flag bar 357 + at' (if close then 2 else 1) 355 2)
        (if close then [] else [BitVec.ofNat 512 v.toNat])
      if close then t.closeSignal bar n else t.openSignal bar n v) := by
  simp only [State.signalAdmin, h]

/-- Settles O16, by the selection, and for an object by whether it has a period. -/
theorem signalOpenAndClose : Obligations.SignalOpenAndClose := by
  intro s v n log fresh
  have hsel {b : Bool} (hb : s.selected.1 = b) : (s.bump K.dictRequests).selected = (b, n) := by
    rw [bump_selected, ← hb]
  refine ⟨fun hs hb => completes_signalOpen hs ?barrier, fun hs hb hp => completes_signalOpen hs ?object,
    fun hs hb hp => completes_signalOpen hs ?aligned, fun hs hb => completes_signalClose hs ?closeBarrier,
    fun hs hb => completes_signalClose hs ?closeObject⟩ <;>
    rw [signalAdmin_of_selected (hsel hb)]
  case barrier => simp [State.openSignal, log, hb]
  case object => simp [State.openSignal, log, hb, hp, fresh, freeAlign_ctx]
  case aligned => simp [State.openSignal, log, hb, hp, fresh, freeAlign_ctx]
  case closeBarrier => simp [State.closeSignal, log, hb]
  case closeObject => simp [State.closeSignal, log, hb]

theorem actAtOnce_tableCommand (s : State) (v : Nat) : s.actAtOnce K.tableCommand 0 v = s.tableCommand v := rfl

theorem actAtOnce_voxporSwap (s : State) (tn : Nat) : s.actAtOnce K.voxporSwap 0 tn = s.startSwap tn := rfl

/-- What a unit's read asks of the ports leaves every table. -/
theorem keepRead_table (s : State) (a n : Nat) : (s.keepRead a).table n = s.table n := by
  have honly : StripeOnly s (s.keepRead a) := by
    unfold State.keepRead
    split
    · exact (unitRead_same s a 2).1
    · exact .refl s
  rw [State.table, honly, State.table]

theorem tableResult_table (s : State) (n r m : Nat) : (s.tableResult n r).table m = s.table m := rfl

/-- An entry other than the default reads as it was written, whatever the form of the table. -/
theorem sparse_get_set_of_ne {α : Type} [DecidableEq α] (m : Sparse α) (k : Nat) {d v : α} (h : v ≠ d) :
    Sparse.get (Sparse.set m d k v) d k = v := by
  simp [Sparse.set, Sparse.get, h]

/-- A table that is not as after reset reads as it was written. -/
theorem table_modTable_self {s : State} {n : Nat} {f : Table → Table} (h : f (s.table n) ≠ {}) :
    (s.modTable n f).table n = f (s.table n) := sparse_get_set_of_ne _ _ h

/-- A table that a close leaves CLOSING keeps the rest of what it holds. -/
theorem closing_table (s : State) (n : Nat) :
    (s.modTable n fun d => { d with state := 3 }).table n = { s.table n with state := 3 } :=
  table_modTable_self fun h => absurd (congrArg Table.state h) (by decide : (3 : Nat) ≠ 0)

/-- Settles O17: the outcome of the check decides whether the table's state changes, which decides whether it is logged. -/
theorem tableWrites : Obligations.TableWrites := by
  refine ⟨fun s => ?commands, fun s tn htn hs => ?swap⟩
  case commands =>
    intro n log
    have hn : (s.bump K.dictRequests).par K.tableSelect = n := bump_par ..
    refine ⟨fun hs => ?open_, fun hs => ?close⟩
    case open_ =>
      refine completes_acts_plain acts_tableCommand hs exec_tableOpen (by decide) rfl ((actAtOnce_tableCommand _ 1).trans ?_)
      generalize s.bump K.dictRequests = b at hn ⊢
      by_cases hr : (b.keepRead (b.par K.tableDescBase + 64 * n)).openReason (b.table n) (b.readTable n) = 0
      · simp [State.tableCommand, hn, State.openCheck, log, keepRead_table, hr]
      · simp [State.tableCommand, hn, State.openCheck, log, keepRead_table, tableResult_table, hr]
    case close =>
      refine completes_acts_plain acts_tableCommand hs exec_tableClose (by decide) rfl ((actAtOnce_tableCommand _ 2).trans ?_)
      generalize s.bump K.dictRequests = b at hn ⊢
      by_cases hr : (b.table n).state = 2
      · simp [State.tableCommand, hn, State.closeCheck, log, hr, closing_table, tableResult_table]
      · simp [State.tableCommand, hn, State.closeCheck, log, tableResult_table, hr]
  case swap =>
    exact completes_acts_plain acts_voxporSwap hs (exec_voxporSwap tn) htn rfl (actAtOnce_voxporSwap _ tn)

end Sys2Proof.Machine

/-! Fields of a word after one of them is replaced. -/
namespace Sys2Proof.Machine

/-- The bits of a field of a word. -/
theorem testBit_bits {w : Nat} (v : BitVec w) (lo len i : Nat) :
    (bits v lo len).testBit i = (decide (i < len) && v.getLsbD (lo + i)) := by
  simp [bits, fld, Nat.testBit_mod_two_pow, Nat.testBit_shiftRight, BitVec.getLsbD]

/-- The bits of a word one of whose fields is replaced. -/
theorem getLsbD_setBits {w : Nat} (v : BitVec w) (lo len x i : Nat) :
    (setBits v lo len x).getLsbD i =
      (decide (i < w) && if lo ≤ i ∧ i < lo + len then x.testBit (i - lo) else v.getLsbD i) := by
  simp only [setBits, at', BitVec.getLsbD_or, BitVec.getLsbD_and, BitVec.getLsbD_not, BitVec.getLsbD_ofNat,
    Nat.testBit_shiftLeft, Nat.testBit_mod_two_pow, Nat.testBit_two_pow_sub_one]
  by_cases hw : i < w
  · by_cases hin : lo ≤ i
    · have hlen : i - lo < len ↔ i < lo + len := by omega
      by_cases h : i < lo + len <;> simp [hw, hin, hlen, h]
    · simp [hw, hin]
  · simp [hw]

/-- A replaced field within the word reads as it was written. -/
theorem bits_setBits_self {w : Nat} (v : BitVec w) {lo len x : Nat} (hw : lo + len ≤ w) (hx : x < 2 ^ len) :
    bits (setBits v lo len x) lo len = x := by
  refine Nat.eq_of_testBit_eq fun i => ?_
  rw [testBit_bits, getLsbD_setBits]
  by_cases hi : i < len
  · simp [hi, show lo + i < w by omega]
  · simp [hi, Nat.testBit_lt_two_pow (hx.trans_le (Nat.pow_le_pow_right (by decide) (Nat.not_lt.mp hi)))]

/-- A field apart from the one replaced reads as before. -/
theorem bits_setBits_apart {w : Nat} (v : BitVec w) {lo len x lo' len' : Nat} (h : lo' + len' ≤ lo ∨ lo + len ≤ lo') :
    bits (setBits v lo len x) lo' len' = bits v lo' len' := by
  refine Nat.eq_of_testBit_eq fun i => ?_
  rw [testBit_bits, testBit_bits, getLsbD_setBits]
  by_cases hi : i < len'
  · have hout : ¬ (lo ≤ lo' + i ∧ lo' + i < lo + len) := by omega
    by_cases hw : lo' + i < w
    · simp [hi, hout, hw]
    · simp [hi, hw, BitVec.getLsbD_of_ge _ _ (Nat.not_lt.mp hw)]
  · simp [hi]

end Sys2Proof.Machine

/-! Writes of the Link Layer and of repeatability (R355 to R382). -/
namespace Sys2Proof.Machine

theorem actAtOnce_linkEnable (s : State) (v : Nat) :
    s.actAtOnce K.linkEnable 0 v = (s.setValue K.linkEnable 0 v).applyLinkEnable v := rfl

theorem actAtOnce_startBarrierGo (s : State) (v : Nat) : s.actAtOnce K.startBarrierGo 0 v = s.startBarrier v := rfl

theorem actAtOnce_solderArm (s : State) (v : Nat) : s.actAtOnce K.solderArm 0 v = s.armSolder (v == 1) := rfl

theorem actAtOnce_rngProbeIn (s : State) (v : Nat) : s.actAtOnce K.rngProbeIn 0 v = s.probe v := rfl

theorem actAtOnce_logConsumed (s : State) (v : Nat) : s.actAtOnce K.logConsumed 0 v =
    State.logFlow { s with replay := { s.replay with consumed := BitVec.ofNat 32 v } } := rfl

/-- A START does not depend on the counts. -/
theorem bump_startOf (s : State) (k n e v : Nat) : (s.bump k n e).startOf v = s.startOf v := by
  simp [State.startOf, State.toBoundary, State.hcOfUs, State.convLevel]

/-- Before the tick runs a START carries the TICK and TIME of the write (R356). -/
theorem startOf_of_stopped {s : State} (h : s.tick.running = false) (v : Nat) : s.startOf v = startRecord v := by
  simp [State.startOf, h]

/-- A START for one chip carries the master's next boundary while the tick runs (R356; log 102). -/
theorem startOf_of_running {s : State} {v : Nat} (h : s.tick.running = true) (hone : bitOf (startRecord v) 27 = false) :
    bits (s.startOf v) 64 64 = (s.tick.number + 1).toNat := by
  simp only [State.startOf, h, hone, Bool.not_false, and_self, if_true]
  rw [bits_setBits_apart _ (by decide), bits_setBits_self _ (by decide) (s.tick.number + 1).isLt]

/-- REPLAY_CONTROL waits for the boundary, and no entry of the log says so (R379, R381). -/
theorem completes_replayControl {s : State} {m : Nat} (hm : m ≤ 2) (hs : s.Accepts K.replayControl 0 m) :
    Completes (.replayControlWrite m) s (s.wrote fun s =>
      { s with
        dict := { s.dict with
          written := s.putValue s.dict.written K.replayControl 0 m
          deferred := s.dict.deferred ++ [(dictKey K.replayControl 0, m)] }
        replay := { s.replay with wanted := some m } }) := by
  obtain ⟨r, hr, hkey, heffect, hbytes⟩ : ∃ r, objDesc K.replayControl = some r ∧ r.key = K.replayControl
    ∧ r.effect = 1 ∧ r.bytes = 1 := ⟨_, rfl, rfl, rfl, rfl⟩
  have hv : writeMask K.replayControl (m % 256 ^ r.bytes) = m := by
    rw [hbytes]
    exact Nat.mod_eq_of_lt (by omega)
  refine (completes_write hs fun x _ => exec_replayControlWrite m x).eq ((dictServe_write hr hkey hs.2.2).trans ?_)
  rw [hv]
  refine congrArg s.wrote (funext fun s => ?_)
  simp only [State.writeElem, State.deferWrite, heffect, hkey, if_true]
  rfl

/-- Settles O18, by the effect of each write on its unit. -/
theorem linkAndReplayWrites : Obligations.LinkAndReplayWrites := by
  intro s v g x c m
  refine ⟨fun hs => ?_, fun hs hmaster => ?start, fun hs => ?_, fun hs => ?_, fun hs => ?_, completes_replayControl, fun hs => ?_⟩
  · exact completes_acts_plain acts_linkEnable hs (exec_linkEnableWrite v) v.isLt rfl (actAtOnce_linkEnable _ _)
  case start =>
    intro r
    have hr : (s.bump K.dictRequests).startOf g.toNat = r := bump_startOf ..
    have hroot : ¬ (s.bump K.dictRequests).par K.tickMasterChip ≠ (s.bump K.dictRequests).chipId := by
      simpa [State.chipId] using hmaster
    refine ⟨?_, fun h => startOf_of_stopped h _, startOf_of_running⟩
    refine completes_acts_plain acts_startBarrierGo hs (exec_startBarrierGo g) g.isLt rfl
      ((actAtOnce_startBarrierGo _ _).trans ?_)
    simp only [State.startBarrier, if_neg hroot, hr]
  · exact completes_acts_plain acts_solderArm hs (exec_solderArm 1) (by decide) rfl (actAtOnce_solderArm _ 1)
  · exact completes_acts_plain acts_solderArm hs (exec_solderArm 0) (by decide) rfl (actAtOnce_solderArm _ 0)
  · exact completes_acts_plain acts_rngProbeIn hs (exec_rngProbeIn x) x.isLt rfl (actAtOnce_rngProbeIn _ _)
  · refine completes_acts_plain acts_logConsumed hs (exec_logConsumedWrite c) c.isLt rfl ((actAtOnce_logConsumed _ _).trans ?_)
    simp

end Sys2Proof.Machine

/-! Writes to the Reset Sequencer (R392 to R422). -/
namespace Sys2Proof.Machine

section ResetRequest
variable {s : State} {level n : Nat}

/-- RESET_REQUEST with the level in its highest four bits and the target in its lowest twelve (R422). -/
theorem actAtOnce_resetRequest (hl : level < 16) (hn : n < 2 ^ 12) :
    s.actAtOnce K.resetRequest 0 (level * 2 ^ 28 + n) = s.resetRequest level n := by
  have hlevel : fld (level * 2 ^ 28 + n) 28 4 = level := by rw [fld_eq]; omega
  have htarget : fld (level * 2 ^ 28 + n) 0 12 = n := by rw [fld_eq]; omega
  have heff : s.actAtOnce K.resetRequest 0 (level * 2 ^ 28 + n)
    = s.resetRequest (fld (level * 2 ^ 28 + n) 28 4) (fld (level * 2 ^ 28 + n) 0 12) := rfl
  rw [heff, hlevel, htarget]

/-- A command that is an accepted RESET_REQUEST does what the request of its level does. -/
theorem completes_resetRequest {c : Instr} {f : State → State} {v : Nat} (hl : level < 16) (hn : n < 2 ^ 12)
    (hv : level * 2 ^ 28 + n = v) (hs : s.Accepts K.resetRequest 0 v)
    (hx : ∀ x : State, exec c x = runWrite K.resetRequest 0 v x)
    (hf : (s.bump K.dictRequests).resetRequest level n = f (s.bump K.dictRequests)) : Completes c s (s.wrote f) := by
  subst hv
  exact completes_acts_plain acts_resetRequest hs hx (by omega) rfl ((actAtOnce_resetRequest hl hn).trans hf)

end ResetRequest

theorem actAtOnce_mcHeartbeat (s : State) (v : Nat) : s.actAtOnce K.mcHeartbeat 0 v = s.heartbeat := rfl

theorem actAtOnce_nightRelease (s : State) : s.actAtOnce K.nightRelease 0 1 = s.releaseNight := rfl

theorem actAtOnce_dumpRequest (s : State) : s.actAtOnce K.dumpRequest 0 1 = s.takeDump 0 0 := rfl

theorem actAtOnce_dumpAck (s : State) : s.actAtOnce K.dumpAck 0 1 = s.freeDump := rfl

theorem actAtOnce_memZeroFill (s : State) (v : Nat) : s.actAtOnce K.memZeroFill 0 v = s.startFill v := rfl

/-- Settles O19: each write reaches the Reset Sequencer through its fields. -/
theorem resetWrites : Obligations.ResetWrites := by
  refine ⟨fun s n hn => ⟨fun hs => ?l0, fun hs => ?l1, fun hs => ?l2, fun hs => ?l3, fun hs => ?l4, fun hs => ?l5⟩,
    fun s b v => ⟨fun hs => ?beat, fun hs => ?release, fun hs => ⟨fun hd => ?dump, fun hd => ?skip⟩, fun hs hd => ?ack,
      fun hs => ?fill⟩⟩
  case l0 =>
    refine completes_resetRequest (level := 0) (by decide) hn (by omega) hs (fun x => ?_) rfl
    rw [exec_resetRequestL0, at'_of_lt hn, Nat.pow_zero, Nat.mul_one]
  case l1 =>
    refine completes_resetRequest (level := 1) (by decide) hn (by omega) hs (fun x => ?_) rfl
    rw [exec_resetRequestL1, at'_of_lt hn, at'_of_lt (by decide), Nat.pow_zero, Nat.mul_one, Nat.one_mul]
  case l2 =>
    refine completes_resetRequest (level := 2) (by decide) hn rfl hs (fun x => ?_) rfl
    rw [exec_resetRequestL2, at'_of_lt hn, at'_of_lt (by decide), Nat.pow_zero, Nat.mul_one]
  case l3 => exact completes_resetRequest (level := 3) (n := 0) (by decide) (by decide) rfl hs exec_resetRequestL3 rfl
  case l4 => exact completes_resetRequest (level := 4) (n := 0) (by decide) (by decide) rfl hs exec_resetRequestL4 rfl
  case l5 => exact completes_resetRequest (level := 5) (n := 0) (by decide) (by decide) rfl hs exec_resetRequestL5 rfl
  case beat =>
    exact completes_acts_plain acts_mcHeartbeat hs (exec_mcHeartbeat b) b.isLt rfl (actAtOnce_mcHeartbeat _ _)
  case release =>
    exact completes_acts_plain acts_nightRelease hs exec_nightRelease (by decide) rfl (actAtOnce_nightRelease _)
  case dump =>
    refine completes_acts_plain acts_dumpRequest hs exec_dumpRequest (by decide) rfl ((actAtOnce_dumpRequest _).trans ?_)
    exact if_neg (by simpa using hd)
  case skip =>
    refine completes_acts_plain acts_dumpRequest hs exec_dumpRequest (by decide) rfl ((actAtOnce_dumpRequest _).trans ?_)
    exact if_pos (by simpa using hd)
  case ack =>
    refine completes_acts_plain acts_dumpAck hs exec_dumpAck (by decide) rfl ((actAtOnce_dumpAck _).trans ?_)
    exact if_pos (by simpa using hd)
  case fill =>
    exact completes_acts_plain acts_memZeroFill hs (exec_memZeroFill v) v.isLt rfl (actAtOnce_memZeroFill _ _)

end Sys2Proof.Machine

/-! START_GO, power requests and self-tests (R424, R428, R437 to R445). -/
namespace Sys2Proof.Machine

theorem actAtOnce_startGo (s : State) : s.actAtOnce K.startGo 0 1 = s.startPorts := rfl

theorem actAtOnce_powerRequest (s : State) (t : Nat) : s.actAtOnce K.powerRequest 0 t = s.powerRequest t := rfl

/-- A POWER_REQUEST is refused for P2 where a memory port is not ONLINE or waits for its wipe (R437). -/
theorem powerRefused_iff (s : State) (t : Nat) : s.powerRefused t = true ↔
    t = 2 ∧ ∃ p ∈ s.memoryPorts, (s.mport p).state ≠ .online ∨ (s.mport p).wipe ≠ {} := by
  simp [State.powerRefused]

@[simp] theorem bump_powerRefused (s : State) (k n e t : Nat) : (s.bump k n e).powerRefused t = s.powerRefused t := by
  simp [State.powerRefused, State.memoryPorts, State.mport]

section PowerRequest
variable {s : State} {t : Nat}

theorem powerRequest_same (h : t = s.power.state) :
    s.powerRequest t = { s with power := { s.power with result := 0 } } := if_pos h

theorem powerRequest_refused (h : t ≠ s.power.state) (hr : s.powerRefused t = true) :
    s.powerRequest t = { s with power := { s.power with result := 2 } } := by
  simp only [State.powerRequest, if_neg h, if_pos hr]
  rfl

/-- From P0 and P1, and for P3 from P2, the request waits for boundaries. -/
theorem powerRequest_waits (h : t ≠ s.power.state) (hr : s.powerRefused t = false) (h3 : s.power.state ≠ 3)
    (h2 : ¬ (s.power.state = 2 ∧ t ≤ 1)) :
    s.powerRequest t = { s with power := { s.power with target := some t, result := 1 } } := by
  simp [State.powerRequest, State.modPower, h, hr, h3, h2]

theorem powerRequest_leaves (h2 : s.power.state = 2) (ht : t ≤ 1) :
    s.powerRequest t = ({ s with power := { s.power with target := some t, result := 1 } } : State).leaveP2 t := by
  have hr : s.powerRefused t = false := by simp [State.powerRefused, show t ≠ 2 by omega]
  simp [State.powerRequest, State.modPower, h2, show t ≠ 2 by omega, hr, ht]

theorem powerRequest_exits (h3 : s.power.state = 3) (ht : t ≤ 2) (hr : s.powerRefused t = false)
    (hg : s.pins.corePwrGood = false) :
    s.powerRequest t = { s with
      power := { s.power with target := some t, result := 1, p3Exit := true }
      pins := { s.pins with corePwrReq := true } } := by
  simp [State.powerRequest, State.modPower, h3, show t ≠ 3 by omega, hr, hg]

end PowerRequest

/-- A command of R437 is its POWER_REQUEST. -/
theorem completes_powerRequest {c : Instr} {t : Nat} {s : State} {f : State → State}
    (hc : (c, t) ∈ [(Instr.powerRequestP0, 0), (.powerRequestP1, 1), (.powerRequestP2, 2), (.powerRequestP3, 3)])
    (hs : s.Accepts K.powerRequest 0 t) (hf : (s.bump K.dictRequests).powerRequest t = f (s.bump K.dictRequests)) :
    Completes c s (s.wrote f) := by
  have hx : (∀ x : State, exec c x = runWrite K.powerRequest 0 t x) ∧ t < 256 ^ 1 := by
    simp only [List.mem_cons, List.not_mem_nil, or_false, Prod.mk.injEq] at hc
    rcases hc with ⟨rfl, rfl⟩ | ⟨rfl, rfl⟩ | ⟨rfl, rfl⟩ | ⟨rfl, rfl⟩ <;> exact ⟨fun _ => rfl, by decide⟩
  exact completes_acts_plain acts_powerRequest hs hx.1 hx.2 rfl ((actAtOnce_powerRequest _ _).trans hf)

theorem actAtOnce_selftestRequest (s : State) (v : Nat) :
    s.actAtOnce K.selftestRequest 0 v = s.startTest (Test.kind v) (Test.target v) := rfl

section SelfTest
variable {s : State} {kind target : Nat} (force : Bool)

/-- The value of a self-test's request, by its fields (R445). -/
theorem testRequest_eq (hk : kind < 2 ^ 8) (ht : target < 2 ^ 16) :
    testRequest kind target force = flag force 31 + kind * 2 ^ 16 + target := by
  rw [testRequest, at'_of_lt hk, at'_of_lt ht, Nat.pow_zero, Nat.mul_one]

/-- The fields of a self-test's request are read as they were placed (R445). -/
theorem testRequest_fields (hk : kind < 2 ^ 8) (ht : target < 2 ^ 16) :
    testRequest kind target force < 256 ^ 4 ∧ Test.kind (testRequest kind target force) = kind
      ∧ Test.target (testRequest kind target force) = target := by
  have hflag : flag force 31 = 0 ∨ flag force 31 = 2 ^ 31 := by cases force <;> simp [flag]
  rw [testRequest_eq force hk ht, Test.kind, Test.target, fld_eq, fld_eq]
  omega

variable {force}

/-- An accepted SELFTEST_REQUEST of a kind and a target. -/
theorem completes_selftest {c : Instr} {f : State → State} (hk : kind < 2 ^ 8) (ht : target < 2 ^ 16)
    (hs : s.Accepts K.selftestRequest 0 (testRequest kind target force))
    (hx : ∀ x : State, exec c x = runWrite K.selftestRequest 0 (testRequest kind target force) x)
    (hf : (s.bump K.dictRequests).startTest kind target = f (s.bump K.dictRequests)) : Completes c s (s.wrote f) := by
  obtain ⟨hlt, hkind, htarget⟩ := testRequest_fields force hk ht
  refine completes_acts_plain acts_selftestRequest hs hx hlt rfl ?_
  rw [actAtOnce_selftestRequest, hkind, htarget, hf]

/-- A disruptive test waits for the boundary at Noon (R443). -/
theorem startTest_waits (hk : 16 ≤ kind) (hn : s.power.stage = 2) : s.startTest kind target =
    { s with power := { s.power with
      selfTest := { s.power.selfTest with state := 1, kind := kind, target := target, waitTick := true } } } := by
  simp [State.startTest, State.modPower, hk, hn]

theorem startTest_runs (h : kind < 16 ∨ s.power.stage ≠ 2) : s.startTest kind target =
    State.runTest { s with power := { s.power with
      selfTest := { s.power.selfTest with state := 1, kind := kind, target := target, waitTick := false } } } := by
  have hw : (decide (kind ≥ 0x10) && s.power.stage == 2) = false := by
    rcases h with h | h
    · simp [show ¬ 16 ≤ kind by omega]
    · simp [h]
  simp only [State.startTest, hw]
  rfl

end SelfTest

/-- The commands of R445, each with its kind, its target and whether it is forced. -/
theorem exec_selftest {c : Instr} {kind v : Nat} {target : BitVec 16} {force : Bool}
    (hc : (c, kind, v) ∈ [(Instr.sramBist target, T.sramBist, T.sramBist * 2 ^ 16 + target.toNat),
        (.laneCal target, T.laneCal, T.laneCal * 2 ^ 16 + target.toNat),
        (.memRetrain target, T.memRetrain, T.memRetrain * 2 ^ 16 + target.toNat),
        (.memMarch target force, T.memMarch, flag force 31 + T.memMarch * 2 ^ 16 + target.toNat),
        (.linkLoopback target force, T.linkLoopback, flag force 31 + T.linkLoopback * 2 ^ 16 + target.toNat),
        (.logicBist target force, T.logicBist, flag force 31 + T.logicBist * 2 ^ 16 + target.toNat)]) :
    ∃ forced : Bool, kind < 2 ^ 8 ∧ v = testRequest kind target.toNat forced
      ∧ ∀ x : State, exec c x = runWrite K.selftestRequest 0 (testRequest kind target.toNat forced) x := by
  have plain {k : Nat} (hk : k < 2 ^ 8) : k * 2 ^ 16 + target.toNat = testRequest k target.toNat false := by
    rw [testRequest_eq false hk target.isLt]
    simp [flag]
  have forced {k : Nat} (hk : k < 2 ^ 8) :
      flag force 31 + k * 2 ^ 16 + target.toNat = testRequest k target.toNat force :=
    (testRequest_eq force hk target.isLt).symm
  simp only [List.mem_cons, List.not_mem_nil, or_false, Prod.mk.injEq] at hc
  rcases hc with ⟨rfl, rfl, rfl⟩ | ⟨rfl, rfl, rfl⟩ | ⟨rfl, rfl, rfl⟩ | ⟨rfl, rfl, rfl⟩ | ⟨rfl, rfl, rfl⟩ | ⟨rfl, rfl, rfl⟩
  · exact ⟨false, by decide, plain (by decide), exec_sramBist target⟩
  · exact ⟨false, by decide, plain (by decide), exec_laneCal target⟩
  · exact ⟨false, by decide, plain (by decide), exec_memRetrain target⟩
  · exact ⟨force, by decide, forced (by decide), exec_memMarch target force⟩
  · exact ⟨force, by decide, forced (by decide), exec_linkLoopback target force⟩
  · exact ⟨force, by decide, forced (by decide), exec_logicBist target force⟩

/-- Settles O20: what each request does in the power state and the stage at hand. -/
theorem startPowerAndTestWrites : Obligations.StartPowerAndTestWrites := by
  refine ⟨fun s hs => ?start, ?power, fun s c kind v target force hc hs => ?test⟩
  case start =>
    exact completes_acts_plain acts_startGo hs exec_startGo (by decide) rfl (actAtOnce_startGo _)
  case power =>
    intro s c t hc hs refused
    have accepted (h : ¬ refused) : (s.bump K.dictRequests).powerRefused t = false :=
      (bump_powerRefused ..).trans (Bool.eq_false_iff.mpr fun hr => h ((powerRefused_iff s t).mp hr))
    refine ⟨fun h => completes_powerRequest hc hs (powerRequest_same (by simpa using h)), fun h hr => ?_,
      fun h1 h hr => ?_, fun h2 ht => ?_, fun h2 ht => ?_, fun h3 ht hr hg => ?_⟩
    · exact completes_powerRequest hc hs (powerRequest_refused (by simpa using h)
        ((bump_powerRefused ..).trans ((powerRefused_iff s t).mpr hr)))
    · refine completes_powerRequest hc hs (powerRequest_waits (by simpa using h) (accepted hr) ?_ ?_) <;> simp <;> omega
    · exact completes_powerRequest hc hs (powerRequest_leaves (by simpa using h2) ht)
    · subst ht
      refine completes_powerRequest hc hs (powerRequest_waits ?_ rfl ?_ ?_) <;> simp [h2]
    · exact completes_powerRequest hc hs (powerRequest_exits (by simpa using h3) ht (accepted hr) (by simpa using hg))
  case test =>
    obtain ⟨forced, hk, rfl, hx⟩ := exec_selftest hc
    refine ⟨fun h16 hn => completes_selftest hk target.isLt hs hx (startTest_waits h16 (by simpa using hn)),
      fun h => completes_selftest hk target.isLt hs hx (startTest_runs (by simpa using h))⟩

end Sys2Proof.Machine

/-! Bytes and the numbers they spell (R12). -/
namespace Sys2Proof.Machine

/-- Bytes are the little-endian bytes of the number they spell. -/
theorem leBytes_ofLe (bs : List Byte) : leBytes bs.length (ofLe bs) = bs := by
  induction bs with
  | nil => rfl
  | cons b bs ih =>
    have hb : b.toNat < 2 ^ 8 := b.isLt
    have hlow : BitVec.ofNat 8 (b.toNat + ofLe bs * 2 ^ 8) = b := by
      apply BitVec.eq_of_toNat_eq
      rw [BitVec.toNat_ofNat]
      omega
    have hhigh : (b.toNat + ofLe bs * 2 ^ 8) / 2 ^ 8 = ofLe bs := by omega
    simp only [List.length_cons, leBytes, ofLe, Nat.shiftLeft_eq, Nat.shiftRight_eq_div_pow, hlow, hhigh, ih]

/-- Little-endian bytes depend on their number as far as its width only. -/
theorem leBytes_mod (n v : Nat) : leBytes n (v % 256 ^ n) = leBytes n v := by
  have h := leBytes_ofLe (leBytes n v)
  rwa [length_leBytes, ofLe_leBytes] at h

theorem leBytes_add_mul (n v x : Nat) : leBytes n (v + x * 256 ^ n) = leBytes n v := by
  rw [← leBytes_mod, Nat.add_mul_mod_self_right, leBytes_mod]

theorem drop_leBytes (n v lo : Nat) : (leBytes n v).drop lo = leBytes (n - lo) (v / 256 ^ lo) := by
  induction lo generalizing n v with
  | zero => simp
  | succ lo ih =>
    cases n with
    | zero => simp [leBytes]
    | succ n =>
      have hpow : (2 : Nat) ^ 8 * 256 ^ lo = 256 ^ (lo + 1) := by ring
      rw [leBytes, List.drop_succ_cons, ih, Nat.shiftRight_eq_div_pow, Nat.div_div_eq_div_mul, Nat.add_sub_add_right, hpow]

theorem take_leBytes {n k : Nat} (h : k ≤ n) (v : Nat) : (leBytes n v).take k = leBytes k v := by
  induction k generalizing n v with
  | zero => simp [leBytes]
  | succ k ih =>
    obtain ⟨n, rfl⟩ : ∃ m, n = m + 1 := ⟨n - 1, by omega⟩
    rw [leBytes, leBytes, List.take_succ_cons, ih (by omega)]

/-- Some of the little-endian bytes of a number. -/
theorem slice_leBytes {n lo k : Nat} (h : lo + k ≤ n) (v : Nat) : slice (leBytes n v) lo k = leBytes k (v / 256 ^ lo) := by
  rw [slice, drop_leBytes, take_leBytes (by omega)]

theorem ofLe_lt (bs : List Byte) : ofLe bs < 256 ^ bs.length := by
  have h := ofLe_leBytes bs.length (ofLe bs)
  rw [leBytes_ofLe] at h
  rw [h]
  exact Nat.mod_lt _ (Nat.pow_pos (by decide))

/-- A word of n bytes fits in them. -/
theorem toNat_lt_bytes {n : Nat} (x : BitVec (8 * n)) : x.toNat < 256 ^ n := x.isLt.trans_eq (Nat.pow_mul 2 8 n)

@[simp] theorem length_beBytes (n v : Nat) : (beBytes n v).length = n := by simp [beBytes]

theorem firstHigh_lt (n v : Nat) : firstHigh n v < 256 ^ n := by
  simpa [firstHigh] using ofLe_lt (beBytes n v)

/-- A value whose first byte is highest, spelt big-endian by its little-endian bytes. -/
theorem ofBe_leBytes_firstHigh (n v : Nat) : ofBe (leBytes n (firstHigh n v)) = v % 256 ^ n := by
  have h : leBytes n (firstHigh n v) = beBytes n v := by
    conv_lhs => rw [← length_beBytes n v, firstHigh, length_beBytes]
    simpa using leBytes_ofLe (beBytes n v)
  rw [h, ofBe, beBytes, List.reverse_reverse, ofLe_leBytes]

end Sys2Proof.Machine

/-! DEBUG_LEVEL, the challenge, grants, provisioning, firmware and debug memory (R456 to R470). -/
namespace Sys2Proof.Machine

theorem actAtOnce_debugLevel (s : State) (v : Nat) : s.actAtOnce K.debugLevel 0 v = s.writeDebug v := rfl

/-- A lowering of the level leaves the level itself to its write. -/
theorem lowerInDump_mgmt (s : State) : s.lowerInDump.mgmt = s.mgmt := by
  unfold State.lowerInDump
  split <;> rfl

/-- A level other than the one in force clears the grants, and below OPEN disarms Solder (R459, R469). -/
theorem setDebug_of_ne {s : State} {v : Nat} (h : v ≠ s.mgmt.debugLevel) : s.setDebug v =
    (let s := if v < 2 then s.lowerInDump else s
     let s : State := { s with mgmt := { s.mgmt with debugLevel := v, solderGrant := 0 } }
     if v < 2 then { s with links := { s.links with solderArmed := false } } else s) := by
  have hl : (if v < 2 then s.lowerInDump else s).mgmt.debugLevel ≠ v := by
    split <;> simpa [lowerInDump_mgmt] using h.symm
  simp only [State.setDebug, State.modMgmt, if_neg hl]
  rfl

/-- A read of AUTH_CHALLENGE that passes the checks of R449 (R462). -/
theorem dictServe_authChallenge {s : State} (ok : s.dictCheck false (readReq K.authChallenge) = D.ok) :
    s.dictServe (readReq K.authChallenge) =
      (let t : State := { s.bump K.dictRequests with clk := { s.clk with freeCount := s.clk.freeCount + 1 } }
       let n := Config.nonce s.clk.freeCount
       { t with
        mgmt := { t.mgmt with nonce := some n }
        dict := { t.dict with lastResult := D.ok, lastValue := leBytes 48 (firstHigh 48 n.toNat) } }) := by
  obtain ⟨r, hr, hb, hkey⟩ : ∃ r, objDesc (readReq K.authChallenge).key = some r ∧ r.bytes = 48
    ∧ r.key = K.authChallenge := ⟨_, rfl, rfl, rfl⟩
  have hm : (readReq K.authChallenge).mctp = true := rfl
  unfold State.dictServe
  simp only [ok, hr, hm, Bool.not_true, and_false, ne_eq, not_true_eq_false, if_false, if_true, State.dictValue, State.readTouch, hkey,
    State.challenge, State.modMgmt, Option.map_some, hb, show (readReq K.authChallenge).opcode = 1 from rfl,
    Bool.false_eq_true]
  simp only [State.fresh, bump_clk]

/-- Settles O21: a write of DEBUG_LEVEL by the level in force, and a read of the challenge. -/
theorem debugLevelAndChallenge : Obligations.DebugLevelAndChallenge := by
  intro s v hv
  have written {f : State → State} (hs : s.Accepts K.debugLevel 0 v)
      (hf : (s.bump K.dictRequests).writeDebug v = f (s.bump K.dictRequests)) :
      Completes (.debugLevelWrite v) s (s.wrote f) :=
    completes_acts_plain acts_debugLevel hs (exec_debugLevelWrite v) (by omega) rfl ((actAtOnce_debugLevel _ _).trans hf)
  refine ⟨fun hs => ⟨fun h => written hs (if_pos (by simpa using h)), fun h hc hl => written hs ?_,
    fun h hl => written hs ?_⟩, fun hs ok => ?_⟩
  · rw [State.writeDebug, if_neg (by simpa using h), if_pos (by simpa using ⟨hc, hl⟩)]
    rfl
  · rw [State.writeDebug, if_neg (by simpa using h), if_neg (by simpa using hl)]
    exact setDebug_of_ne (by simpa using h)
  · exact (completes_mgmt hs fun x _ => exec_authChallenge x).eq (dictServe_authChallenge ok)

/-- The parts of AUTH_RESPONSE are read as they were placed (R463). -/
theorem authValue_fields (r x : BitVec 384) {g n : Nat} (hg : g < 2 ^ 8) (hn : n < 2 ^ 16) :
    authValue r x g n < 256 ^ 128 ∧ Auth.r (authValue r x g n) = r.toNat ∧ Auth.s (authValue r x g n) = x.toNat
      ∧ Auth.grant (authValue r x g n) = g ∧ Auth.ports (authValue r x g n) = n := by
  have hr := firstHigh_lt 48 r.toNat
  have hx := firstHigh_lt 48 x.toNat
  have hrr : r.toNat % 256 ^ 48 = r.toNat := Nat.mod_eq_of_lt (toNat_lt_bytes (n := 48) r)
  have hxx : x.toNat % 256 ^ 48 = x.toNat := Nat.mod_eq_of_lt (toNat_lt_bytes (n := 48) x)
  have hrb := ofBe_leBytes_firstHigh 48 r.toNat
  have hxb := ofBe_leBytes_firstHigh 48 x.toNat
  rw [hrr] at hrb
  rw [hxx] at hxb
  rw [authValue, at'_of_lt hr, at'_of_lt hx, at'_of_lt hg, at'_of_lt hn]
  generalize firstHigh 48 r.toNat = a at hr hrb ⊢
  generalize firstHigh 48 x.toNat = b at hx hxb ⊢
  have hd80 : (a * 2 ^ 640 + b * 2 ^ 256 + g * 2 ^ 248 + n * 2 ^ 232) / 256 ^ 80 = a := by omega
  have hd32 : (a * 2 ^ 640 + b * 2 ^ 256 + g * 2 ^ 248 + n * 2 ^ 232) / 256 ^ 32 = b + a * 256 ^ 48 := by omega
  refine ⟨by omega, ?_, ?_, ?_, ?_⟩
  · rw [Auth.r, slice_leBytes (by decide), hd80, hrb]
  · rw [Auth.s, slice_leBytes (by decide), hd32, leBytes_add_mul, hxb]
  · rw [Auth.grant, fld_eq]; omega
  · rw [Auth.ports, fld_eq]; omega

theorem actAtOnce_authResponse (s : State) (v : Nat) : s.actAtOnce K.authResponse 0 v =
    s.authRespond (Auth.r v) (Auth.s v) (Auth.grant v) (Auth.ports v) := rfl

/-- A grant of R463 is the WRITE of AUTH_RESPONSE that carries it. -/
theorem exec_grant {c : Instr} {g : Nat} {r x : BitVec 384} {ports : BitVec 16}
    (hc : (c, g) ∈ [(Instr.grantObserve r x, G.observe), (.grantOpen r x, G.open_), (.grantSolder r x ports, G.solder),
      (.grantDeploy r x, G.deploy), (.grantReturn r x, G.return_)]) :
    g < 2 ^ 8 ∧ ∀ y : State, exec c y =
      runWrite K.authResponse 0 (authValue r x g (if g = G.solder then ports.toNat else 0)) y := by
  simp only [List.mem_cons, List.not_mem_nil, or_false, Prod.mk.injEq] at hc
  rcases hc with ⟨rfl, rfl⟩ | ⟨rfl, rfl⟩ | ⟨rfl, rfl⟩ | ⟨rfl, rfl⟩ | ⟨rfl, rfl⟩ <;> exact ⟨by decide, fun _ => rfl⟩

@[simp] theorem bump_grantSigned (s : State) (k m e : Nat) (nonce : BitVec 384) (r x g n : Nat) :
    (s.bump k m e).grantSigned nonce r x g n = s.grantSigned nonce r x g n := by
  simp [State.grantSigned, State.grantMessage]

/-- An answer to a challenge that is open, where no lock holds: its signature decides, and then the grant takes effect
(R464). -/
theorem authRespond_of_nonce {s : State} {nonce : BitVec 384} (hn : s.mgmt.nonce = some nonce)
    (hf : s.mgmt.authFailures < 8) {g : Nat} (hg : s.grantRefused g = false) (r x n : Nat) :
    s.authRespond r x g n =
      (let s : State := { s with mgmt := { s.mgmt with nonce := none } }
       if s.grantSigned nonce r x g n then
        ({ s with mgmt := { s.mgmt with authResult := 1 } } : State).applyGrant g n
       else s.authFailure 2) := by
  have hlock : (s.modMgmt fun m => { m with nonce := none }).authLocked = false := by
    simpa [State.authLocked, State.modMgmt] using hf
  have hrefused : (s.modMgmt fun m => { m with nonce := none }).grantRefused g = false := hg
  simp only [State.authRespond, hlock, hn, hrefused, Bool.false_eq_true, if_false]
  cases hsig : (s.modMgmt fun m => { m with nonce := none }).grantSigned nonce r x g n
  · exact (if_neg (by simpa [State.modMgmt] using hsig)).symm
  · exact (if_pos (by simpa [State.modMgmt] using hsig)).symm

/-- Settles O22: AUTH_RESPONSE carries the grant's fields, and the answer to the challenge decides. -/
theorem grantsTakeEffect : Obligations.GrantsTakeEffect := by
  intro s c g r x ports nonce hc n hs hn hf hg
  obtain ⟨hg8, hx⟩ := exec_grant hc
  have hn16 : n < 2 ^ 16 := by
    have := ports.isLt
    simp only [n]
    split <;> omega
  obtain ⟨hlt, hr, hsig, hgrant, hports⟩ := authValue_fields r x hg8 hn16
  refine completes_acts_plain acts_authResponse hs hx hlt rfl ((actAtOnce_authResponse _ _).trans ?_)
  rw [hr, hsig, hgrant, hports]
  refine (authRespond_of_nonce (nonce := nonce) (by simpa using hn) (by simpa using hf) ?_ _ _ _).trans ?_
  · simpa [State.grantRefused, State.transitionRefused] using hg
  · have hsolder : g = G.solder → n = ports.toNat := fun h => if_pos h
    simp only [State.applyGrant]
    by_cases h : g = G.solder
    · simp only [h, hsolder h, BitVec.ofNat_toNat, BitVec.setWidth_eq]
      rfl
    · simp only [if_neg h]
      rfl

/-- Bytes that fill FW_LOAD_DATA are written as they are. -/
theorem dictServe_fwLoadData {s : State} {bytes : List Byte} (hlen : bytes.length = 1024)
    (ok : s.dictCheck false { writeReq K.fwLoadData 0 0 with length := 1024, value := bytes } = D.ok) :
    s.dictServe { writeReq K.fwLoadData 0 0 with length := 1024, value := bytes } = s.wrote fun s => s.fwLoad bytes := by
  obtain ⟨r, hr, hkey, hb, he⟩ : ∃ r, objDesc (0x1202 * 256 + 2 % 256) = some r ∧ r.key = K.fwLoadData ∧ r.bytes = 1024
    ∧ r.effect ≠ 1 := ⟨_, rfl, rfl, rfl, by decide⟩
  have hq : ({ writeReq K.fwLoadData 0 0 with length := 1024, value := bytes } : DictReq) =
      dictWriteReq true 0x1202 2 0 1 bytes := by rw [dictWriteReq, hlen]; rfl
  have hv : slice bytes 0 1024 = bytes := List.take_of_length_le hlen.le
  have hbytes : leBytes 1024 (ofLe bytes) = bytes := hlen ▸ leBytes_ofLe bytes
  rw [hq] at ok ⊢
  rw [dictServe_dictWriteReq hr ok, hkey, hb, hv]
  refine congrArg s.wrote (funext fun s => ?_)
  have hact : s.actAtOnce K.fwLoadData 0 (ofLe bytes) = s.fwLoad (leBytes 1024 (ofLe bytes)) := rfl
  rw [hbytes] at hact
  rw [State.writeElem, if_neg he, hkey]
  exact hact

theorem actAtOnce_lifecycleProvision (s : State) (v : Nat) :
    s.actAtOnce K.lifecycleProvision 0 v = s.provision (provisionKey v) := rfl

theorem actAtOnce_fwLoadGo (s : State) : s.actAtOnce K.fwLoadGo 0 1 = s.fwGo := rfl

theorem actAtOnce_debugMemData (s : State) (v : Nat) :
    s.actAtOnce K.debugMemData 0 v = s.debugWrite (BitVec.ofNat 512 v) := rfl

/-- The key of LIFECYCLE_PROVISION, its first byte highest, is installed as it is (R456). -/
theorem provisionKey_firstHigh (key : BitVec 768) : provisionKey (firstHigh 96 key.toNat) = key := by
  rw [provisionKey, ofBe_leBytes_firstHigh, Nat.mod_eq_of_lt (toNat_lt_bytes (n := 96) key),
    BitVec.ofNat_toNat, BitVec.setWidth_eq]

/-- A read of DEBUG_MEM_DATA that passes the checks of R449 (R461). -/
theorem dictServe_debugMemRead {s : State} (ok : s.dictCheck false (readReq K.debugMemData) = D.ok) :
    s.dictServe (readReq K.debugMemData) =
      (let r := (s.bump K.dictRequests).readBytes (s.par K.debugMemAddr) 64
       let w : Block := if r.2.1 = .ok then r.1.peekWord (r.1.par K.debugMemAddr) else BitVec.allOnes 512
       { r.1 with dict := { r.1.dict with lastResult := D.ok, lastValue := leBytes 64 w.toNat } }) := by
  obtain ⟨r, hr, hb, hkey⟩ : ∃ r, objDesc (readReq K.debugMemData).key = some r ∧ r.bytes = 64
    ∧ r.key = K.debugMemData := ⟨_, rfl, rfl, rfl⟩
  have hm : (readReq K.debugMemData).mctp = true := rfl
  have hk : K.debugMemData ≠ K.authChallenge := by decide
  unfold State.dictServe
  simp only [ok, hr, hm, Bool.not_true, and_false, ne_eq, not_true_eq_false, if_false, if_true, State.dictValue,
    State.readTouch, hkey, hk, State.debugRead, hb, show (readReq K.debugMemData).opcode = 1 from rfl,
    Bool.false_eq_true, bump_par]

/-- Settles O23: each write takes the bytes that its command names. -/
theorem provisionFirmwareAndDebugMemoryWrites : Obligations.ProvisionFirmwareAndDebugMemoryWrites := by
  intro s key bytes data
  refine ⟨fun hs => ?_, fun hs hlen ok => ?_, fun hs => ?_, fun hs => ?_, fun hs ok => ?_⟩
  · refine completes_acts_plain acts_lifecycleProvision hs (exec_lifecycleProvision key) (firstHigh_lt _ _) rfl
      ((actAtOnce_lifecycleProvision _ _).trans ?_)
    rw [provisionKey_firstHigh]
    rfl
  · refine (completes_mgmt hs fun x _ => exec_fwLoadData bytes x).eq ?_
    rw [hlen]
    exact dictServe_fwLoadData hlen ok
  · exact completes_acts_plain acts_fwLoadGo hs exec_fwLoadGo (by decide) rfl (actAtOnce_fwLoadGo _)
  · refine completes_acts_plain acts_debugMemData hs (exec_debugMemWrite data)
      (toNat_lt_bytes (n := 64) data) rfl ((actAtOnce_debugMemData _ _).trans ?_)
    rw [BitVec.ofNat_toNat, BitVec.setWidth_eq]
    rfl
  · exact (completes_mgmt hs fun x _ => exec_debugMemRead x).eq (dictServe_debugMemRead ok)

end Sys2Proof.Machine

/-! What a MGMT record that is sent reads and changes (R354, R355). -/
namespace Sys2Proof.Machine

/-- Two states from which MGMT records are sent alike: the build, the values in force and the Link Layer agree. -/
def SendsAlike (s t : State) : Prop :=
  t.build = s.build ∧ t.dict.inForce = s.dict.inForce ∧ t.links = s.links

namespace SendsAlike
variable {s t : State}

theorem par (h : SendsAlike s t) (key e : Nat) : t.par key e = s.par key e := by
  obtain ⟨hb, hd, -⟩ := h
  simp [State.par, State.objDefault, hb, hd]

theorem linkUp (h : SendsAlike s t) (p : Nat) : t.linkUp p = s.linkUp p := by
  obtain ⟨hb, -, hl⟩ := h
  simp [State.linkUp, State.hasLink, State.lport, hb, hl]

theorem queueFlit (h : SendsAlike s t) (p : Nat) (f : Flit) (owners : List (FlitOwner × Nat)) :
    SendsAlike (s.queueFlit p f owners) (t.queueFlit p f owners) := by
  have hline : t.dateline p = s.dateline p := by rw [State.dateline, h.par, State.dateline]
  obtain ⟨hb, hd, hl⟩ := h
  refine ⟨hb, hd, ?_⟩
  simp only [State.queueFlit, State.modLport, State.lport, hline, hl]

theorem takeStreamSeq (h : SendsAlike s t) (dst vc : Nat) : (t.takeStreamSeq dst vc).1 = (s.takeStreamSeq dst vc).1
    ∧ SendsAlike (s.takeStreamSeq dst vc).2 (t.takeStreamSeq dst vc).2 := by
  obtain ⟨hb, hd, hl⟩ := h
  refine ⟨?_, hb, hd, ?_⟩ <;> simp only [State.takeStreamSeq, hl]

theorem sendMgmt (h : SendsAlike s t) (p : Nat) (r : BitVec 128) : SendsAlike (s.sendMgmt p r) (t.sendMgmt p r) := by
  unfold State.sendMgmt
  rw [h.linkUp]
  split
  · have hpartner : (t.lport p).partner = (s.lport p).partner := by rw [State.lport, h.2.2, State.lport]
    obtain ⟨hseq, halike⟩ := h.takeStreamSeq (s.lport p).partner 3
    have hlinks := halike.2.2
    simp only [hpartner, State.chipId, halike.par, hseq, hlinks]
    exact halike.queueFlit ..
  · exact h

theorem each_sendMgmt (h : SendsAlike s t) (ps : List Nat) (r : BitVec 128) :
    SendsAlike (s.each ps fun s p => s.sendMgmt p r) (t.each ps fun s p => s.sendMgmt p r) := by
  induction ps generalizing s t with
  | nil => exact h
  | cons p ps ih => exact ih (h.sendMgmt p r)

theorem broadcast (h : SendsAlike s t) (x : Option Nat) (r : BitVec 128) :
    SendsAlike (s.broadcast x r) (t.broadcast x r) := by
  have hports : t.linkPorts = s.linkPorts := by simp [State.linkPorts, h.1]
  simp only [State.broadcast, h.par, hports]
  exact h.each_sendMgmt _ r

end SendsAlike

/-- Two states differ in the Link Layer at most. -/
def LinksOnly (s t : State) : Prop := t = { s with links := t.links }

theorem LinksOnly.trans {s t u : State} (h : LinksOnly s t) (k : LinksOnly t u) : LinksOnly s u := by
  unfold LinksOnly at *
  rw [k]
  rw [h]

theorem LinksOnly.each {α : Type} (f : State → α → State) (hf : ∀ s x, LinksOnly s (f s x)) (s : State) (l : List α) :
    LinksOnly s (s.each l f) := by
  induction l generalizing s with
  | nil => rfl
  | cons x t ih => exact (hf s x).trans (ih (f s x))

/-- Sending a MGMT record changes the Link Layer only. -/
theorem LinksOnly.sendMgmt (s : State) (p : Nat) (r : BitVec 128) : LinksOnly s (s.sendMgmt p r) := by
  unfold LinksOnly State.sendMgmt
  split <;> rfl

theorem LinksOnly.broadcast (s : State) (x : Option Nat) (r : BitVec 128) : LinksOnly s (s.broadcast x r) :=
  .each _ (fun s p => .sendMgmt s p r) ..

end Sys2Proof.Machine

/-! The sources of boundaries, Morning, and a boundary in P2 (R100 to R106, R356, R425, R438). -/
namespace Sys2Proof.Machine

/-- Two states differ in the telemetry, the accumulators and the counters at most. -/
def TeleOnly (s t : State) : Prop :=
  t = { s with tele := t.tele, dict := { s.dict with acc := t.dict.acc, counters := t.dict.counters } }

theorem TeleOnly.trans {s t u : State} (h : TeleOnly s t) (k : TeleOnly t u) : TeleOnly s u := by
  unfold TeleOnly at *
  rw [k]
  rw [h]

theorem TeleOnly.bump (s : State) (k n e : Nat) : TeleOnly s (s.bump k n e) := by
  unfold TeleOnly State.bump; dsimp only; split <;> rfl

theorem TeleOnly.of_tele (s : State) (x : Telemetry) : TeleOnly s { s with tele := x } := rfl

theorem TeleOnly.brassClose (s : State) : TeleOnly s s.brassClose := by
  unfold State.brassClose
  dsimp only
  split
  · rfl
  · split
    · exact .of_tele ..
    · exact (TeleOnly.of_tele ..).trans (.bump ..)

/-- What the Brass trace does at a boundary changes the telemetry and the counters only (R476). -/
theorem TeleOnly.brassBoundary (s : State) : TeleOnly s s.brassBoundary :=
  (TeleOnly.brassClose s).trans ((TeleOnly.of_tele ..).trans (.bump ..))

/-- The state that opens a frame in P2, the Brass trace's part of the boundary done. -/
def State.frameInP2 (s : State) : State :=
  ({ s.brassBoundary.openFrame with replay := { s.brassBoundary.openFrame.replay with inPhases := true } }).sendMark

/-- In P2, with no request, teardown or replay at hand, a boundary opens its frame and sends its mark (R127, R438). -/
theorem boundary_in_P2 {s : State} (hp : s.power.state = 2) (ht : s.power.target = none) (hl : s.resets.l0s = [])
    (hm : s.replay.mode ≠ 2) (hw : s.replay.wanted = none) :
    s.boundary = (let t : State := { s.frameInP2 with replay := { s.frameInP2.replay with inPhases := false } }
      { t with shadow := t.shadowed }) := by
  have hfollow : s.following = false := by simp [State.following, State.replaying, hm]
  have hholds : s.replayHolds = false := by simp [State.replayHolds, hw, hfollow]
  have hlog : s.applyLog = s := by simp [State.applyLog, hfollow]
  have hwaits : s.replay.due.any s.faultWaits = false := by simp [State.faultWaits, hfollow]
  have hp2 : s.brassBoundary.power = s.power := by rw [TeleOnly.brassBoundary s]
  have hl2 : s.brassBoundary.resets = s.resets := by rw [TeleOnly.brassBoundary s]
  simp only [State.boundary, hp, hfollow, hholds, hlog, hwaits, Bool.false_eq_true, if_false, show (2 : Nat) ≠ 3 by decide]
  have hphases : s.brassBoundary.phases =
      { s.frameInP2 with replay := { s.frameInP2.replay with inPhases := false } } := by
    have hwait : (s.brassBoundary.openFrame.modReplay fun r => { r with inPhases := true }).waitedTeardowns =
        s.brassBoundary.openFrame.modReplay fun r => { r with inPhases := true } := by
      simp [State.waitedTeardowns, State.openFrame, State.modReplay, State.modTick, hl2, hl, State.each]
    have hpower : (s.brassBoundary.openFrame.modReplay fun r => { r with inPhases := true }).power = s.power := by
      simp [State.openFrame, State.modReplay, State.modTick, hp2]
    simp only [State.phases, hwait, hpower, hp, if_true, State.powerTurn, ht]
    rfl
  rw [hphases]

/-- The Link Layer after the boundary's mark, where the frame that opens is given (R127, R355). -/
theorem sendMark_eq (s : State) : s.sendMark = { s with links := s.sendMark.links } := by
  unfold State.sendMark
  split
  · exact LinksOnly.broadcast ..
  · rfl

theorem openFrame_links (s : State) : s.openFrame.links = { s.links with noMarkTicks := s.links.noMarkTicks +
    (if decide (s.par K.tickSource = 2) && decide (s.par K.tickMasterChip ≠ s.chipId) then 1 else 0) } := rfl

theorem openFrame_number (s : State) : s.openFrame.tick.number = s.tick.number + 1 := rfl

/-- Two states differ in the tick, the clock, the Link Layer, the place in the replay, the telemetry and the dictionary
at most. -/
def FrameOnly (s t : State) : Prop :=
  t = { s with tele := t.tele, dict := t.dict, tick := t.tick, clk := t.clk, links := t.links, replay := t.replay }

theorem FrameOnly.trans {s t u : State} (h : FrameOnly s t) (k : FrameOnly t u) : FrameOnly s u := by
  unfold FrameOnly at *
  rw [k]
  rw [h]

theorem TeleOnly.frameOnly {s t : State} (h : TeleOnly s t) : FrameOnly s t := by
  unfold TeleOnly at h
  unfold FrameOnly
  rw [h]

/-- Opening a frame in P2 leaves the units of the frame's work alone. -/
theorem FrameOnly.frameInP2 (s : State) : FrameOnly s s.frameInP2 := by
  have hopen (t : State) : FrameOnly t { t.openFrame with replay := { t.openFrame.replay with inPhases := true } } := rfl
  have hmark (t : State) : FrameOnly t t.sendMark := by unfold FrameOnly; rw [sendMark_eq]
  exact ((TeleOnly.brassBoundary s).frameOnly.trans (hopen _)).trans (hmark _)

theorem frameInP2_tick (s : State) : s.frameInP2.tick = s.brassBoundary.openFrame.tick := by
  unfold State.frameInP2
  rw [sendMark_eq]

theorem frameInP2_clk (s : State) : s.frameInP2.clk = s.brassBoundary.openFrame.clk := by
  unfold State.frameInP2
  rw [sendMark_eq]

/-- What opening a frame in P2 does to the Link Layer (R127, R355). -/
theorem frameInP2_links (s : State) :
    (s.par K.tickSource = 2 → s.par K.tickMasterChip = s.chipId →
      s.frameInP2.links = (s.broadcast none (BitVec.ofNat 128 ((s.tick.number + 1).toNat * 2 ^ 64))).links)
    ∧ (s.par K.tickSource = 2 → s.par K.tickMasterChip ≠ s.chipId →
      s.frameInP2.links = { s.links with noMarkTicks := s.links.noMarkTicks + 1 })
    ∧ (s.par K.tickSource ≠ 2 → s.frameInP2.links = s.links) := by
  have hb := TeleOnly.brassBoundary s
  have hpar (key : Nat) : s.brassBoundary.par key = s.par key := by rw [hb]; rfl
  have hlinks : s.brassBoundary.links = s.links := by rw [hb]
  have htick : s.brassBoundary.tick = s.tick := by rw [hb]
  have hbuild : s.brassBoundary.build = s.build := by rw [hb]
  have hdict : s.brassBoundary.dict.inForce = s.dict.inForce := by rw [hb]
  generalize hu : s.brassBoundary.openFrame.modReplay (fun r => { r with inPhases := true }) = u
  have hframe : s.frameInP2 = u.sendMark := by rw [← hu]; rfl
  have hup (key : Nat) : u.par key = s.par key := by rw [← hpar, ← hu]; rfl
  have hul : u.links = { s.links with noMarkTicks := s.links.noMarkTicks +
      (if decide (s.par K.tickSource = 2) && decide (s.par K.tickMasterChip ≠ s.chipId) then 1 else 0) } := by
    rw [← hu, State.modReplay, openFrame_links, hlinks, hpar, hpar, State.chipId, hpar, State.chipId]
  have hun : u.tick.number = s.tick.number + 1 := by rw [← hu, State.modReplay, openFrame_number, htick]
  have hchip : u.chipId = s.chipId := hup _
  rw [hframe]
  simp only [State.sendMark, hchip, hup]
  refine ⟨fun hsrc hmaster => ?_, fun hsrc hmaster => ?_, fun hsrc => ?_⟩
  · have halike : SendsAlike s u := by
      refine ⟨by rw [← hbuild, ← hu]; rfl, by rw [← hdict, ← hu]; rfl, ?_⟩
      simp [hul, hmaster]
    rw [if_pos ⟨hsrc, hmaster⟩, (halike.broadcast none _).2.2, hun, at'_of_lt (s.tick.number + 1).isLt]
  · have hcount : (decide (s.par K.tickSource = 2) && decide (s.par K.tickMasterChip ≠ s.chipId)) = true := by
      simp [hsrc, hmaster]
    rw [if_neg (fun h => hmaster h.2), hul, hcount, if_pos rfl]
  · rw [if_neg (fun h => hsrc h.1), hul]
    simp [hsrc]

/-- Settles O24: each source's command by the condition of its own, Morning by the mode, and a boundary in P2 by what
opens its frame. -/
theorem boundariesAndTheirSources : Obligations.BoundariesAndTheirSources := by
  refine ⟨fun s since hs => ⟨fun hr hd => ?divider, fun hsrc hstart => ⟨fun ho he => ?early, fun ho => ?edge⟩,
    fun hsrc hr hh => ?holdover, fun hsrc hr hn hf => ?missing, fun n a h => ?start, ?pulse⟩,
    fun s hs hm => ⟨fun hsrc => ?morning0, fun hsrc hr => ?morning2, fun h0 h2 hr => ?morning1, fun h0 hr => ?stopped⟩,
    fun s hs hr hsrc hp ht hl hm hw => ?inP2⟩
  case divider =>
    refine (completes_mgmt hs fun x _ => exec_tickBoundary x).eq (if_pos ?_)
    simpa [State.dividerRuns, hr] using hd
  case early =>
    refine (completes_mgmt hs fun x _ => exec_tickInEdge since x).eq ?_
    rw [tickInEdgeEff, if_neg (by rcases hstart with h | h <;> simp [hsrc, h]), if_pos ⟨ho, he⟩]
  case edge =>
    refine (completes_mgmt hs fun x _ => exec_tickInEdge since x).eq ?_
    rw [tickInEdgeEff, if_neg (by rcases hstart with h | h <;> simp [hsrc, h]), if_neg (by rcases ho with h | h <;> simp [h])]
    rfl
  case holdover =>
    exact (completes_mgmt hs fun x _ => exec_tickInHoldover x).eq (if_pos ⟨hsrc, hr, by simp [hh]⟩)
  case missing =>
    exact (completes_mgmt hs fun x _ => exec_tickMarksMissing x).eq (if_pos ⟨hsrc, hr, hn, by simp [hf]⟩)
  case start =>
    refine (completes_mgmt hs fun x _ => exec_startTimeElapsed x).eq ?_
    simp only [startTimeElapsedEff, h]
    rfl
  case pulse => exact completes_mgmt hs fun x _ => exec_tickOutPulseEnd x
  case morning0 =>
    refine (completes_core hs fun x _ => exec_morningBegin x).eq ?_
    simp only [morningBeginEff, hm, hsrc, Bool.not_true, Bool.false_eq_true, if_false, if_true]
    rfl
  case morning2 =>
    refine (completes_core hs fun x _ => exec_morningBegin x).eq ?_
    simp only [morningBeginEff, hm, hsrc, hr, Bool.not_true, Bool.false_eq_true, if_false, if_true,
      show (2 : Nat) ≠ 0 by decide]
    rfl
  case morning1 =>
    refine (completes_core hs fun x _ => exec_morningBegin x).eq ?_
    simp only [morningBeginEff, hm, h0, h2, hr, Bool.not_true, Bool.false_eq_true, if_false, if_true]
    rfl
  case stopped =>
    refine (completes_core hs fun x _ => exec_morningBegin x).eq ?_
    simp only [morningBeginEff, hm, h0, hr, Bool.not_true, Bool.false_eq_true, if_false]
  case inP2 =>
    have hdivides : s.dividerRuns = true := by simp [State.dividerRuns, hr, hsrc]
    have htick : s.brassBoundary.tick = s.tick := by rw [TeleOnly.brassBoundary s]
    have hframe := FrameOnly.frameInP2 s
    obtain ⟨hmaster, hfollower, hother⟩ := frameInP2_links s
    refine ⟨_, (completes_mgmt hs fun x _ => exec_tickBoundary x).eq ((if_pos hdivides).trans
      (boundary_in_P2 hp ht hl hm hw)), ?_⟩
    dsimp only
    rw [frameInP2_tick, frameInP2_clk, openFrame_number, htick]
    refine ⟨rfl, rfl, rfl, rfl, ?_, ?_, ?_, ?_, ?_, ?_, ?_, ?_, ?_, hmaster, hfollower, hother⟩ <;> rw [hframe]

end Sys2Proof.Machine

/-! Tick marks and STARTs, the Delay Lists and the Step Loader (R60 to R69, R123, R127, R355, R356). -/
namespace Sys2Proof.Machine

/-- A consumer that takes every record leaves none of it. -/
theorem serveRecord_takes {s : State} {d e : Delivered} (h : s.Serves d e) (f : State → State) :
    s.serveRecord d (takes f) = (f s).takeRecord e := serveRecord_serves h (takes f)

/-- Settles O25: the record is served, and the time it stayed is a fresh value. -/
theorem tickMarksAndStarts : Obligations.TickMarksAndStarts := by
  intro s p r e hs hp hserves stay aged later sooner
  exact ⟨(completes_linkPort hs hp fun x => exec_tickMark p r x).eq (serveRecord_takes hserves _),
    (completes_linkPort hs hp fun x => exec_start p r x).eq (serveRecord_takes hserves _)⟩

section Expiry
variable {s : State} {d : DelayEntry} {release : Bool} {f : State → DelayEntry → State}

/-- An expired entry of a torn-down generation is only counted. -/
theorem expire_stale (h : s.expired = some d) (hr : d.release = release) (hg : d.gen ≠ (s.ctx d.ctx).gen) :
    s.expire release f = s.dropDelay.bump K.delayStaleDropped := by
  simp only [State.expire, h, if_neg (not_not.mpr hr), if_pos hg]

/-- Another expired entry leaves the lists and is handled. -/
theorem expire_current (h : s.expired = some d) (hr : d.release = release) (hg : d.gen = (s.ctx d.ctx).gen) :
    s.expire release f = f s.dropDelay d := by
  simp only [State.expire, h, if_neg (not_not.mpr hr), if_neg (not_not.mpr hg)]

end Expiry

/-- Settles O26: the entry that expired is stale or is handled by its kind. -/
theorem expiriesLeaveTheDelayLists : Obligations.ExpiriesLeaveTheDelayLists := by
  intro s d hs hd
  have deadline := completes_core hs fun x _ => exec_deadlineExpiry x
  have delayed := completes_core hs fun x _ => exec_delayedReleaseExpiry x
  refine ⟨fun hg => ⟨fun hr => deadline.eq (expire_stale hd hr hg), fun hr => delayed.eq (expire_stale hd hr hg)⟩,
    fun hg hr => ⟨fun hm => ?_, fun hm => ?_⟩, fun n hg hr hn => ?_⟩
  · exact deadline.eq ((expire_current hd hr hg).trans (if_pos hm))
  · exact deadline.eq ((expire_current hd hr hg).trans (if_neg (by simp [hm])))
  · refine delayed.eq ((expire_current hd hr hg).trans ?_)
    simp only [State.releaseDelayed, hn]

/-- Settles O27: each command by the checks that its state passes. -/
theorem stepLoaderCommands : Obligations.StepLoaderCommands := by
  refine fun s hs => ⟨?load, fun i k hi hk => ?window, ?template⟩
  case load =>
    intro op t r i hop hx hstuck done
    have hend : State.endLoad (s.asking .loader) = (if r ≠ Load.loaded then done.bump K.imageLoadsRefused
        else if !(s.asking .loader).logRoom then (s.asking .loader).logWaits
        else (done.logImage op.slot 1 i.digest).putImage op.slot i) := by
      have : (s.asking .loader).loader.op = some op := hop
      simp only [State.endLoad, this, hx]
      rfl
    have completes := (completes_core hs fun x _ => exec_imageLoadComplete x).eq (patient_none hstuck)
    rw [hend] at completes
    refine ⟨fun hr => ?_, fun hr hroom => ?_⟩
    · rwa [if_pos hr] at completes
    · rwa [if_neg (not_not.mpr hr), if_neg (by simp [hroom])] at completes
  case window =>
    refine (completes_core hs fun x _ => exec_windowReserve x).eq ?_
    simp only [windowReserveEff, hi, hk]
  case template =>
    intro id b i hi hb hlt hfree htear hprev n
    refine (completes_core hs fun x _ => exec_templateInstantiate id x).eq ?_
    have hmay : ¬ (i.base.isNone ∨ i.inst ≥ i.count ∨ (s.slot (i.slotOf i.inst)).state ≠ .reserved ∨ s.tearing i.ctx) := by
      simp [hb, hlt, hfree, htear]
    simp only [templateInstantiateEff, hi, if_neg hmay, hprev, Bool.not_true, Bool.false_and, Bool.false_eq_true, if_false,
      Option.getD_some]
    rfl

end Sys2Proof.Machine

/-! Doorbells, jobs and results, apertures, flushes, QUEUE records and queue tasks (R63, R132 to R159, R338, R513, R514). -/
namespace Sys2Proof.Machine

/-- The commands of a doorbell are one word written to it. -/
theorem exec_doorbell {c : Instr} {a : Nat} {w : BitVec 512}
    (hc : c ∈ [.step a w, .jobOpen a w, .jobClose a w, .join a w, .leave a w, .doorbellDataWord a w]) (x : State) :
    exec c x = runCore (doorbellEff a w) x := by
  simp only [List.mem_cons, List.not_mem_nil, or_false] at hc
  rcases hc with rfl | rfl | rfl | rfl | rfl | rfl <;> rfl

/-- The answers that have a counter of their own (R159). -/
theorem countAnswer_eq (s : State) (st : Status) : s.countAnswer st =
    (match st with
      | .queueFull => s.bump K.doorbellQueueFull
      | .staleGen => s.bump K.doorbellStaleGen
      | .busy => s.bump K.doorbellBusy
      | _ => s) := rfl

/-- What a queue of the kinds REQUEST and FLOW answers to a record, by the tests in their order (R150). -/
theorem offerTo_of_kind {s : State} {n : Nat} {w : BitVec 512} (hk : (s.queue n).kind = 0 ∨ (s.queue n).kind = 1) :
    s.offerTo n w true =
      if s.doorbellsClosed = true ∨ s.replaying = true ∨ (s.queue n).enable = false then (.busy, s)
      else if (s.queue n).isFull = true ∨ s.logRoom = false then (.queueFull, s)
      else if Req.gen w ≠ (s.ctx (Req.ctx w)).gen then (.staleGen, s)
      else if Req.ctx w ≠ (s.queue n).ctx ∨ s.recordPart (s.queue n).kind w ≠ some (Req.part w)
        ∨ s.recordOk (s.queue n).kind w = false then (.busy, s)
      else (.ok, s.acceptRecord n w) := by
  have hkind : ((s.queue n).kind == kindRequest || (s.queue n).kind == kindFlow || (s.queue n).kind == kindData) = true := by
    rcases hk with h | h <;> rw [h] <;> rfl
  have hdata : (s.queue n).kind ≠ kindData := by rcases hk with h | h <;> rw [h] <;> decide
  simp only [State.offerTo, hkind, hdata, if_false]
  cases s.doorbellsClosed <;> cases s.replaying <;> cases (s.queue n).enable <;> cases (s.queue n).isFull <;>
    cases s.logRoom <;> cases s.recordOk (s.queue n).kind w <;> simp

/-- Settles O28: a word at a doorbell by its binding, and a queue's answer by the tests in their order. -/
theorem doorbellsAnswerTheirRecords : Obligations.DoorbellsAnswerTheirRecords := by
  refine ⟨?word, ?answer⟩
  case word =>
    intro s c a w hs ha hc b status
    have completes := completes_core hs fun x _ => exec_doorbell hc x
    have hin : ¬ a ≥ 2048 := Nat.not_le.mpr ha
    refine ⟨fun hb => completes.eq ?_, fun hb => completes.eq ?_⟩
    · simp only [doorbellEff, State.doorbellWord, if_neg hin, show bit (s.par K.doorbellBind a) 15 = false from hb,
        Bool.not_false, if_true]
      rfl
    · have hfld : fld (s.par K.doorbellBind a) 0 14 = b % 2 ^ 14 := by rw [fld_eq, Nat.pow_zero, Nat.div_one]
      simp only [doorbellEff, State.doorbellWord, if_neg hin, show bit (s.par K.doorbellBind a) 15 = true from hb,
        Bool.not_true, Bool.false_eq_true, if_false, hfld, countAnswer_eq]
      rfl
  case answer =>
    intro s n w hk q closed full stale other
    rw [offerTo_of_kind hk]
    refine ⟨fun h => if_pos h, fun h1 h => ?_, fun h1 h2 h => ?_, fun h1 h2 h3 h => ?_, fun h1 h2 h3 h4 => ?_⟩
    · rw [if_neg h1, if_pos h]
    · rw [if_neg h1, if_neg h2, if_pos h]
    · rw [if_neg h1, if_neg h2, if_neg h3, if_pos h]
    · rw [if_neg h1, if_neg h2, if_neg h3, if_neg h4]

section Release
variable {s : State} {f k : Nat}

/-- No result of a flow leaves while the next in sequence may not (R155). -/
theorem releaseFlow_stops (h : ((s.offerLeaves f).flow f).done.getLsbD 0 = false ∨ (s.offerLeaves f).leaveWaits f = true) :
    State.releaseFlow f (k + 1) s = s.offerLeaves f := by
  have hstop : (!((s.offerLeaves f).flow f).done.getLsbD 0 || (s.offerLeaves f).leaveWaits f) = true := by
    rcases h with h | h
    · rw [h]; rfl
    · rw [h, Bool.or_true]
  rw [State.releaseFlow]
  exact if_pos hstop

/-- The next result in sequence, where no record of a LEAVE goes before it, is posted where it has room (R155). -/
theorem releaseFlow_next {n : Nat} {h : Hold} (hd : ((s.offerLeaves f).flow f).done.getLsbD 0 = true)
    (hl : (s.offerLeaves f).leaveWaits f = false)
    (hf : (s.offerLeaves f).flowHold f ((s.offerLeaves f).flow f).rel = some n) (hn : (s.offerLeaves f).hold n = some h) :
    State.releaseFlow f (k + 1) s =
      (if (s.offerLeaves f).resultRoom ((s.offerLeaves f).flow f).resultQueue h.words then
        State.releaseFlow f k (((s.offerLeaves f).post ((s.offerLeaves f).flow f).resultQueue n).modFlow f
          fun e => { e with rel := e.rel + 1, done := e.done >>> 1 })
      else s.offerLeaves f) := by
  rw [State.releaseFlow]
  simp only [hd, hl, hf, hn, Bool.not_true, Bool.or_self, Bool.false_eq_true, if_false, Option.map_some, Option.getD_some]
  cases (s.offerLeaves f).resultRoom ((s.offerLeaves f).flow f).resultQueue h.words <;> rfl

end Release

/-- Settles O29: a JOB_CLOSE by what was accepted before it, and the results of a flow by the next in sequence. -/
theorem jobsCloseAndResultsLeave : Obligations.JobsCloseAndResultsLeave := by
  refine ⟨fun s c n h hs hc hn => ?close, fun s f hs => ⟨?leave, ?release⟩⟩
  case close =>
    have completes := completes_core hs fun x _ => exec_jobCloseEffect c x
    refine ⟨fun he => completes.eq ?_, fun he => completes.eq ?_⟩
    · simp only [jobCloseEff, hc, hn, if_pos he]
    · simp only [jobCloseEff, hc, hn, if_neg (Bool.eq_false_iff.mp he)]
  case leave =>
    refine (completes_core hs fun x _ => exec_resultRelease f x).eq ?_
    rw [resultReleaseEff]
  case release =>
    intro x k t e
    refine ⟨releaseFlow_stops, fun n h hd hl hf hn => ?_⟩
    rw [releaseFlow_next hd hl hf hn]
    exact ⟨fun hr => if_neg (Bool.eq_false_iff.mp hr), fun hr => if_pos hr⟩

/-- Settles O30: a read by the aperture's binding, a flush by the packets open, and a QUEUE record by its queue. -/
theorem aperturesFlushesAndQueueRecords : Obligations.AperturesFlushesAndQueueRecords := by
  refine ⟨fun s a n hs => ⟨fun ha => ?unbound, fun ha => ?bound, fun hf hp hr => ?flush, fun h => ?waits⟩, ?record⟩
  case unbound =>
    refine (completes_core hs fun x _ => exec_readApertureRead a x).eq ?_
    simp only [readApertureEff, ha, emit_of_quiet hs.1]
  case bound =>
    refine (completes_core hs fun x _ => exec_readApertureRead a x).eq ?_
    simp only [readApertureEff, ha, emit_of_quiet hs.1]
  case flush =>
    refine (completes_core hs fun x _ => exec_queueFlushEffect n x).eq (if_pos ?_)
    simp [hf, hp, hr]
  case waits =>
    refine (completes_core hs fun x _ => exec_queueFlushEffect n x).eq (if_neg ?_)
    rcases h with h | h | h <;> simp [h]
  case record =>
    intro s src h words e hs hserves q ok waits r
    have completes := (completes_core hs fun x _ => exec_queue src h words x).eq (serveRecord_serves hserves State.queueRecord)
    have hok : ok → ¬ (!q.enable ∨ q.kind ≠ kindData ∨ q.part ≠ bits (e.slots.headD 0) 110 4) := by
      rintro ⟨hen, hkind, hpart⟩
      simp [hen, hkind, hpart, kindData]
    have hbad : ¬ ok → !q.enable ∨ q.kind ≠ kindData ∨ q.part ≠ bits (e.slots.headD 0) 110 4 := by
      intro h
      by_contra hn
      simp only [not_or, not_not, Bool.not_eq_true] at hn
      obtain ⟨hen, hkind, hpart⟩ := hn
      exact h ⟨by simpa using hen, hkind, hpart⟩
    refine ⟨fun h => completes.eq ?_, fun h hw => completes.eq ?_, fun h hw hl => completes.eq ?_,
      fun h hw hl => completes.eq ?_⟩
    · rw [State.serveDelivered, State.queueRecord, if_pos (hbad h)]
    · rw [State.serveDelivered, State.queueRecord, if_neg (hok h), if_pos hw]
    · rw [State.serveDelivered, State.queueRecord, if_neg (hok h), if_neg (Bool.eq_false_iff.mp hw),
        show State.offerWords _ _ _ _ _ = r from rfl]
      simp only [if_neg (Nat.not_lt.mpr hl)]
    · rw [State.serveDelivered, State.queueRecord, if_neg (hok h), if_neg (Bool.eq_false_iff.mp hw),
        show State.offerWords _ _ _ _ _ = r from rfl]
      simp only [if_pos hl]

/-- Settles O31: a task by what its request block says, and a waiting producer by what it is. -/
theorem queueTasks : Obligations.QueueTasks := by
  intro s n x t st b refuse
  refine ⟨fun hw hwait => ⟨fun hreq => ?begin, fun hreq => ?goOn⟩, fun hw hfollow hroom => ?dequeue,
    fun m e hs hen hkind he => ?resume⟩
  case begin =>
    refine (completes_works hw fun x => exec_qEnqueue n x).eq (congrArg (State.doneAsking · _) ?_)
    rw [qEnqueueEff, if_neg (Bool.eq_false_iff.mp hwait), if_neg (not_not.mpr hreq)]
  case goOn =>
    refine (completes_works hw fun x => exec_qEnqueue n x).eq (congrArg (State.doneAsking · _) ?_)
    rw [qEnqueueEff, if_neg (Bool.eq_false_iff.mp hwait), if_pos hreq]
  case dequeue =>
    refine (completes_works hw fun x => exec_qDequeue n x).eq (congrArg (State.doneAsking · _) ?_)
    have hrefused (q : Nat) (f : State → State) : t.dequeueRefused n q f = refuse q f := by
      rw [State.dequeueRefused, if_neg (Bool.eq_false_iff.mp hfollow)]
    have hgo : (!t.following && !t.logRoom) = false := by rw [hroom]; simp
    rw [qDequeueEff]
    dsimp only
    rw [if_neg (Bool.eq_false_iff.mp hgo), hrefused, hrefused, if_neg (Bool.eq_false_iff.mp hfollow)]
  case resume =>
    intro u
    have completes := completes_core hs fun x _ => exec_queueProducerResume m x
    have hgone : (!(s.queue m).enable || decide ((s.queue m).kind ≠ kindData)) = false := by simp [hen, hkind, kindData]
    have heff : queueResumeEff m s = if e.1.kind = .link then u.resumeRecord m e.1
        else if (s.queue m).admits e.1 e.2 = .taken then (u.enqueueData m e.1 e.2).taskResumed e.1.id e.2
        else (u.raise A.queueProtocol).taskStopped e.1.id := by
      have he' : (s.queue m).waiting.find? (fun e => (s.queue m).serves e) = some e := he
      simp only [queueResumeEff, hgone, Bool.false_or, he', Bool.false_eq_true, if_false]
      rfl
    rw [heff] at completes
    refine ⟨fun hl => completes.eq (if_pos hl), fun hl ht => completes.eq ((if_neg hl).trans (if_pos ht)),
      fun hl ht => completes.eq ((if_neg hl).trans (if_neg ht))⟩

end Sys2Proof.Machine

/-! Tasks, engine records, pre-emption, engine ports and stalls (R52, R70 to R98, R202 to R216, R391 to R396). -/
namespace Sys2Proof.Machine

/-- The first completion whose fence is clear has its tokens formed (R76). -/
theorem tokenFormEff_of_clear {s : State} {c : PendingCompletion} {i : Instance}
    (hc : s.mat.pend.find? (fun c => !c.fenced && !s.tearing (s.slot c.slot).ctx) = some c)
    (hi : s.inst (s.slot c.slot).inst = some i) :
    tokenFormEff s = (let t : State := { s with mat := { s.mat with pend := dropFirst (· == c) s.mat.pend } }
      State.retire { t with mat := { t.mat with
        tokens := t.mat.tokens ++ (t.edgesOf i (t.slot c.slot).tmpl).map (t.edgeToken i c) } } c.slot) := by
  have hinst : (let t : State := { s with mat := { s.mat with pend := dropFirst (· == c) s.mat.pend } }
    t.inst (t.slot c.slot).inst) = some i := hi
  dsimp only at hinst
  simp only [tokenFormEff, hc, hinst]

/-- Settles O33: each command by the conditions its state meets, and a Dispatcher by the first place that has an item. -/
theorem tasksResolveIssueAndRetire : Obligations.TasksResolveIssueAndRetire := by
  refine fun s n hs => ⟨fun hst hp hh ht => ?lift, fun hst hroom ht => ⟨fun hc => ?null, fun hk => ?skip, fun hr => ?resolve⟩,
    fun d t hd => ?dispatch, fun c i hc hi => ?token⟩
  case lift =>
    refine (completes_core hs fun x _ => exec_holdLift n x).eq ?_
    simp [holdLiftEff, hst, hp, hh, ht]
  case null =>
    exact (completes_core hs fun x _ => exec_nullTaskResolve n x).eq (if_pos (by simp [hst, hc, hroom, ht]))
  case skip =>
    exact (completes_core hs fun x _ => exec_taskSkip n x).eq (if_pos (by simp [hst, hk, hroom, ht]))
  case resolve =>
    exact (completes_core hs fun x _ => exec_waitResolve n x).eq (if_pos (by simp [hst, hr, hroom, ht]))
  case dispatch =>
    have completes := completes_core hs fun x _ => exec_dispatch d x
    rw [dispatchEff, if_neg (Nat.not_le.mpr hd)] at completes
    refine ⟨fun h => completes.eq ?_, fun h1 h => completes.eq ?_, fun h1 h2 h => completes.eq ?_,
      fun h1 h2 h3 h => completes.eq ?_, fun h1 h2 h3 h4 h => completes.eq ?_⟩
    · simp [h]
    · simp [h1, h]
    · simp [h1, h2, h]
    · simp [h1, h2, h3, h]
    · simp [h1, h2, h3, h4, h]
  case token =>
    exact (completes_core hs fun x _ => exec_tokenForm x).eq (tokenFormEff_of_clear hc hi)

/-- Settles O34: what a record or report of a port does by the task it holds. -/
theorem engineRecords : Obligations.EngineRecords := by
  intro s p r y hs hp hfail hreset
  have record := completes_enginePort hs hp fun x => exec_completionRecord p r x
  have yielded := completes_enginePort hs hp fun x => exec_yieldRecord p y x
  refine ⟨fun n hn hexp => ?held, fun hexp => ⟨record.eq (if_pos hexp), yielded.eq (if_pos hexp)⟩,
    fun hexp hn => ⟨record.eq ?_, yielded.eq ?_⟩, completes_enginePort hs hp fun x => exec_writeFenceClear p x⟩
  case held =>
    intro u t
    have heff : completionRecordEff p r s = if Cmpl.status r = 0 then u.engineDone p n r
        else if Cmpl.status r = 1 then ((t.modSlot n fun q => { q with noPort := true }).jobFault n 0x02).portReleased p
        else u.engineFault p := by
      simp only [completionRecordEff, hexp, hfail, hreset, hn, Bool.false_eq_true, Bool.not_true, or_self, if_false]
      rfl
    refine ⟨fun h => record.eq ?_, fun h => record.eq ?_, fun h => record.eq ?_, fun ho => ?_⟩
    · rw [heff, if_pos h]
      rfl
    · rw [heff, if_neg (by omega), if_pos h]
    · rw [heff, if_neg (by omega), if_neg (by omega)]
    · refine (completes_enginePort hs hp fun x => exec_taskWatchdogExpiry p x).eq (if_pos ?_)
      simp [hn, ho]
  · simp [completionRecordEff, hexp, hfail, hreset, hn]
  · simp [yieldRecordEff, hexp, hfail, hreset, hn]

/-- Settles O35: the request by its claimant, the yield by what was asked, and the switch by what it has still to do. -/
theorem preemptionSwitchesTasks : Obligations.PreemptionSwitchesTasks := by
  refine fun s p hs hp => ⟨fun c q hc hen hb hr hw hv => ?request, fun hpre hheld hl => ?late, ?yielded, fun w hw => ⟨?spill,
    ?restore, fun n hsp hspg hin => ⟨fun ht => ?torn, fun ht hres => ?suspended, fun ht hres hre => ?issue⟩⟩⟩
  case request =>
    refine (completes_enginePort hs hp fun x => exec_preemptRequest p x).eq ?_
    have hmay : ¬ (!bit (s.par K.preemptEnable) (s.slot c.slot).part ∨ s.isBound c.slot ∨ c.refused
        ∨ s.clk.abs - c.at_ < s.par K.preemptWaitHc) := by simp [hen, hb, hr, hw]
    simp only [preemptRequestEff, hc, if_neg hmay, hv]
  case late =>
    refine (completes_enginePort hs hp fun x => exec_yieldBoundExpiry p x).eq (if_pos ?_)
    simp [hpre, hheld, hl]
  case yielded =>
    intro n y hfail hreset hexp hn asked fits
    have heff : yieldRecordEff p y s = if ¬ (asked ∧ fits) then s.engineFault p
        else if s.tearing (s.slot n).ctx then (s.yieldTorn p n (Yield.live y)).drainStop p
        else (s.yieldAccepted p n (Yield.live y)).drainStop p := by
      have hasked : (!(s.port p).preempt ∨ (s.port p).preemptTag ≠ (s.port p).issueTag ∨ Yield.live y % 64 ≠ 0
          ∨ Yield.live y > s.scratch (Cfg.cls (s.portConfig p))) ↔ ¬ (asked ∧ fits) := by
        simp only [asked, fits, not_and_or, Bool.not_eq_true', Bool.not_eq_true, ne_eq, not_le, gt_iff_lt, or_assoc]
      simp only [yieldRecordEff, hexp, hfail, hreset, hn, hasked, Bool.false_eq_true, Bool.not_true, or_self, if_false]
    have completes := (completes_enginePort hs hp fun x => exec_yieldRecord p y x).eq heff
    refine ⟨fun h => completes.eq (if_pos h), fun ha hf ht => completes.eq ?_, fun ha hf ht => completes.eq ?_⟩
    · rw [if_neg (not_not.mpr ⟨ha, hf⟩), if_pos ht]
    · rw [if_neg (not_not.mpr ⟨ha, hf⟩), if_neg (Bool.eq_false_iff.mp ht)]
  case spill =>
    intro d rest hsp hd hwr
    refine (completes_enginePort hs hp fun x => exec_spillEnd p x).eq ?_
    have hends : ¬ (!w.spilling ∨ (((w.spills.head?).map fun d => s.writesOf d.slot).getD 0) ≠ 0) := by simp [hsp, hd, hwr]
    have hrest : w.spills.drop 1 = rest := by rw [hd]; rfl
    simp only [spillEndEff, hw, if_neg hends, hrest]
  case restore =>
    intro d rest hsp hspg hin hre
    refine (completes_enginePort hs hp fun x => exec_restoreIssue p x).eq ?_
    simp [restoreIssueEff, hw, hre, hsp, hspg, hin]
  case torn =>
    refine (completes_enginePort hs hp fun x => exec_switchIncomingIssue p x).eq ?_
    simp [switchIncomingIssueEff, hw, hin, hsp, hspg, ht]
  case suspended =>
    refine (completes_enginePort hs hp fun x => exec_switchIncomingIssue p x).eq ?_
    simp [switchIncomingIssueEff, hw, hin, hsp, hspg, ht, hres]
  case issue =>
    refine (completes_enginePort hs hp fun x => exec_switchIncomingIssue p x).eq ?_
    simp [switchIncomingIssueEff, hw, hin, hsp, hspg, ht, hres, hre]

/-- Settles O36: a pin or a limit of a port by the port's state, and a stall by what makes no progress. -/
theorem enginePortsAndStalls : Obligations.EnginePortsAndStalls := by
  refine fun s p n hs => ⟨fun hp => ⟨fun hf hr => ⟨fun h1 => ?l1, fun h1 => ?ready, ?falls⟩, ?release, fun h => ?failed⟩,
    ?stop, fun hst hc ho ha => ?dataTask, fun ha => ?dataUnit, fun d hd => ?stall, fun hl hm => ?none⟩
  case l1 =>
    refine (completes_enginePort hs hp fun x => exec_epReadyRise p x).eq ?_
    simp [epReadyRiseEff, hr, h1]
  case ready =>
    refine (completes_enginePort hs hp fun x => exec_epReadyRise p x).eq ?_
    simp [epReadyRiseEff, hr, h1]
  case falls =>
    intro he t
    refine (completes_enginePort hs hp fun x => exec_epReadyFall p x).eq ?_
    simp only [epReadyFallEff, he, hf, hr, Bool.not_true, Bool.false_eq_true, or_self, if_false]
    rfl
  case release =>
    intro h1 hr hn hp2 t
    have completes := completes_enginePort hs hp fun x => exec_epResetRelease p x
    rw [epResetReleaseEff, if_pos (by simp [h1, hr, hn, hp2])] at completes
    exact ⟨fun he => completes.eq (if_neg (by simp [he])), fun he => completes.eq (if_pos he)⟩
  case failed =>
    exact (completes_enginePort hs hp fun x => exec_engineResetTimeout p x).eq (if_pos h)
  case stop =>
    intro u hu hi t
    refine (completes_core hs fun x _ => exec_unitStopEffect u x).eq ((if_pos ?_).trans rfl)
    rw [hu, hi]; rfl
  case dataTask =>
    exact (completes_core hs fun x _ => exec_dataTaskWatchdogExpiry n x).eq (if_pos ⟨hst, hc, ho, by rw [ha]; rfl⟩)
  case dataUnit =>
    exact (completes_core hs fun x _ => exec_dataUnitStall n x).eq (if_pos ha)
  case stall =>
    exact (completes_core hs fun x _ => exec_dispatchStall d x).eq (if_pos hd)
  case none =>
    refine (completes_core hs fun x _ => exec_noEngine n x).eq ?_
    refine if_pos ⟨hl, (Bool.not_eq_true' _).mpr ?_⟩
    simp only [List.any_eq_false, List.mem_range]
    intro e he
    cases hq : s.mapPort (s.slot n).part (s.slot n).cls e with
    | none => simp
    | some q => simp [hm e he q hq]

end Sys2Proof.Machine

/-! Signals, arrivals, waits and posts (R160 to R181). -/
namespace Sys2Proof.Machine

section ApplyCommand
variable {s : State} {w : SigCmd}

theorem applyCommand_bad (h : Sig.bad w.cmd = true) :
    s.applyCommand w = (s.bump K.signalsDroppedClosed).raise A.signalProtocol := if_pos h

/-- A SIGNAL at a closed object is dropped (R170). -/
theorem applyCommand_closed (hb : Sig.bad w.cmd = false) (hop : Sig.op w.cmd ≠ 1)
    (hl : s.objLive (Sig.number w.cmd) = false) : s.applyCommand w = s.bump K.signalsDroppedClosed := by
  simp [State.applyCommand, hb, hop, hl, State.dropCommand]

/-- A SIGNAL at a live object that holds nothing back for its stamp is applied (R169, R181). -/
theorem applyCommand_live (hb : Sig.bad w.cmd = false) (hop : Sig.op w.cmd ≠ 1)
    (hl : s.objLive (Sig.number w.cmd) = true) (ha : (s.obj (Sig.number w.cmd)).aligned = false ∨ s.stampLater w.cmd = false) :
    s.applyCommand w = s.applySignal (Sig.number w.cmd) (Sig.amount w.cmd) := by
  have hhold : s.mustHold w.cmd = false := by rcases ha with h | h <;> simp [State.mustHold, h]
  simp [State.applyCommand, hb, hop, hl, hhold]

theorem applyCommand_arrive_closed (hb : Sig.bad w.cmd = false) (hop : Sig.op w.cmd = 1)
    (hl : s.barrierLive (Sig.number w.cmd) = false) : s.applyCommand w = s.bump K.signalsDroppedClosed := by
  simp [State.applyCommand, hb, hop, hl, State.dropCommand]

theorem applyCommand_arrive (hb : Sig.bad w.cmd = false) (hop : Sig.op w.cmd = 1)
    (hl : s.barrierLive (Sig.number w.cmd) = true) : s.applyCommand w = s.arriveAt (Sig.number w.cmd) := by
  simp [State.applyCommand, hb, hop, hl]

end ApplyCommand

/-- The record served holds the slots that its command names. -/
theorem State.Serves.slots_eq {s : State} {d e : Delivered} (h : s.Serves d e) : e.slots = d.slots := by
  obtain ⟨-, ⟨hfind, -⟩ | ⟨-, rfl, -⟩⟩ := h
  · have := List.find?_some hfind
    simp only [Delivered.same, Bool.and_eq_true, beq_iff_eq] at this
    exact this.1.2
  · rfl

/-- The two commands of a signal source have one effect. -/
theorem exec_signals {c : Instr} {src : SignalSource} {cmd : BitVec 64} (hc : c ∈ [.signal src cmd, .arrive src cmd])
    (x : State) : exec c x = runCore (signalEff src cmd) x := by
  simp only [List.mem_cons, List.not_mem_nil, or_false] at hc
  rcases hc with rfl | rfl <;> rfl

/-- What a source of this chip hands over now, behind no write of its own (R164 to R167, R382). -/
theorem fromSource_now {s : State} {src : SignalSource} {x : SigSource} {cmd : BitVec 64} (hx : s.sourceOf src = some x)
    (hnone : s.sig.inbound.find? (fun c => c.isFrom src cmd) = none) (hw : s.writesBefore (s.handed x cmd) = true) :
    s.fromSource src cmd =
      if s.logHolds (s.handed x cmd) then
        State.logWaits { s with sig := { s.sig with inbound := s.sig.inbound ++ [s.handed x cmd] } }
      else if x = .hostDma then s.hostCommand (s.handed x cmd) else s.localCommand (s.handed x cmd) := by
  simp only [State.fromSource, hnone, hx, hw, if_true]
  rfl

/-- A source is the host DMA port where its port is. -/
theorem sourceOf_hostDma {s : State} {src : SignalSource} {x : SigSource} (hx : s.sourceOf src = some x) :
    x = .hostDma ↔ src = .hostDma := by
  cases src with
  | engine p =>
    obtain ⟨n, -, rfl⟩ := Option.map_eq_some_iff.mp hx
    simp
  | hostDma => simpa [State.sourceOf] using hx.symm
  | queue q =>
    obtain rfl : SigSource.queue q = x := by simpa [State.sourceOf] using hx
    simp
  | link p =>
    obtain rfl : SigSource.link p = x := by simpa [State.sourceOf] using hx
    simp

theorem signalEff_of_local {src : SignalSource} (h : ∀ p, src ≠ .link p) (cmd : BitVec 64) (s : State) :
    signalEff src cmd s = s.fromSource src cmd := by
  cases src with
  | link p => exact absurd rfl (h p)
  | engine p => rfl
  | hostDma => rfl
  | queue q => rfl

/-- Settles O37: a command by its fields and its target, by its source, and by its stamp. -/
theorem signalsAndArrivalsApply : Obligations.SignalsAndArrivalsApply := by
  intro s dropped
  refine ⟨?apply, ?link, ?source, ?held⟩
  case apply =>
    intro w cmd o a
    refine ⟨applyCommand_bad, fun hb hop => ⟨applyCommand_closed hb hop, fun hl ha => ?_⟩,
      fun hb hop => ⟨applyCommand_arrive_closed hb hop, fun hl hlt => ?_, fun hl hle => ?_⟩⟩
    · rw [applyCommand_live hb hop hl ha]
      refine ⟨fun hbin hle => ?_, fun hbin hgt => ?_, fun hbin h0 => ?_, fun hbin h0 => ?_⟩
      · rw [State.applySignal, if_neg (Bool.eq_false_iff.mp hbin), if_pos hle]
      · rw [State.applySignal, if_neg (Bool.eq_false_iff.mp hbin), if_neg (Nat.not_le.mpr hgt)]
      · rw [State.applySignal, if_pos hbin, if_pos h0]
      · rw [State.applySignal, if_pos hbin, if_neg h0]
    · exact (applyCommand_arrive hb hop hl).trans (if_pos hlt)
    · exact (applyCommand_arrive hb hop hl).trans (if_neg (Nat.not_lt.mpr hle))
  case link =>
    intro c p cmd e hs hc vc hserves
    have hcmd : (e.slots.headD 0).setWidth 64 = cmd := by
      rw [hserves.slots_eq]
      simp [BitVec.setWidth_setWidth_of_le]
    have completes : Completes c s (s.serveDelivered e (State.signalRecord p)) :=
      (completes_core hs fun x _ => exec_signals hc x).eq (serveRecord_serves hserves (State.signalRecord p))
    refine ⟨fun hchip => completes.eq ?_, fun hchip => ⟨fun hw => completes.eq ?_, fun hw => completes.eq ?_⟩⟩
    · simp only [State.serveDelivered, State.signalRecord, hcmd, if_pos hchip]
      rfl
    · simp only [State.serveDelivered, State.signalRecord, hcmd, if_neg (not_not.mpr hchip), if_pos hw]
    · simp only [State.serveDelivered, State.signalRecord, hcmd, if_neg (not_not.mpr hchip), if_neg (Bool.eq_false_iff.mp hw)]
  case source =>
    intro c src x cmd hs hc hx hlink hnone hw
    have completes : Completes c s (s.fromSource src cmd) :=
      (completes_core hs fun x _ => exec_signals hc x).eq (signalEff_of_local hlink cmd s)
    rw [fromSource_now hx hnone hw] at completes
    have hhost := sourceOf_hostDma hx
    have hholds : s.logHolds (s.handed x cmd) = (x == .hostDma && !s.logRoom) := rfl
    rw [hholds] at completes
    refine ⟨fun h => completes.eq ?_, fun h hroom => completes.eq ?_, fun h hroom => completes.eq ?_⟩
    · simp [mt hhost.mp h]
    · simp [hhost.mpr h, hroom]
    · simp [hhost.mpr h, hroom]
  case held =>
    intro hs
    refine (completes_core hs fun x _ => exec_heldSignalApply x).eq ?_
    rw [heldSignalApplyEff]

/-- Settles O39: a wait or an arrival by its object or barrier, and a post by where its target is. -/
theorem waitsArrivalsAndPosts : Obligations.WaitsArrivalsAndPosts := by
  intro s n hs arg t
  refine ⟨fun hx => ?wait, fun hx => ?arrive, ?post⟩
  case wait =>
    intro o k x bad
    have completes := (completes_core hs fun x _ => exec_sigWait n x).eq
      (show sigWaitEff n s = t.checkWait n o k from if_pos hx)
    have hbad : (!x.open_ ∨ k = 0 ∨ (x.binary ∧ k ≠ 1)) ↔ bad := by simp [bad]
    have hparks : (x.waiters.isEmpty ∧ k ≤ x.count.toNat) ↔ (x.waiters = [] ∧ k ≤ x.count.toNat) := by simp
    have heff : t.checkWait n o k = if bad then (t.raise A.signalProtocol).resolve n .cancelled
        else if t.objLive o = false then t.resolve n .abandoned
        else if x.waiters = [] ∧ k ≤ x.count.toNat then
          ((t.modObj o fun x => { x with count := x.count - BitVec.ofNat 32 k }).bump K.waitsImmediate).resolve n .ok
        else ((t.modObj o fun x => { x with waiters := x.waiters ++ [(n, k)] }).bump K.waitsParked).modSlot n fun q =>
          { q with parked := true } := by
      have hlive : (!t.objLive o) = true ↔ t.objLive o = false := by simp
      simp only [State.checkWait, ← hbad, ← hparks, ← hlive]
      rfl
    rw [heff] at completes
    refine ⟨fun h => completes.eq (if_pos h), fun h hl => completes.eq ?_, fun h hl h0 hk => completes.eq ?_,
      fun h hl hk => completes.eq ?_⟩
    · rw [if_neg h, if_pos hl]
    · rw [if_neg h, if_neg (by simp [hl]), if_pos ⟨h0, hk⟩]
    · rw [if_neg h, if_neg (by simp [hl]), if_neg]
      rintro ⟨h0, hle⟩
      rcases hk with hne | hgt
      · exact hne h0
      · exact absurd hle (Nat.not_le.mpr hgt)
  case arrive =>
    intro b
    have completes := (completes_core hs fun x _ => exec_barrierArrive n x).eq
      (show barrierArriveEff n s = t.checkArrive n b from if_pos hx)
    refine ⟨fun ho => completes.eq ?_, fun ho hl => completes.eq ?_, fun hl => completes.eq ?_⟩
    · simp only [State.checkArrive, ho, Bool.not_false, if_true]
    · simp only [State.checkArrive, ho, hl, Bool.not_true, Bool.not_false, Bool.false_eq_true, if_false, if_true]
    · have ho : (t.barrier b).open_ = true := by
        simp only [State.barrierLive, Bool.and_eq_true] at hl
        exact hl.1
      simp only [State.checkArrive, ho, hl, Bool.not_true, Bool.false_eq_true, if_false]
  case post =>
    intro cmd
    refine ⟨fun hst hc hr hh ht hw => ?_, ?_⟩
    · refine (completes_core hs fun x _ => exec_sigPost n x).eq (if_pos ?_)
      simp [hst, hc, hr, hh, ht, hw]
    · intro hworks x cmd sent hu
      refine (completes_core hs fun x _ => exec_sigPost n x).eq ?_
      have hissued : (s.slot n).state = .issued := by
        have hitem := hworks.2.2.1
        simp only [State.isItem, Bool.and_eq_true, beq_iff_eq] at hitem
        exact hitem.1.1.1
      rw [sigPostEff, if_neg (by simp [hissued]), onItem_works hworks, State.worked, if_pos hu]
      rfl

end Sys2Proof.Machine

/-! DMA and digest tasks, aborted items, lookups and their remote parts (R217, R226 to R241, R315, R378, R403). -/
namespace Sys2Proof.Machine

/-- The commands of the data-task path work on the item in a slot (R31). -/
theorem exec_item {c : Instr} {n : Nat}
    (hc : c ∈ [.qEnqueue n, .qDequeue n, .dmaCopy n, .dmaFill n, .digest n, .embGather n, .embPool n, .embScore n,
        .embUpdate n, .expSelect n, .expSend n, .expReturn n]) :
    ∃ op f, ∀ x : State, exec c x = runCore (fun s => s.onItem n op f) x := by
  simp only [List.mem_cons, List.not_mem_nil, or_false] at hc
  rcases hc with rfl | rfl | rfl | rfl | rfl | rfl | rfl | rfl | rfl | rfl | rfl | rfl <;> exact ⟨_, _, fun _ => rfl⟩

/-- An item that an abort waits for only returns its completion (R403). -/
theorem onItem_aborted {s : State} {n : Nat} (h : s.mat.aborts.contains n = true) (op : Nat) (f : State → State) :
    s.onItem n op f = (s.arriveItem n).returnAbort n := if_pos h

/-- Settles O40: each operation by its request block, and an aborted item whatever its operation. -/
theorem dmaTasksAndAborts : Obligations.DmaTasksAndAborts := by
  refine ⟨?tasks, ?aborts⟩
  case tasks =>
    intro s n t st r done
    have rest {b : Bool} (x y : State) : (if (!b) = true then x else y) = if b = false then x else y := by cases b <;> rfl
    refine ⟨fun hw => ?_, fun hw => ?_, fun hw => ?_⟩
    · refine (completes_works hw fun x => exec_dmaCopy n x).eq (congrArg done ?_)
      unfold dmaCopyEff
      dsimp only
      rw [rest]
      rfl
    · refine (completes_works hw fun x => exec_dmaFill n x).eq (congrArg done ?_)
      unfold dmaFillEff
      dsimp only
      rw [rest]
      rfl
    · refine (completes_works hw fun x => exec_digest n x).eq (congrArg done ?_)
      unfold digestEff
      dsimp only
      rw [rest]
  case aborts =>
    intro s c n hs ha hc t
    obtain ⟨op, f, hx⟩ := exec_item hc
    exact (completes_core hs fun x _ => hx x).eq (onItem_aborted ha op f)

/-- A lookup task that begins (R226, R375). -/
theorem lookup_begins {s : State} {n : Nat} (hst : s.embStopped = false) (hnone : s.lookupOf n = none) (op : Nat) :
    s.lookup n op =
      (let t := (s.requestBlock n).1
       let st := (s.requestBlock n).2.1
       let r := (s.requestBlock n).2.2
       let u := t.modInst (t.slot n).inst fun i => { i with
         tables := if i.tables.contains (lookupTable op r) then i.tables else i.tables ++ [lookupTable op r] }
       let l : Lookup := { slot := n, op := op, req := r, table := lookupTable op r }
       if st ≠ .ok then t.dataDone n st [] else if op = Op.embScore then u.scoreLookup l else u.poolLookup l) := by
  simp only [State.lookup, hst, hnone, Option.isSome_none, Bool.or_self, Bool.false_eq_true, if_false]

/-- A remote record of its command's kind is served where the engine is not stopped (R340). -/
theorem remoteEff_served {s : State} {kind src : Nat} {h : BitVec 128} {payload : List (BitVec 128)} {e : Delivered}
    (hk : Rem.kind h = kind) (hst : s.embStopped = false)
    (hserves : s.Serves { src := src, vc := Rem.kind h % 2, family := Fam.remote, slots := h :: payload } e)
    (f : RemoteRec → State → State) :
    remoteEff kind src h payload f s =
      (f { src := src, header := h, payload := payload } (s.checkStatus (Rem.status h))).takeRecord e := by
  subst hk
  rw [remoteEff, if_neg (not_not.mpr rfl), serveRecord_serves hserves]
  simp only [State.serveDelivered, holdsWhile, hst, Bool.false_eq_true, if_false]

/-- What an arriving reply does, by the partial that waits for it (R240, R241). -/
theorem remoteReply_eq (s : State) (r : RemoteRec) (score : Bool) (take : Partial → Lookup → Lookup) :
    (s.pendingFor r.header score = none → s.remoteReply r score take = s.bump K.remoteRepliesStale)
    ∧ ∀ p, s.pendingFor r.header score = some p → s.remoteReply r score take =
      if Rem.status r.header ≠ 0 then s.partialFails p ((Status.ofFinal (Rem.status r.header)).getD .cancelled)
      else ((s.freePartial p).modLookup p.slot (take p)).finishLookup p.slot := by
  refine ⟨fun h => ?_, fun p h => ?_⟩
  · rw [State.remoteReply, h]
  · rw [State.remoteReply, h]
    rfl

/-- A request of another chip is served once its tick has come, where it comes upon no block to wait for (R239, R315). -/
theorem serveRemote_served {s : State} {r : RemoteRec} (ht : s.tickLater (Rem.tick r.header) = false)
    (hstuck : ((fun t : State => if Rem.kind r.header = 0 then t.servePool r else t.serveScore r)
      (s.asking r.reader)).stripe.stuck = none)
    (hheld : (((fun t : State => if Rem.kind r.header = 0 then t.servePool r else t.serveScore r)
      (s.asking r.reader)).stripe.heldReads.any fun h => h.src == r.reader) = false) :
    s.serveRemote r = (if Rem.kind r.header = 0 then (s.asking r.reader).servePool r
      else (s.asking r.reader).serveScore r).doneAsking r.reader := by
  rw [State.serveRemote, if_neg (Bool.eq_false_iff.mp ht), patient_none hstuck]
  exact if_neg (Bool.eq_false_iff.mp hheld)

/-- Settles O41: a task by its request block, a record by its kind, a request by its tick. -/
theorem lookupsAndRemotePartials : Obligations.LookupsAndRemotePartials := by
  refine fun s hs hst => ⟨?task, ?point, ?record, fun r => ⟨fun ht => if_pos ht, fun ht => ?serve⟩, fun tag p hp => ?timeout⟩
  case task =>
    intro n c op hw hc x t st r u l hx hnone
    have hexec : ∀ y : State, exec c y = runCore (fun s => s.onItem n op fun s => s.lookup n op) y := by
      simp only [List.mem_cons, List.not_mem_nil, or_false, Prod.mk.injEq] at hc
      rcases hc with ⟨rfl, rfl⟩ | ⟨rfl, rfl⟩ | ⟨rfl, rfl⟩ <;> exact fun _ => rfl
    exact (completes_works hw hexec).eq (congrArg (State.doneAsking · _) (lookup_begins hx hnone op))
  case point =>
    intro ho hd due leave t
    refine (completes_core hs fun x _ => exec_exchangePoint x).eq (if_neg ?_)
    simp [ho, hd]
  case record =>
    intro src h payload e hserves r t
    refine ⟨fun hk => ?_, fun hk => ?_, ?_⟩
    · exact (completes_core hs fun x _ => exec_poolReq src h payload x).eq (remoteEff_served hk hst hserves _)
    · exact (completes_core hs fun x _ => exec_scoreReq src h payload x).eq (remoteEff_served hk hst hserves _)
    · intro score hk c
      have completes : Completes c s ((t.remoteReply r score (if score then takeScore r else takePool r t)).takeRecord e) := by
        cases score with
        | false =>
          exact (completes_core hs fun x _ => exec_poolReply src h payload x).eq (remoteEff_served hk hst hserves _)
        | true =>
          exact (completes_core hs fun x _ => exec_scoreReply src h payload x).eq (remoteEff_served hk hst hserves _)
      obtain ⟨hstale, hanswered⟩ := remoteReply_eq t r score (if score then takeScore r else takePool r t)
      refine ⟨fun hp => completes.eq (congrArg (State.takeRecord · e) (hstale hp)), fun p hp =>
        completes.eq (congrArg (State.takeRecord · e) ((hanswered p hp).trans ?_))⟩
      cases score <;> rfl
  case serve =>
    intro f hstuck hheld
    exact serveRemote_served ht hstuck hheld
  case timeout =>
    refine (completes_core hs fun x _ => exec_remoteTimeout tag x).eq ?_
    simp only [remoteTimeoutEff, hp]

end Sys2Proof.Machine

/-! Live updates, folds, migrations, replicas and scans (R251 to R275). -/
namespace Sys2Proof.Machine

/-- An EMB_UPDATE that begins: the checks of R252 in their order, and then its first stages. -/
theorem embUpdateEff_begins {s : State} {n : Nat} (hst : s.embStopped = false) (hnone : s.updateOf n = none) :
    embUpdateEff n s =
      (let t := (s.requestBlock n).1
       let st := (s.requestBlock n).2.1
       let r := (s.requestBlock n).2.2
       let table := t.tableOf n (Upd.table r)
       if st ≠ .ok then t.dataDone n st []
       else if t.tableFor n (Upd.table r) = false ∨ table.voxpor = true ∨ table.live = false ∨ t.power.stage = 1
           ∨ t.par K.liveUpdateEnable = 0 ∨ Upd.rows r = 0 ∨ Upd.rows r > 65536 then t.cancelUpdate n
       else
         let x := t.readArray n (Upd.index r) 8 (Upd.rows r)
         let worst := x.2.foldl (fun st e => st.worse e.1) Status.ok
         if x.2.any fun e => e.1 == .ok && !x.1.ownsRow table (e.2 % 2 ^ 40) then x.1.cancelUpdate n
         else if worst ≠ .ok then x.1.dataDone n worst []
         else
           let u : Update := { slot := n, table := Upd.table r, opening := table.openTick, count := Upd.rows r }
           State.advanceUpdate { x.1 with emb := { x.1.emb with updates := x.1.emb.updates ++ [u] } } n) := by
  have hchecks (b v l : Bool) (p q r : Nat) : (!b || v || !l || p == 1 || q == 0 || decide (r = 0 ∨ r > 65536)) = true ↔
      (b = false ∨ v = true ∨ l = false ∨ p = 1 ∨ q = 0 ∨ r = 0 ∨ r > 65536) := by
    simp [or_assoc]
  simp only [embUpdateEff, hst, hnone, Option.isSome_none, Bool.or_self, Bool.false_eq_true, if_false, hchecks]

/-- A fold that starts (R258; log 125). -/
theorem foldStartEff_of_foldable {s : State} {i : Nat} {v : Version} {t : State} {bytes : List Byte}
    (hst : s.embStopped = false) (hen : s.par K.foldEnable ≠ 0) (hv : s.foldable i = some v)
    (hread : s.newestBytes (s.ovl i).table (s.ovl i).row 1 = (t, .ok, bytes)) :
    foldStartEff i s =
      (let home := (s.table (s.ovl i).table).homeBase + (s.ovl i).row * (s.table (s.ovl i).table).stride
       let u := ((t.raiseFloor (s.ovl i).table v.stamp).writeBytes home bytes 1).putOvl i fun e => { e with folding := true }
       { u with emb := { u.emb with folds := u.emb.folds ++ [{ index := i, stamp := v.stamp }] } }) := by
  have hmay : (s.embStopped || s.par K.foldEnable == 0) = false := by simp [hst, hen]
  simp only [foldStartEff, hmay, Bool.false_eq_true, if_false, hv, hread, ne_eq, not_true_eq_false]

section Migration
variable {s : State} {table row : Nat} {m : Migration} {t : State}

/-- A migration whose row cannot be read gives its slot back (R261; log 40). -/
theorem migrationCopy_unreadable {st : Status} {bytes : List Byte} (hst : s.embStopped = false)
    (hm : s.emb.migrations.find? (fun m => m.table == table && m.row == row && !m.published) = some m)
    (hread : s.newestBytes table row 1 = (t, st, bytes)) (hbad : st ≠ .ok) :
    migrationCopyCompleteEff table row s =
      (let u := t.freeSlot .hot m.off
       { u with emb := { u.emb with migrations := dropFirst (· == m) u.emb.migrations } }) := by
  simp only [migrationCopyCompleteEff, hst, Bool.false_eq_true, if_false, hm, hread, if_pos hbad]

/-- The stamp of a migration's version: the next boundary's, after every version already published (R261, R262). -/
theorem migration_stamp (next : BitVec 32) (l : Option Version) :
    (if (l.map fun w => w.stamp + 1).isNone then next
      else laterTick next ((l.map fun w => w.stamp + 1).getD 0)) =
    (match l with
      | none => next
      | some w => laterTick next (w.stamp + 1)) := by
  cases l with
  | none => simp
  | some w => simp

theorem migrationCopy_publishes {bytes : List Byte} {i : Nat} (hst : s.embStopped = false)
    (hm : s.emb.migrations.find? (fun m => m.table == table && m.row == row && !m.published) = some m)
    (hread : s.newestBytes table row 1 = (t, .ok, bytes)) (hi : s.takeableOvl table row false = some i)
    (hroom : (s.ovl i).inUse = false ∨ (s.ovl i).hasRoom = true) :
    migrationCopyCompleteEff table row s =
      (let next := s.nextTick.truncate 32
       let stamp := match (s.ovl i).versions.getLast? with
         | none => next
         | some w => laterTick next (w.stamp + 1)
       let v : Version := { stamp := stamp, loc := .hot, addr := m.off }
       let u := ((t.hotWrite m.off bytes).claimOvl i table row false).putOvl i fun e => { e with
         versions := addVersion e.versions v, idle := 0 }
       State.bump { u with emb := { u.emb with
         migrations := modWhere (· == m) (fun x => { x with published := true }) u.emb.migrations } } K.rowsMigrated) := by
  have hfull : ((s.ovl i).inUse && !(s.ovl i).hasRoom) = false := by rcases hroom with h | h <;> simp [h]
  simp only [migrationCopyCompleteEff, hst, Bool.false_eq_true, if_false, hm, hread, ne_eq, not_true_eq_false, hi, hfull,
    migration_stamp]

end Migration

/-- Settles O42: each command by the resources and the bytes that it finds. -/
theorem updatesFoldsAndMigrations : Obligations.UpdatesFoldsAndMigrations := by
  refine fun s hs hst => ⟨?update, ?publish, ?fold, ?folded, ?unreadable, ?migrated, fun i v hu hr hd hv hhot hidle => ?demoted⟩
  case update =>
    intro n hw w t st r table hwst hnone
    exact (completes_works hw fun x => exec_embUpdate n x).eq
      (congrArg (State.doneAsking · _) (embUpdateEff_begins hwst hnone))
  case publish =>
    intro n who hstuck
    refine (completes_core hs fun x _ => exec_updatePublish n x).eq ?_
    rw [if_neg (Bool.eq_false_iff.mp hst), patient_none hstuck]
  case fold =>
    intro i v t bytes hen hv hread home u
    exact (completes_core hs fun x _ => exec_foldStart i x).eq (foldStartEff_of_foldable hst hen hv hread)
  case folded =>
    intro i hi v hroom t
    have hmay : (s.embStopped || !(s.emb.folds.any fun f => f.index == i)
        || !((s.ovl i).hasRoom || (s.ovl i).versions.any fun w => w.stamp == v.stamp)) = false := by
      have hfree : ((s.ovl i).hasRoom || (s.ovl i).versions.any fun w => w.stamp == v.stamp) = true := by simpa using hroom
      rw [hst, hi, hfree]
      rfl
    exact (completes_core hs fun x _ => exec_foldCopyComplete i x).eq (if_neg (Bool.eq_false_iff.mp hmay))
  case unreadable =>
    intro table row m t st bytes hm hread hbad u
    exact (completes_core hs fun x _ => exec_migrationCopyComplete table row x).eq
      (migrationCopy_unreadable hst hm hread hbad)
  case migrated =>
    intro table row m t bytes i hm hread hi hroom next stamp v u
    exact (completes_core hs fun x _ => exec_migrationCopyComplete table row x).eq
      (migrationCopy_publishes hst hm hread hi hroom)
  case demoted =>
    refine (completes_core hs fun x _ => exec_hotRowDemotion i x).eq (if_pos ?_)
    simp [hu, hr, hd, Overlay.hot, hv, hhot, hidle]

/-- A replica record of its command's kind is served where the engine is not stopped (R340). -/
theorem replicaRecEff_served {s : State} {kind src : Nat} {h : BitVec 128} {payload : List (BitVec 128)} {e : Delivered}
    (hk : Rep.kind h = kind) (hst : s.embStopped = false)
    (hserves : s.Serves { src := src, family := Fam.replica, slots := h :: payload } e) (f : State → State) :
    replicaRecEff kind src h payload f s = (f s).takeRecord e := by
  rw [replicaRecEff, if_neg (not_not.mpr hk), serveRecord_serves hserves]
  simp only [State.serveDelivered, holdsWhile, hst, Bool.false_eq_true, if_false]

/-- Settles O43: a record by its kind, and a scan by the digest it gives. -/
theorem replicasAndScans : Obligations.ReplicasAndScans := by
  refine fun s hs => ⟨?record, fun n w t d hw hsc hd => ?voxpor, fun n snap t d hsc hd => ?digest⟩
  case record =>
    intro src h payload e hst serves
    refine ⟨fun hk hserves => ?_, fun hk hserves => ?_, fun hk hserves => ?_⟩
    · exact (completes_core hs fun x _ => exec_replica src h payload x).eq (replicaRecEff_served hk hst hserves _)
    · exact (completes_core hs fun x _ => exec_lease src h x).eq (replicaRecEff_served hk hst hserves _)
    · have completes : Completes (.drop src h) s ((s.dropReplica h).takeRecord e) :=
        (completes_core hs fun x _ => exec_drop src h x).eq (replicaRecEff_served hk hst hserves _)
      refine ⟨fun hf => completes.eq ?_, fun i hf => completes.eq ?_⟩
      · rw [State.dropReplica, hf]
      · rw [State.dropReplica, hf]
  case voxpor =>
    refine (completes_core hs fun x _ => exec_voxporScanComplete n x).eq ?_
    simp only [voxporScanCompleteEff, hw, hsc, hd, Bool.false_eq_true, if_false]
  case digest =>
    refine (completes_core hs fun x _ => exec_tableDigestScanComplete n x).eq ?_
    simp only [tableDigestScanCompleteEff, hsc, hd]

end Sys2Proof.Machine

/-! Expert routing: selection, exchanges and their records (R276 to R297). -/
namespace Sys2Proof.Machine

/-- Settles O44: a task by its request block, its exchange and the room there is. -/
theorem routingTasks : Obligations.RoutingTasks := by
  intro s n hs y done
  refine ⟨?select, fun hw hu hq => ⟨fun hl => ?opens, fun hl => ?waits⟩, fun rest hr hl hi => ?opened,
    fun hw hu => ⟨fun hx => ?closed, fun x hx => ?returns⟩, fun he x hx => ?recv, fun he x hx => ?collect⟩
  case select =>
    intro hw t st r map group lists x sel taken kept total used
    have completes := completes_works hw fun x => exec_expSelect n x
    refine ⟨fun hst hr hl hg hm hx hcap => completes.eq (congrArg done ?_), fun hst => completes.eq (congrArg done ?_),
      fun hst hr => completes.eq (congrArg done ?_)⟩
    · have hshape : ¬ ((!group.1.groupOk (group.2.map (·.2))) || !mapOk (map.2.map (·.2)) (group.2.map (·.2))) = true := by
        simp [hg, hm]
      have htaken : ¬ (Sel.cap r = 0 ∧ taken.any (fun k => decide (k > 8)) = true) := by
        rintro ⟨h0, hany⟩
        obtain ⟨k, hk, h8⟩ := List.any_eq_true.mp hany
        rcases hcap with h | h
        · exact h h0
        · exact absurd (h k hk) (Nat.not_le.mpr (of_decide_eq_true h8))
      unfold expSelectEff
      dsimp only
      rw [if_neg (not_not.mpr hst), if_neg (by rw [hr]; decide), if_neg (not_not.mpr hl), if_neg hshape,
        if_neg (not_not.mpr hx), if_neg htaken]
    · unfold expSelectEff
      dsimp only
      rw [if_pos hst]
    · unfold expSelectEff
      dsimp only
      rw [if_neg (not_not.mpr hst), if_pos (by rw [hr]; rfl)]
  case opens =>
    refine (completes_works hw fun x => exec_expSend n x).eq (congrArg done ?_)
    rw [expSendEff, if_neg (not_or.mpr ⟨Nat.not_lt.mpr hu.le, Bool.eq_false_iff.mp hq⟩), if_neg (Nat.not_le.mpr hl)]
  case waits =>
    refine (completes_works hw fun x => exec_expSend n x).eq (congrArg done ?_)
    rw [expSendEff, if_neg (not_or.mpr ⟨Nat.not_lt.mpr hu.le, Bool.eq_false_iff.mp hq⟩), if_pos hl]
  case opened =>
    have hrest : s.route.sendWaits.drop 1 = rest := by rw [hr]; rfl
    refine (completes_core hs fun x _ => exec_exchangeOpen n x).eq ((if_pos ⟨by rw [hr]; rfl, hl, hi⟩).trans ?_)
    rw [hrest]
  case closed =>
    refine (completes_works hw fun x => exec_expReturn n x).eq (congrArg done ?_)
    rw [expReturnEff, if_neg (Nat.not_lt.mpr hu.le), hx]
  case returns =>
    refine (completes_works hw fun x => exec_expReturn n x).eq (congrArg done ?_)
    rw [expReturnEff, if_neg (Nat.not_lt.mpr hu.le), hx]
  case recv =>
    refine (completes_core hs fun x _ => exec_expRecv n x).eq ?_
    rw [expRecvEff, if_neg (by simp [he])]
    dsimp only
    rewrite [hx]
    rfl
  case collect =>
    refine (completes_core hs fun x _ => exec_expCollect n x).eq ?_
    rw [expCollectEff, if_neg (by simp [he])]
    dsimp only
    rewrite [hx]
    rfl

/-- The commands for the records of an exchange, by their kinds. -/
theorem exec_exchangeRecord {c : Instr} {kind src : Nat} {h : BitVec 128} {payload : List (BitVec 128)}
    (hc : (c, kind) ∈ [(.sendCount src h payload, 0), (.sendRow src h payload, 1), (.returnCount src h payload, 2),
      (.returnRow src h payload, 3)]) :
    kind < 4 ∧ ∀ x : State, exec c x = runCore (exchangeEff kind src h payload) x := by
  simp only [List.mem_cons, List.not_mem_nil, or_false, Prod.mk.injEq] at hc
  rcases hc with ⟨rfl, rfl⟩ | ⟨rfl, rfl⟩ | ⟨rfl, rfl⟩ | ⟨rfl, rfl⟩ <;> exact ⟨by decide, fun _ => rfl⟩

/-- A record of an open exchange is processed by its kind (R289). -/
theorem takeExchange_open {s : State} {r : RemoteRec} {x : Exchange} {kind : Nat} (hk : Exc.kind r.header = kind)
    (hlt : kind < 4) (hx : s.exchange (Exc.tag r.header) = some x) :
    s.takeExchange r = (if kind = 0 then s.takeSendCount x r else if kind = 1 then s.takeSendRow x r
      else if kind = 2 then s.takeReturnCount x r else s.takeReturnRow x r) := by
  have hnow : ((s.exchange (Exc.tag r.header)).isNone && s.tagLater (Exc.tag r.header)) = false := by simp [hx]
  rw [State.takeExchange, if_neg (Bool.eq_false_iff.mp hnow), State.exchangeRecord, hx, hk]
  interval_cases kind <;> rfl

/-- A record of an exchange that is to come waits (R289). -/
theorem takeExchange_early {s : State} {r : RemoteRec} (hx : s.exchange (Exc.tag r.header) = none)
    (ht : s.tagLater (Exc.tag r.header) = true) :
    s.takeExchange r = { s with route := { s.route with early := s.route.early ++ [r] } } := if_pos (by simp [hx, ht])

theorem takeExchange_stale {s : State} {r : RemoteRec} (hx : s.exchange (Exc.tag r.header) = none)
    (ht : s.tagLater (Exc.tag r.header) = false) : s.takeExchange r = s.bump K.exchangeRecordsStale := by
  rw [State.takeExchange, if_neg (by simp [ht]), State.exchangeRecord, hx]

/-- Settles O45: a record by whether it is held, and by its exchange. -/
theorem exchangeRecords : Obligations.ExchangeRecords := by
  intro s src h payload e hs r tag
  refine ⟨fun c kind hk hc hserves => ?record, fun tag => ?timeout⟩
  case timeout =>
    refine (completes_core hs fun x _ => exec_exchangeTimeout tag x).eq ?_
    rw [exchangeTimeoutEff]
  obtain ⟨hlt, hexec⟩ := exec_exchangeRecord hc
  have heff (f : Delivered → State → Option Delivered × State)
      (hf : holdsWhile (s.recordHeld r) (fun s => (s.checkStatus (Exc.status h)).takeExchange r) = f) :
      exchangeEff kind src h payload s = s.serveDelivered e f := by
    rw [exchangeEff]
    rw [if_neg (not_not.mpr hk), serveRecord_serves hserves, ← hf]
  have completes := (completes_core hs fun x _ => hexec x).eq (heff _ rfl)
  refine ⟨fun hh => completes.eq ?_, fun hh => ?_⟩
  · simp only [State.serveDelivered, holdsWhile, hh, if_true]
  · intro t
    have taken : Completes c s ((t.takeExchange r).takeRecord e) := completes.eq (by
      simp only [State.serveDelivered, holdsWhile, hh, Bool.false_eq_true, if_false]
      rfl)
    exact ⟨fun x hx => taken.eq (congrArg (State.takeRecord · e) (takeExchange_open hk hlt hx)),
      fun hx ht => taken.eq (congrArg (State.takeRecord · e) (takeExchange_early hx ht)),
      fun hx ht => taken.eq (congrArg (State.takeRecord · e) (takeExchange_stale hx ht))⟩

end Sys2Proof.Machine

/-! ## Requests at the engine, host DMA and control ports -/

namespace Sys2Proof.Machine

theorem behindOf_hostDma (s : State) (cmd : BitVec 64) : s.behindOf .hostDma cmd = [] := rfl

/-- Settles O46: each request by the branch of its rule that its hypotheses choose. -/
theorem portRequests : Obligations.PortRequests := by
  intro s p n hs
  refine ⟨?read, ?beat, ?host, ?control⟩
  case read =>
    intro addr tag hint hp ho ht hr a q
    have heff : ¬ (!s.channelsOpen p ∨ tag ≥ 256 ∨ (s.port p).reads.any (fun r => r.tag == tag)) := by
      simp [ho, hr, ht]
    have completes := completes_enginePort hs hp fun x => exec_engineReadRequest p addr tag hint x
    refine ⟨fun hl => completes.eq ?_, fun hl hw => completes.eq ?_, fun hl hw => ?_⟩
    · simp only [engineReadRequestEff, if_neg heff, hl]
    · simp only [engineReadRequestEff, if_neg heff, hl]
      exact if_pos (congrArg Bool.not hw)
    · intro id
      refine completes.eq ?_
      simp only [engineReadRequestEff, if_neg heff, hl]
      exact if_neg (Bool.eq_false_iff.mp (congrArg Bool.not hw))
  case beat =>
    intro b hp ho
    have completes := completes_enginePort hs hp fun x => exec_engineWriteBeat p b x
    refine ⟨fun hl => completes.eq ?_, fun hl => completes.eq ?_⟩
    · rw [engineWriteBeatEff, if_neg (by simp [ho]), hl]
    · rw [engineWriteBeatEff, if_neg (by simp [ho]), hl]
  case host =>
    intro addr tag part data a violated
    have reads := completes_core hs fun x _ => exec_hostDmaRead addr tag part x
    have writes (signal : Bool) := completes_core hs fun x _ => exec_hostDmaWrite addr part signal data x
    refine ⟨fun hm => ⟨reads.eq (if_pos hm), (writes false).eq (if_pos hm)⟩,
      fun hm => ⟨reads.eq (if_neg (Bool.eq_false_iff.mp hm)), (writes false).eq (if_neg (Bool.eq_false_iff.mp hm))⟩,
      (writes true).eq rfl⟩
  case control =>
    intro addr size data ha hz hd
    have sound : ¬ (addr ≥ 2 ^ 20 ∨ size > 6 ∨ addr % 2 ^ size ≠ 0) := by omega
    have completes (write : Bool) : Completes (.controlRequest write addr size data) s
        (controlRequestEff write addr size data s) :=
      (completes_mgmt hs.managed fun x _ => exec_controlRequest write addr size data x).eq (if_neg fun h => Bool.eq_false_iff.mp hs.2 h.1)
    refine ⟨(completes true).eq ?_, fun hw => (completes false).eq ?_⟩
    · rw [controlRequestEff, if_neg sound, if_pos rfl]
    · rw [controlRequestEff, if_neg sound, if_neg Bool.false_ne_true, if_neg (by omega)]

end Sys2Proof.Machine

/-! ## Responses of memory controllers and the waits for them -/

namespace Sys2Proof.Machine

section Response
variable {s : State} {p : Nat} {r : BitVec 16} {ok : MemOp → Nat → Bool} {f : MemTag → State → State}

theorem onResponse_inReset (h : (s.mport p).resetN = false) : s.onResponse p r ok f = s := by
  simp [State.onResponse, h]

theorem onResponse_lost (h : (s.mport p).resetN = true) (hl : (s.mport p).state = .lost) :
    s.onResponse p r ok f = s.bump K.memLateDropped := by
  simp [State.onResponse, h, hl]

/-- A response that answers no request it can answer (R302). -/
theorem onResponse_none (h : (s.mport p).resetN = true) (hl : (s.mport p).state ≠ .lost)
    (ht : ∀ t ∈ (s.mport p).tags, t.tag = Rsp.tag r → ok t.op (Rsp.status r) = false) :
    s.onResponse p r ok f = s.raise A.memProtocol := by
  have hn : s.answered p r ok = none := List.find?_eq_none.mpr fun t hmem => by
    by_cases he : t.tag = Rsp.tag r
    · simp [ht t hmem he]
    · simp [he]
  simp [State.onResponse, h, hl, hn]

/-- The first of the outstanding requests with the response's TAG, where it can have the STATUS, is the one answered
(R301). -/
theorem answered_eq {t : MemTag} (ht : (s.mport p).tags.find? (fun t => t.tag == Rsp.tag r) = some t)
    (hok : ok t.op (Rsp.status r) = true) : s.answered p r ok = some t := by
  obtain ⟨htag, before, after, heq, hbefore⟩ := List.find?_eq_some_iff_append.mp ht
  exact List.find?_eq_some_iff_append.mpr ⟨by simp [htag, hok], before, after, heq, fun x hx => by
    have hne : (x.tag == Rsp.tag r) = false := by simpa using hbefore x hx
    simp [hne]⟩

theorem onResponse_some {t : MemTag} (h : (s.mport p).resetN = true) (hl : (s.mport p).state ≠ .lost)
    (ht : (s.mport p).tags.find? (fun t => t.tag == Rsp.tag r) = some t) (hok : ok t.op (Rsp.status r) = true) :
    s.onResponse p r ok f
      = (f t (s.modMport p fun x => { x with tags := x.tags.filter fun y => y.tag ≠ t.tag })).stripeSettle := by
  simp [State.onResponse, h, hl, answered_eq ht hok]

/-- A response is heard by its TAG and STATUS alone (R301). -/
theorem memReadResponseEff_word (data : Block) :
    memReadResponseEff p (Rsp.word (r.extractLsb' 6 10) (r.extractLsb' 3 3)) data s = memReadResponseEff p r data s := by
  simp only [memReadResponseEff, State.onResponse, State.answered, Rsp.tag_word, Rsp.status_word]

end Response

/-- The three commands that carry a response complete with it (R301). -/
theorem completes_response {s : State} {p : Nat} {r : BitVec 16} {data : BitVec 512} (hs : s.Running)
    (hp : s.hasMemory p = true) :
    Completes (.memReadResponse p (r.extractLsb' 6 10) (r.extractLsb' 3 3) data) s (memReadResponseEff p r data s)
    ∧ Completes (.memWriteResponse p r) s (memWriteResponseEff p r s)
    ∧ Completes (.repairResponse p r) s (repairResponseEff p r s) :=
  ⟨(completes_memoryPort hs hp fun x => exec_memReadResponse p _ _ data x).eq (memReadResponseEff_word data),
    completes_memoryPort hs hp fun x => exec_memWriteResponse p r x,
    completes_memoryPort hs hp fun x => exec_repairResponse p r x⟩

/-- Each of the three commands for a response does what a response does, for the requests it can answer (R301). -/
theorem response_onResponse {s : State} {p : Nat} {r : BitVec 16} {data : BitVec 512} {c : Instr}
    {ok : MemOp → Nat → Bool} (hs : s.Running) (hp : s.hasMemory p = true)
    (hc : (c, ok) ∈ [(.memReadResponse p (r.extractLsb' 6 10) (r.extractLsb' 3 3) data,
        fun op st => op.isRead && decide (st ≤ 1)),
      (.memWriteResponse p r, fun op st => op == .write && decide (st ≤ 1)),
      (.repairResponse p r, fun op st => op == .repair && decide (2 ≤ st ∧ st ≤ 4))]) :
    ∃ f, Completes c s (s.onResponse p r ok f) := by
  obtain ⟨reads, writes, repairs⟩ := completes_response (data := data) hs hp
  simp only [List.mem_cons, List.not_mem_nil, or_false, Prod.mk.injEq] at hc
  obtain ⟨rfl, rfl⟩ | ⟨rfl, rfl⟩ | ⟨rfl, rfl⟩ := hc
  exacts [⟨_, reads⟩, ⟨_, writes⟩, ⟨_, repairs⟩]

/-- Settles O47: a response by the request that it answers, a wait by what waited. -/
theorem memoryResponses : Obligations.MemoryResponses := by
  intro s p r data hs hp read
  refine ⟨fun c ok hc => ?unanswered, fun t hr hl ht => ?answered, fun tag ht => ?timeout, fun n h hh => ?read,
    fun n h hn hh => ?write⟩
  case unanswered =>
    obtain ⟨f, completes⟩ := response_onResponse hs hp hc
    exact ⟨fun h => completes.eq (onResponse_inReset h), fun h hl => completes.eq (onResponse_lost h hl),
      fun h hl ht => completes.eq (onResponse_none h hl ht)⟩
  case answered =>
    intro x error
    obtain ⟨reads, writes, repairs⟩ := completes_response (data := data) hs hp
    refine ⟨fun ho hst => reads.eq ?_, fun ho hst => writes.eq ?_, fun ho hst => ?_, fun ho hst => repairs.eq ?_,
      fun ho hst => repairs.eq ?_⟩
    · exact onResponse_some hr hl ht (by simp [ho, hst])
    · rw [memWriteResponseEff, onResponse_some hr hl ht (by simp [ho, hst]), if_neg (by omega)]
    · intro y y'
      refine writes.eq ?_
      rw [memWriteResponseEff, onResponse_some hr hl ht (by simp [ho, hst]), if_pos hst]
    · rw [repairResponseEff, onResponse_some hr hl ht (by simp [ho, hst]), if_pos hst]
    · rw [repairResponseEff, onResponse_some hr hl ht (by rcases hst with h | h <;> simp [ho, h]), if_neg (by omega)]
  case timeout => exact (completes_memoryPort hs hp fun x => exec_memTimeout p tag x).eq (if_pos ht)
  case read =>
    intro x
    have completes : Completes (.reconstructTimeout n) s (s.readTimesOut h) :=
      (completes_core hs fun x _ => exec_reconstructTimeout n x).eq (by rw [reconstructTimeoutEff, hh])
    refine ⟨fun ha => completes.eq (if_pos ha), fun ha => ⟨fun hu => completes.eq ?_, fun hu => completes.eq ?_⟩⟩
    · rw [State.readTimesOut, if_neg (Bool.eq_false_iff.mp ha), if_pos hu]
    · rw [State.readTimesOut, if_neg (Bool.eq_false_iff.mp ha), if_neg (Bool.eq_false_iff.mp hu)]
  case write =>
    have completes : Completes (.reconstructTimeout n) s (if s.writeFate h.addr = .held then s.writeTimesOut h else s) :=
      (completes_core hs fun x _ => exec_reconstructTimeout n x).eq (by rw [reconstructTimeoutEff, hn, hh])
    exact ⟨fun hf => completes.eq (if_pos hf), fun hf => completes.eq (if_neg hf)⟩

end Sys2Proof.Machine

/-! ## MEM_PORT_CONTROL -/

namespace Sys2Proof.Machine

/-- MEM_PORT_CONTROL with the action in bits 15:12 and the port in the lowest five (R319). -/
theorem actAtOnce_memPortControl (s : State) {a p : Nat} (ha : a < 16) (hp : p < 32) :
    s.actAtOnce K.memPortControl 0 (a * 2 ^ 12 + p) =
      if a = 3 then s.enterRebuild p true else s.softOffline p (a == 2) := by
  have haction : fld (a * 2 ^ 12 + p) 12 4 = a := by rw [fld_eq]; omega
  have hport : fld (a * 2 ^ 12 + p) 0 5 = p := by rw [fld_eq]; omega
  have heff : s.actAtOnce K.memPortControl 0 (a * 2 ^ 12 + p)
    = if fld (a * 2 ^ 12 + p) 12 4 = 3 then s.enterRebuild (fld (a * 2 ^ 12 + p) 0 5) true
      else s.softOffline (fld (a * 2 ^ 12 + p) 0 5) (fld (a * 2 ^ 12 + p) 12 4 == 2) := rfl
  rw [heff, haction, hport]

theorem writeMask_memPortControl (v : Nat) : writeMask K.memPortControl v = v := rfl

/-- An accepted WRITE that acts at once, with an answer of the outside that its check heard. -/
theorem dictServe_acts {s : State} {key e v n : Nat} {answered : Bool} (h : ActsAtOnce key n)
    (ok : s.dictCheck answered (writeReq key e v) = D.ok) :
    s.dictServe (writeReq key e v) answered = s.wrote fun s => s.actAtOnce key e (writeMask key (v % 256 ^ n)) := by
  obtain ⟨r, h, hk, hr, rfl⟩ := h
  rw [dictServe_write h hk ok]
  refine congrArg s.wrote (funext fun s => ?_)
  unfold State.writeElem State.actAtOnce
  subst hk
  exact if_neg hr

/-- RESTORE is a WRITE of MEM_PORT_CONTROL that the controller has answered (R319). -/
theorem completes_restore {s : State} {p : Nat} (hp : p < 32) (hs : s.Accepts K.memPortControl 0 (3 * 2 ^ 12 + p) true) :
    Completes (.restore p true) s (s.wrote fun s => s.enterRebuild p true) := by
  obtain ⟨hm, hnone, hok⟩ := hs
  refine (completes_mgmt hm fun x _ => exec_restore p true x).eq ?_
  rw [at'_of_lt (by decide), at'_of_lt hp, Nat.pow_zero, Nat.mul_one, serveWaiting_none hnone,
    dictServe_acts acts_memPortControl hok, Nat.mod_eq_of_lt (by omega), writeMask_memPortControl]
  exact congrArg s.wrote (funext fun s => actAtOnce_memPortControl s (by decide) hp)

/-- Settles O48: the WRITE's action and port are read out of its value. -/
theorem memPortControlWrites : Obligations.MemPortControlWrites := by
  intro s p hp
  refine ⟨fun hs => ?_, fun hs => ?_, completes_restore hp⟩
  · refine completes_acts_plain acts_memPortControl hs (fun x => ?_) (by omega) (writeMask_memPortControl _) ?_
    · rw [exec_offlineRetrain, at'_of_lt (by decide), at'_of_lt hp, Nat.pow_zero, Nat.mul_one, Nat.one_mul]
    · exact (Nat.one_mul (2 ^ 12) ▸ actAtOnce_memPortControl _ (a := 1) (by decide) hp :)
  · refine completes_acts_plain acts_memPortControl hs (fun x => ?_) (by omega) (writeMask_memPortControl _) ?_
    · rw [exec_offlineReplace, at'_of_lt (by decide), at'_of_lt hp, Nat.pow_zero, Nat.mul_one]
    · exact actAtOnce_memPortControl _ (by decide) hp

end Sys2Proof.Machine

/-! ## Memory ports through their states -/

namespace Sys2Proof.Machine

section PortState
variable {s : State} {p : Nat}

/-- A page whose blocks have been written back is entered as its operation says (R324, R325). -/
theorem pageRestoreCompleteEff_entered {page : Nat} {o : PageOp}
    (ho : (s.mport p).ops.find? (fun o => o.page == page && o.phase == .restored) = some o) (hg : s.othersOnline p = true) :
    (o.spare = none → pageRestoreCompleteEff p page s = (s.modMport p fun x => { x with
      ops := x.ops.filter fun o => o.page ≠ page, retire := Sparse.set x.retire 0 o.place
        (retireWord ((((s.mport p).retireEntry page).map fun e => fld e.2 62 2).getD 0 + 1) 0 page) }).stripeSettle)
    ∧ ∀ k, o.spare = some k → pageRestoreCompleteEff p page s = State.stripeSettle
      ((((s.modMport p fun x => { x with
        ops := x.ops.filter fun o => o.page ≠ page, retire := Sparse.set x.retire 0 o.place (retireWord 3 k page) }).raise
        A.pageRetired).logEvent 0x0007 U.stripe (at' p 0 5 + at' page 12 25 + at' k 40 10)).bump K.pagesRetired) := by
  have hstays : ¬ (!s.othersOnline p) = true := by simp [hg]
  refine ⟨fun hk => ?_, fun k hk => ?_⟩
  · simp only [pageRestoreCompleteEff, ho, if_neg hstays, hk]
  · simp only [pageRestoreCompleteEff, ho, if_neg hstays, hk]

/-- The scrubber takes the row it has reached in a sound group, or passes it over (R328). -/
theorem scrubRowEff_reached {g : Nat} (hn : s.resets.night = false) (hz : s.par K.scrubPeriodH ≠ 0) (hg : g < s.groups)
    (hon : ∀ q ∈ s.groupPorts g, (s.mport q).state = .online)
    (hr : s.stripe.rows.any (fun w => w.kind == .scrub && w.group == g) = false)
    (hu : s.unusable g (Sparse.get s.stripe.scrubRow 0 g) = []) :
    let row := Sparse.get s.stripe.scrubRow 0 g
    (s.chunkPending g (row / 256) = true → scrubRowEff g row s = s.scrubbed { group := g, row := row })
    ∧ (s.chunkPending g (row / 256) = false →
      (∀ h ∈ s.stripe.heldWrites, (s.place h.addr).group ≠ g ∨ (s.place h.addr).row ≠ row) →
      scrubRowEff g row s = s.startRow .scrub g row) := by
  intro row
  have online : ¬ (s.groupPorts g).any (fun q => (s.mport q).state != .online) = true := by
    simpa [List.any_eq_true] using hon
  have sound : ¬ (row ≠ Sparse.get s.stripe.scrubRow 0 g ∨ s.par K.scrubPeriodH = 0 ∨ g ≥ s.groups
      ∨ (s.groupPorts g).any (fun q => (s.mport q).state != .online)
      ∨ s.stripe.rows.any (fun w => w.kind == .scrub && w.group == g) ∨ !(s.unusable g row).isEmpty) := by
    rintro (h | h | h | h | h | h)
    exacts [h rfl, hz h, (Nat.not_le.mpr hg) h, online h, Bool.eq_false_iff.mp hr h, by simp [row, hu] at h]
  refine ⟨fun hc => ?_, fun hc hw => ?_⟩
  · rw [scrubRowEff, if_neg (Bool.eq_false_iff.mp hn), if_neg sound, if_pos hc]
  · have free : ¬ s.stripe.heldWrites.any
        (fun h => (s.place h.addr).group == g && (s.place h.addr).row == row) = true := by
      simp only [List.any_eq_true, Bool.and_eq_true, beq_iff_eq, not_exists, not_and]
      intro h hmem hgroup
      exact (hw h hmem).resolve_left (not_not.mpr hgroup)
    rw [scrubRowEff, if_neg (Bool.eq_false_iff.mp hn), if_neg sound, if_neg (Bool.eq_false_iff.mp hc), if_neg free]

end PortState

/-- Settles O49: each command by the state of the port that it waits for. -/
theorem memoryPortStates : Obligations.MemoryPortStates := by
  intro s p hs hp g
  refine ⟨?rise, fun hm => ?grant,
    fun hd ht => ?drain, fun lost ho hst hg => ?fall, fun hst ht => ?rebuild, fun page o ho hg => ?page,
    fun hn hz hg hon hr => ?scrub, fun row hr => ?other, fun k hn hst hw => ?wipe,
    fun hst hc hr hu ht => ?trained,
    fun level => ?refresh⟩
  case rise =>
    refine (completes_memoryPort hs hp fun x => exec_portOfflineRise p x).eq ?_
    rw [portOfflineRiseEff]
  case grant =>
    refine (completes_memoryPort hs hp fun x => exec_portOfflineGrant p x).eq ?_
    rw [portOfflineGrantEff, if_pos hm]
  case refresh =>
    refine (completes_memoryPort hs hp fun x => exec_selfRefreshAck p level x).eq ?_
    rw [selfRefreshAckEff]
  case drain =>
    have completes := completes_memoryPort hs hp fun x => exec_drainComplete p x
    have drained : ¬ ((s.mport p).state ≠ .draining ∨ (!(s.mport p).tags.isEmpty) = true) := by simp [hd, ht]
    refine ⟨fun hask => completes.eq ?_, fun ho hb => completes.eq ?_⟩
    · rw [drainCompleteEff, if_neg drained, if_neg (by rcases hask with h | h <;> simp [h])]
    · rw [drainCompleteEff, if_neg drained, if_pos (by simp [ho, hb])]
  case fall =>
    refine (completes_memoryPort hs hp fun x => exec_portOfflineFall p lost x).eq ?_
    rw [portOfflineFallEff, if_neg (by simp [ho])]
    exact if_pos ⟨hst, hg⟩
  case rebuild =>
    have completes := completes_memoryPort hs hp fun x => exec_rebuildChunkComplete p x
    have rebuilds : ¬ ((s.mport p).state ≠ .rebuilding ∨ (!s.rebuildTurn p) = true) := by simp [hst, ht]
    refine ⟨fun hk => completes.eq ?_, fun k hk hrow => ?_⟩
    · rw [rebuildChunkCompleteEff, if_neg rebuilds, hk]
    · intro map t
      refine completes.eq ?_
      rw [rebuildChunkCompleteEff, if_neg rebuilds, hk]
      exact if_neg (Nat.not_lt.mpr hrow)
  case page =>
    intro entered
    obtain ⟨restored, retired⟩ := pageRestoreCompleteEff_entered ho hg
    have completes := completes_memoryPort hs hp fun x => exec_pageRestoreComplete p page x
    exact ⟨fun hk => completes.eq (restored hk), fun k hk => completes.eq (retired k hk)⟩
  case scrub =>
    intro row hu
    obtain ⟨passes, takes⟩ := scrubRowEff_reached hn hz hg hon hr hu
    have completes := completes_core hs fun x _ => exec_scrubRow g row x
    exact ⟨fun hc => completes.eq (passes hc), fun hc hw => completes.eq (takes hc hw)⟩
  case other =>
    refine (completes_core hs fun x _ => exec_scrubRow g row x).eq ?_
    by_cases hn : s.resets.night = true
    · exact if_pos hn
    · rw [scrubRowEff, if_neg hn, if_pos (.inl hr)]
  case wipe =>
    exact (completes_memoryPort hs hp fun x => exec_memWipeChunk p k x).eq (if_pos ⟨by simp [hn], hst, hw⟩)
  case trained =>
    exact (completes_memoryPort hs hp fun x => exec_memTrainingComplete p x).eq (if_pos ⟨hst, hc, hr, hu, by simp [ht]⟩)

end Sys2Proof.Machine

/-! ## The states of a link -/

namespace Sys2Proof.Machine

section LinkState
variable {s : State} {p : Nat}

/-- Where signal is lost on lanes of a port that is UP (R335, R361; log 91). -/
theorem laneSignalLossEff_up (level : BitVec 16) (hu : (s.lport p).state = .up) :
    let l := s.lport p
    let fell := l.signalOk &&& ~~~ level
    let active := l.rxLanes &&& fell
    let own := l.lanes &&& fell
    let t := s.modLport p fun l => { l with signalOk := level }
    laneSignalLossEff p level s =
      if active = 0 ∧ own = 0 then t
      else if (laneList active).length ≥ 2 ∨ (active ≠ 0 ∧ active = l.rxLanes) ∨ own = l.lanes then t.linkDown p false
      else (t.modLport p fun l => { l with removed := l.removed ||| active ||| own }).announceLanes p := by
  intro l fell active own t
  have hup : l.state = .up := hu
  by_cases h : active = 0 ∧ own = 0
  · rw [if_pos h]; exact if_pos (.inr h)
  · rw [if_neg h]; exact if_neg (not_or.mpr ⟨not_not.mpr hup, h⟩)

/-- The partner's identity block where one is waited for (R350 to R353). -/
theorem identityBlockEff_waits (block : Block) (echoes : List (Nat × Nat)) (hc : s.pins.corePwrGood = true)
    (hst : (s.lport p).state = .identify ∨ (s.lport p).state = .refused) :
    (s.refusesPartner block = true → identityBlockEff p block echoes s =
      (s.modLport p fun l => { l with state := .refused, neighbor := block }).raise A.linkPartnerRefused)
    ∧ (s.refusesPartner block = false → identityBlockEff p block echoes s =
      let t := s.modLport p fun l => l.accepted block (delayOf echoes) (BitVec.ofNat 16 (s.laneTarget p))
      let t := t.logEvent 0x0009 U.linkLayer ((t.lport p).linkDetail p)
      if bits block 368 32 ≠ t.par K.tickPeriodUs then t.raise A.linkTickMismatch else t) := by
  have waits : ¬ (((s.lport p).state ≠ .identify ∧ (s.lport p).state ≠ .refused) ∨ (!s.pins.corePwrGood) = true) := by
    rcases hst with h | h <;> simp [h, hc]
  refine ⟨fun hr => ?_, fun hr => ?_⟩
  · rw [identityBlockEff]; dsimp only; rw [if_neg waits, if_pos hr]
  · rw [identityBlockEff]; dsimp only; rw [if_neg waits, if_neg (Bool.eq_false_iff.mp hr)]

end LinkState

/-- Settles O51: each command in the state of the port that it is for. -/
theorem linkStates : Obligations.LinkStates := by
  intro s p hs hp
  refine ⟨fun level hu => ?signal, fun c hc hu => ⟨fun ha ht hi => ?switch, fun ha => ?unanswered⟩, fun hu => ?dead,
    fun hst hc => ⟨fun hl => ?timeout, fun hl => ?lock⟩, fun block echoes hc hst => ?identity,
    fun hst hl he => ?retrain, fun hst => ?retry⟩
  case signal =>
    intro l fell active own t
    refine (completes_linkPort hs hp fun x => exec_laneSignalLoss p level x).eq ?_
    exact laneSignalLossEff_up level hu
  case switch =>
    refine (completes_linkPort hs hp fun x => exec_laneChangeSwitch p x).eq ?_
    rw [laneChangeSwitchEff]
    simp only [hc]
    exact if_pos ⟨ha, hu, ht, hi⟩
  case unanswered =>
    refine (completes_linkPort hs hp fun x => exec_laneChangeAckTimeout p x).eq ?_
    rw [laneChangeAckTimeoutEff]
    simp only [hc]
    exact if_neg (Bool.eq_false_iff.mp ha)
  case dead => exact completes_linkPort (f := fun s => s.linkDown p false) hs hp fun x => exec_linkDeadTimeout p x
  case timeout =>
    refine (completes_linkPort hs hp fun x => exec_trainingTimeout p x).eq ?_
    rw [trainingTimeoutEff, if_pos ⟨hst, by simp [hl], hc⟩]
  case lock =>
    have completes := completes_linkPort hs hp fun x => exec_trainingLock p x
    have locks : ¬ ((s.lport p).state ≠ .training ∨ (s.lport p).loopback = true ∨ (!s.pins.corePwrGood) = true) := by
      simp [hst, hl, hc]
    refine ⟨fun h => completes.eq ?_, fun h4 hd => completes.eq ?_⟩
    · rw [trainingLockEff, if_neg locks, if_neg (by omega), State.identifyLink]
    · rw [trainingLockEff, if_neg locks, if_pos ⟨hd, h4⟩]
  case identity =>
    obtain ⟨refused, accepted⟩ := identityBlockEff_waits block echoes hc hst
    have completes := completes_linkPort hs hp fun x => exec_identityBlock p block echoes x
    exact ⟨fun hr => completes.eq (refused hr), fun hr => completes.eq (accepted hr)⟩
  case retrain =>
    refine (completes_linkPort hs hp fun x => exec_downRetrain p x).eq ?_
    rw [downRetrainEff, if_pos ⟨hst, by simp [hl], he⟩, State.trainLink]
  case retry =>
    refine (completes_linkPort hs hp fun x => exec_refusedRetry p x).eq ?_
    rw [refusedRetryEff, if_pos hst]

end Sys2Proof.Machine

/-! ## Flits sent and received, and WRITE records -/

namespace Sys2Proof.Machine

section Flits
variable {s : State} {p : Nat}

/-- The flit that a port that is UP sends (R343). -/
theorem flitTransmitEff_owed (hu : (s.lport p).state = .up) (ho : (s.lport p).owed = true) :
    flitTransmitEff p s = s.sendControl p := by
  simp [flitTransmitEff, hu, ho]

theorem flitTransmitEff_replay {vc : Nat} (hu : (s.lport p).state = .up) (ho : (s.lport p).owed = false)
    (hr : (List.range 4).find? (s.lport p).replays = some vc) : flitTransmitEff p s = s.sendReplay p vc := by
  simp only [flitTransmitEff, hu, ho, hr]
  simp

theorem flitTransmitEff_control (hu : (s.lport p).state = .up) (ho : (s.lport p).owed = false)
    (hr : (List.range 4).find? (s.lport p).replays = none) (h3 : (s.lport p).offers 3 = true) :
    flitTransmitEff p s = s.sendNew p 3 := by
  simp only [flitTransmitEff, hu, ho, hr, h3]
  simp

theorem flitTransmitEff_turn {vc : Nat} (hu : (s.lport p).state = .up) (ho : (s.lport p).owed = false)
    (hr : (List.range 4).find? (s.lport p).replays = none) (h3 : (s.lport p).offers 3 = false)
    (ht : [(s.lport p).rr, ((s.lport p).rr + 1) % 3, ((s.lport p).rr + 2) % 3].find? (s.lport p).offers = some vc) :
    flitTransmitEff p s = (s.modLport p fun l => { l with rr := (vc + 1) % 3 }).sendNew p vc := by
  simp only [flitTransmitEff, hu, ho, hr, h3, ht]
  simp

/-- A flit that is heard is discarded as damaged, or it is a control flit or a data flit (R334, R341, R342). -/
theorem hearFlit_eq (control : Bool) (f : Flit) (good : Bool) : s.hearFlit p control f good =
    if good = false ∨ Flit.crc f ≠ Flit.crcDue f then (if control then s else s.bump K.flitsDiscarded 1 p)
    else if Flit.family f = Fam.control then s.hearControl p f else s.hearData p f := by
  unfold State.hearFlit
  refine if_congr ?_ rfl rfl
  simp

/-- Lane words of either command complete with the flit that they finish (R332 to R334). -/
theorem completes_flit (hs : s.Running) (hp : s.hasLink p = true) (control : Bool)
    (words : List (BitVec 4 × BitVec 256)) :
    Completes (if control then .controlFlit p words else .dataFlit p (words.map (·.1)) (words.map (·.2))) s
      (flitEff p control words s) := by
  cases control with
  | true => exact completes_linkPort hs hp fun x => exec_controlFlit p words x
  | false =>
    refine completes_linkPort hs hp fun x => ?_
    have h := exec_dataFlit p (words.map (·.1)) (words.map (·.2)) x
    rw [zip_lanes_words] at h
    exact h

end Flits

/-- Settles O52: a flit sent by what is due, a flit received by its checks, a WRITE record by its window. -/
theorem flitsAndWriteRecords : Obligations.FlitsAndWriteRecords := by
  intro s p hs
  refine ⟨fun hp hu => ?flits, fun src h beats e hserves => ?write⟩
  case flits =>
    intro l
    have transmits := completes_linkPort hs hp fun x => exec_flitTransmit p x
    refine ⟨fun ho => transmits.eq (flitTransmitEff_owed hu ho),
      fun vc ho hr => transmits.eq (flitTransmitEff_replay hu ho hr),
      fun ho hr h3 => transmits.eq (flitTransmitEff_control hu ho hr h3),
      fun vc ho hr h3 ht => transmits.eq (flitTransmitEff_turn hu ho hr h3 ht), ?period, fun vc => ?replay,
      fun control words => ?part, fun control words f good => ?flit⟩
    case period =>
      refine (completes_linkPort hs hp fun x => exec_controlFlitPeriod p x).eq ?_
      rw [controlFlitPeriodEff, if_pos hu]
    case replay =>
      refine (completes_linkPort hs hp fun x => exec_linkReplayTimeout p vc x).eq ?_
      rw [linkReplayTimeoutEff, if_pos hu]
    case part =>
      intro c t hn
      refine (completes_flit hs hp control words).eq ?_
      rw [flitEff, if_neg (not_not.mpr hu)]
      simp only [t, hn]
    case flit =>
      intro c hf t vc slot heard replay u owes
      refine (completes_flit hs hp control words).eq ?_
      rw [flitEff, if_neg (not_not.mpr hu)]
      simp only [hf]
      exact hearFlit_eq control f good
  case write =>
    intro addr n
    have completes : Completes (.write src h beats) s ((s.writeBeats h beats).takeRecord e) := by
      refine (completes_core hs fun x _ => exec_write src h beats x).eq ?_
      rw [writeEff, serveRecord_takes hserves]
    refine ⟨fun hw => completes.eq (congrArg (State.takeRecord · e) ?_),
      fun hw => completes.eq (congrArg (State.takeRecord · e) ?_)⟩
    · exact if_pos hw
    · exact if_neg (Bool.eq_false_iff.mp hw)

end Sys2Proof.Machine

/-! ## Teardowns, levels of reset, the controller's watchdog and firmware -/

namespace Sys2Proof.Machine

section Levels
variable {s : State} {r : LevelReset}

/-- A level that takes too long, where RESET_N is high, by the lowest of what is in progress (R395, R410, R424). -/
theorem levelTimeoutEff_level (hr : s.pins.resetN = true) (h : argMin (fun r => 5 - r.level) s.resets.levels = some r) :
    levelTimeoutEff s =
      if r.level = 2 then s.startL3
      else if r.level = 3 then s.startL4 r.counts
      else if r.level = 4 ∧ s.power.started then s.startL5
      else s := by
  rw [levelTimeoutEff, if_neg (by simp [hr]), h]

/-- An expiry of the controller's watchdog while an image runs, by whether it is the second within the window (R394). -/
theorem mcWatchdogExpiryEff_runs (hf : s.mgmt.fwState = 3) :
    let t : State := { s with resets := { s.resets with mcExpired := some s.ms } }
    (∀ m, s.resets.mcExpired = some m → s.ms - m < s.par K.escalateWindowS * 1000 →
      mcWatchdogExpiryEff s = t.mcRestart.startL4 true)
    ∧ (s.resets.mcExpired = none ∨ (∃ m, s.resets.mcExpired = some m ∧ s.par K.escalateWindowS * 1000 ≤ s.ms - m) →
      mcWatchdogExpiryEff s = t.mcRestart) := by
  intro t
  refine ⟨fun m hm hlt => ?_, fun h => ?_⟩
  · rw [mcWatchdogExpiryEff, if_neg (not_not.mpr hf), hm]
    exact if_pos (decide_eq_true hlt)
  · rw [mcWatchdogExpiryEff, if_neg (not_not.mpr hf)]
    obtain hm | ⟨m, hm, hle⟩ := h
    · rw [hm]
      exact if_neg Bool.false_ne_true
    · rw [hm]
      exact if_neg (by simpa using hle)

end Levels

/-- Settles O53: each command by what it finds in progress. -/
theorem teardownsLevelsAndFirmware : Obligations.TeardownsLevelsAndFirmware := by
  refine ⟨fun s c hout => ⟨fun hs => ⟨fun l hl => ?drain, fun hc => ⟨?walks, ?overrun⟩⟩, fun hr r h => ?timeout,
    ?complete, fun hs => ⟨fun hf => ?watchdog, fun hf => ?restart⟩⟩, fun s hs => ⟨fun hf => ?verify, ?nonce⟩⟩
  case drain =>
    intro holding
    refine (completes_core hs fun x _ => exec_l0DrainEnd c x).eq ?_
    rw [l0DrainEndEff, hl]
  case walks =>
    refine (completes_core hs fun x _ => exec_cleanupWalksComplete c x).eq ?_
    rw [cleanupEff, if_pos hc]
  case overrun =>
    refine (completes_core hs fun x _ => exec_cleanupOverrun c x).eq ?_
    rw [cleanupOverrunEff, if_pos hc]
  case timeout =>
    have completes := (completes_run hout fun x _ => exec_levelTimeout x).eq (levelTimeoutEff_level hr h)
    refine ⟨fun hl => completes.eq ?_, fun hl => completes.eq ?_, fun hl hst => completes.eq ?_,
      fun hl hst => completes.eq ?_⟩ <;> simp [*]
  case complete =>
    refine (completes_run hout fun x _ => exec_resetLevelComplete x).eq ?_
    rw [levelCompleteEff]
  case watchdog =>
    intro t
    obtain ⟨again, first⟩ := mcWatchdogExpiryEff_runs hf
    have completes := completes_mgmt hs fun x _ => exec_mcWatchdogExpiry x
    exact ⟨fun m hm hlt => completes.eq (again m hm hlt), fun h => completes.eq (first h)⟩
  case restart =>
    refine (completes_mgmt hs fun x _ => exec_mcRestartComplete x).eq ?_
    rw [mcRestartCompleteEff, if_neg (not_not.mpr hf), State.modMgmt]
  case verify =>
    refine (completes_mgmt hs fun x _ => exec_fwVerifyComplete x).eq ?_
    rw [fwVerifyCompleteEff, if_neg (not_not.mpr hf), State.modMgmt]
  case nonce =>
    refine (completes_mgmt hs fun x _ => exec_authNonceExpiry x).eq ?_
    rw [authNonceExpiryEff, State.modMgmt]

end Sys2Proof.Machine

/-! ## Crash dumps, zero fills and failing SRAM -/

namespace Sys2Proof.Machine

/-- A failing word that is no shared one is handled by what it belongs to (R416). -/
theorem sramUncorrectableEff_owned {s : State} {w : SramWord} (hw : w ∉ [SramWord.shared, .overlayCache, .controller])
    (hh : ∀ n, w ≠ .hotRow n) (hb : ∀ p vc k, w ≠ .replayBuffer p vc k) :
    sramUncorrectableEff w s = match (s.raise A.sramUncorrectable).sramContext w with
      | some c => (s.raise A.sramUncorrectable).startL0 c 0x07
      | none => (s.raise A.sramUncorrectable).zeroWord w := by
  simp only [List.mem_cons, List.not_mem_nil, or_false, not_or] at hw
  obtain ⟨hshared, hcache, hmc⟩ := hw
  cases w with
  | shared => exact absurd rfl hshared
  | overlayCache => exact absurd rfl hcache
  | controller => exact absurd rfl hmc
  | hotRow n => exact absurd rfl (hh n)
  | replayBuffer p vc k => exact absurd rfl (hb p vc k)
  | _ => rfl

/-- An uncorrectable word where the planes run (R416). -/
theorem completes_sramUncorrectable {s : State} (hs : s.Running) (w : SramWord) :
    Completes (.sramUncorrectable w) s (sramUncorrectableEff w s) :=
  (completes_mgmt hs.managed fun x _ => exec_sramUncorrectable w x).eq (if_neg fun h => Bool.eq_false_iff.mp hs.2 h.1)

/-- Settles O54: each command by what it finds, and a failing word by what it belongs to. -/
theorem dumpsFillsAndSram : Obligations.DumpsFillsAndSram := by
  intro s
  refine ⟨fun gone hs hd => ?dump, fun a n hs hz => ?fill, fun a bank hs hb => ?bank, fun hs => ?word, fun hs hp => ?off⟩
  case dump =>
    intro d data unit bytes
    refine (completes_mgmt hs fun x _ => exec_dumpComplete gone x).eq ?_
    exact if_neg (not_not.mpr hd)
  case fill =>
    intro t
    refine (completes_core hs fun x _ => exec_memZeroFillComplete x).eq ?_
    rw [memZeroFillCompleteEff, hz]
    rfl
  case bank =>
    have completes := completes_core hs fun x _ => exec_sramBankRotation a bank x
    refine ⟨fun hn ht => completes.eq ?_, fun h => completes.eq ?_⟩
    · rw [sramBankRotationEff, if_neg (Nat.not_le.mpr hb), if_pos (by simp [hn, ht])]
    · have taken : ¬ ((s.sramArray a).spared.isNone && !(s.sramArray a).testing) = true := by
        rcases h with h | h
        · simp [h]
        · simp [h]
      rw [sramBankRotationEff, if_neg (Nat.not_le.mpr hb), if_neg taken]
  case word =>
    intro t
    have completes := completes_sramUncorrectable hs
    refine ⟨fun w hw hh hb => ?_, completes .shared, completes .overlayCache, fun off => completes (.hotRow off),
      completes .controller, fun p vc place => completes (.replayBuffer p vc place)⟩
    have owned := (completes w).eq (sramUncorrectableEff_owned hw hh hb)
    exact ⟨fun c hc => owned.eq (by simp only [t] at hc; rw [hc]), fun hc => owned.eq (by simp only [t] at hc; rw [hc])⟩
  case off =>
    refine (completes_mgmt hs fun x _ => exec_sramUncorrectable .controller x).eq ?_
    rw [if_neg (by simp), sramUncorrectableEff]

end Sys2Proof.Machine

/-! ## RESET_N, core power, and power with its sensors -/

namespace Sys2Proof.Machine

/-- Settles O55: each edge by what the pins and the levels in progress are. -/
theorem resetAndCorePowerPins : Obligations.ResetAndCorePowerPins := by
  intro s hout
  refine ⟨fun hr => ?assert, fun hr => ?low, fun h => ?release, fun h => ?five, ?fall, ?rise⟩
  case assert =>
    refine (completes_run hout fun x _ => exec_resetNAssert x).eq ?_
    rw [resetNAssertEff, if_neg (by simp [hr])]
    rfl
  case low =>
    refine (completes_run hout fun x _ => exec_resetNAssert x).eq ?_
    rw [resetNAssertEff, if_pos (by simp [hr])]
  case release =>
    have none : (s.resets.levels.any fun r => r.level == 5) = false := by simpa using h
    refine (completes_run hout fun x _ => exec_resetNRelease x).eq ?_
    rw [resetNReleaseEff, none, Bool.not_false]
  case five =>
    have some : (s.resets.levels.any fun r => r.level == 5) = true := by simpa using h
    refine (completes_run hout fun x _ => exec_resetNRelease x).eq ?_
    rw [resetNReleaseEff, some, Bool.not_true]
  case fall =>
    intro t
    refine (completes_run hout fun x _ => exec_corePwrGoodFall x).eq ?_
    rw [corePwrGoodFallEff]
    refine if_congr ?_ rfl rfl
    simp [and_assoc]
  case rise =>
    intro t
    refine (completes_run hout fun x _ => exec_corePwrGoodRise x).eq ?_
    rw [corePwrGoodRiseEff]
    refine if_congr ?_ rfl rfl
    simp

section Sensors
variable {s : State}

/-- The state after a sample of the sensors, whether it trips or not (R433). -/
def State.sampled (s : State) (l : List Int) : State :=
  let hi := (readingRange l).1
  let lo := (readingRange l).2
  let limit : Int := s.par K.thermalThrottleC * 100
  let gradient : Int := s.par K.thermalGradientC * 100
  { s with power := { s.power with
    sensors := l, hot := decide (hi ≥ limit ∨ hi - lo > gradient)
    cool := decide (hi ≤ limit - 300 ∧ hi - lo ≤ gradient - 300) } }

/-- A sample is noted, and trips where the highest reading is too high outside P3 (R433, R434). -/
theorem thermalSampleEff_eq (l : List Int) : thermalSampleEff l s =
    if l ≠ [] ∧ (readingRange l).1 ≥ ((s.sampled l).par K.thermalTripC * 100 : Nat) ∧ s.power.state ≠ 3 then
      (((((s.sampled l).raise A.thermalTrip).abandonPower).enterP3).modPower fun x => { x with tripped := true })
    else s.sampled l := rfl

/-- The throttle moves one step, and raises THROTTLE as it leaves full rate (R433). -/
theorem throttleStepEff_fall (hh : s.power.hot = true) (hk : 0 < s.power.throttle) : throttleStepEff true s =
    let t : State := { s with power := { s.power with throttle := s.power.throttle - 1 } }
    if s.power.throttle = 8 then t.raise A.throttle else t := by
  rw [throttleStepEff]
  exact if_pos ⟨rfl, hh, hk⟩

theorem throttleStepEff_rise (hc : s.power.cool = true) (hk : s.power.throttle < 8) :
    throttleStepEff false s = { s with power := { s.power with throttle := s.power.throttle + 1 } } := by
  rw [throttleStepEff]
  exact (if_neg (by simp)).trans (if_pos ⟨rfl, hc, hk⟩)

end Sensors

/-- Settles O56: each command by what was measured or waited for. -/
theorem powerAndSensors : Obligations.PowerAndSensors := by
  intro s
  refine ⟨fun hs hst hg hl => ?noon, fun hs => ⟨fun l => ?sample, fun k hk => ?throttle, fun clock khz => ?clock,
    fun region mv hr => ?region, fun region mv hr => ?absent⟩, fun hout => ?settle, fun hs hd => ?drain,
    fun hs ht pass => ?test, fun hs ht hw => ?testDrain⟩
  case noon =>
    refine (completes_core hs fun x _ => exec_noonLimit x).eq ?_
    rw [noonLimitEff]
    exact if_neg (by simp [hst, hl, hg])
  case sample =>
    intro hi lo limit gradient t trip
    have completes := (completes_mgmt hs fun x _ => exec_thermalSample l x).eq (thermalSampleEff_eq l)
    refine ⟨fun h => completes.eq (if_neg ?_), fun hl ht hp => completes.eq (if_pos ⟨hl, ht, hp⟩)⟩
    rintro ⟨hl, ht, hp⟩
    obtain h | h | h := h
    · exact hl h
    · exact absurd ht (not_le.mpr h)
    · exact hp h
  case throttle =>
    subst hk
    refine ⟨fun hh hk => ?_, fun hc hk => ?_⟩
    · exact (completes_mgmt hs fun x _ => exec_throttleStep true x).eq (throttleStepEff_fall hh hk)
    · exact (completes_mgmt hs fun x _ => exec_throttleStep false x).eq (throttleStepEff_rise hc hk)
  case clock =>
    refine (completes_mgmt hs fun x _ => exec_clockRange clock khz x).eq ?_
    rw [clockRangeEff]
    rfl
  case region =>
    refine (completes_mgmt hs fun x _ => exec_voltageRange region mv x).eq ?_
    rw [voltageRangeEff, if_neg (by simp [hr])]
    rfl
  case absent =>
    refine (completes_mgmt hs fun x _ => exec_voltageRange region mv x).eq ?_
    rw [voltageRangeEff, if_pos (by simp [hr])]
  case settle =>
    refine (completes_run hout fun x _ => exec_clockLowerSettle x).eq ?_
    rw [clockLowerSettleEff, State.modPower]
  case drain =>
    refine ⟨fun h => (completes_core hs fun x _ => exec_powerDrainComplete x).eq ?_,
      fun h => (completes_core hs fun x _ => exec_p2DrainTimeout x).eq ?_⟩
    · rw [powerDrainCompleteEff, if_pos ⟨hd, h⟩, State.modPower]
    · rw [p2DrainTimeoutEff, if_pos ⟨hd, by simp [h]⟩]
  case test =>
    refine (completes_core hs fun x _ => exec_selftestComplete pass x).eq ?_
    rw [selftestCompleteEff]
    exact if_neg (not_not.mpr ht)
  case testDrain =>
    refine (completes_core hs fun x _ => exec_selftestDrainTimeout x).eq ?_
    rw [selftestDrainTimeoutEff, if_pos ⟨ht, by simp [hw]⟩]

end Sys2Proof.Machine

/-! ## One idle hub cycle -/

namespace Sys2Proof.Machine

/-- Two states differ at most in what an idle hub cycle moves on: the Memory Stripe Unit, the telemetry and its queues, the
replay log, the output ports, the accumulators and the counters. -/
def CycleOnly (s t : State) : Prop :=
  t = { s with stripe := t.stripe, tele := t.tele, qs := t.qs, replay := t.replay, out := t.out,
               dict := { s.dict with acc := t.dict.acc, counters := t.dict.counters } }

theorem CycleOnly.refl (s : State) : CycleOnly s s := rfl

theorem CycleOnly.trans {s t u : State} (h : CycleOnly s t) (k : CycleOnly t u) : CycleOnly s u := by
  unfold CycleOnly at *
  rw [k]
  rw [h]

theorem CycleOnly.each {α : Type} (f : State → α → State) (hf : ∀ s x, CycleOnly s (f s x)) (s : State) (l : List α) :
    CycleOnly s (s.each l f) := by
  induction l generalizing s with
  | nil => exact .refl s
  | cons x t ih => exact (hf s x).trans (ih (f s x))

theorem StripeOnly.cycleOnly {s t : State} (h : StripeOnly s t) : CycleOnly s t := by
  unfold StripeOnly at h
  unfold CycleOnly
  rw [h]

theorem TeleOnly.cycleOnly {s t : State} (h : TeleOnly s t) : CycleOnly s t := by
  unfold TeleOnly at h
  unfold CycleOnly
  rw [h]

theorem CycleOnly.bump (s : State) (k n e : Nat) : CycleOnly s (s.bump k n e) := (StripeOnly.bump s k n e).cycleOnly

theorem CycleOnly.countHc (s : State) (key : Nat) (b : Bool) : CycleOnly s (s.countHc key b) := by
  unfold State.countHc
  split
  · exact .bump ..
  · exact .refl s

theorem CycleOnly.bumpUnless (s : State) (key n : Nat) : CycleOnly s (if n = 0 then s else s.bump key n) := by
  split
  · exact .refl s
  · exact .bump ..

theorem CycleOnly.raise (s : State) (code : Nat) : CycleOnly s (s.raise code) :=
  ((TeleOnly.of_tele s _).trans (.bump ..)).cycleOnly

/-- A change that may be made or left out. -/
theorem CycleOnly.ite {s t u : State} (c : Prop) [Decidable c] (h : CycleOnly s t) (k : CycleOnly s u) :
    CycleOnly s (if c then t else u) := by
  split
  · exact h
  · exact k

/-- The counters of waiting (R40) leave the units alone. -/
theorem CycleOnly.countWaits (s : State) : CycleOnly s s.countWaits := by
  have room (t : State) : CycleOnly t (if t.logRoom then t.modReplay fun r => { r with waiting := false } else t) :=
    .ite _ rfl (.refl t)
  exact (CycleOnly.bumpUnless s _ _).trans <| (CycleOnly.countHc _ _ _).trans <| (CycleOnly.countHc _ _ _).trans <|
    (CycleOnly.bumpUnless _ _ _).trans <| (CycleOnly.bumpUnless _ _ _).trans <| (CycleOnly.bumpUnless _ _ _).trans <|
    (CycleOnly.countHc _ _ _).trans <| (room _).trans <| (CycleOnly.countHc _ _ _).trans <|
    (CycleOnly.countHc _ _ _).trans (CycleOnly.countHc _ _ _)

/-! Memory ports in an idle cycle (R300, R313, R321, R324). -/

theorem CycleOnly.modMport (s : State) (p : Nat) (f : MemPort → MemPort) : CycleOnly s (s.modMport p f) := rfl

theorem CycleOnly.sendMem {s t : State} {p : Nat} {r : MemTag} (h : s.sendMem p r = some t) : CycleOnly s t := by
  unfold State.sendMem at h
  split at h
  · cases h
  · split at h
    · cases h
    · dsimp only at h
      cases h
      split <;> rfl

theorem CycleOnly.wantCheck (s : State) (p a : Nat) : CycleOnly s (s.wantCheck p a) := by
  unfold State.wantCheck
  dsimp only
  refine .ite _ (.refl s) (.ite _ ?_ rfl)
  cases h : s.sendMem p (s.checkReq .read a) with
  | none => rfl
  | some t => exact .sendMem h

theorem CycleOnly.presentNext (s : State) (p : Nat) : CycleOnly s (s.presentNext p) := by
  unfold State.presentNext State.present
  split
  · exact .refl s
  next t rest _ =>
    refine .ite _ ?_ (.refl s)
    cases h : State.sendMem (s.modMport p fun x => { x with queue := rest }) p t with
    | none => exact .refl s
    | some u => exact (CycleOnly.modMport s p _).trans ((CycleOnly.sendMem h).trans (.ite _ (.wantCheck ..) (.refl u)))

theorem CycleOnly.startRow (s : State) (k : RowKind) (g row : Nat) : CycleOnly s (s.startRow k g row) :=
  ((StripeOnly.of_stripe s _).trans (.each _ (fun s _ => .each _ (fun s _ => (enqueue_same s _).1) s _) _ _)).cycleOnly

/-! Telemetry words in an idle cycle (R31, R138, R476 to R484). -/

theorem CycleOnly.modQueue (s : State) (n : Nat) (f : Queue → Queue) : CycleOnly s (s.modQueue n f) := rfl

theorem CycleOnly.of_tele (s : State) (x : Telemetry) : CycleOnly s { s with tele := x } := rfl

theorem CycleOnly.append (s : State) (n : Nat) (w : Block) : CycleOnly s (s.append n w) := by
  unfold State.append State.ringWrite
  exact (writeWord_only ..).cycleOnly.trans (.modQueue ..)

theorem CycleOnly.telemetryWord (s : State) (n : Nat) (w : Block) : CycleOnly s (s.telemetryWord n w) := by
  unfold State.telemetryWord
  exact .ite _ ((CycleOnly.modQueue s n _).trans (.bump ..)) (.append ..)

theorem CycleOnly.eventArrives (s : State) (w : Block) : CycleOnly s (s.eventArrives w) := by
  unfold State.eventArrives
  exact (CycleOnly.of_tele s _).trans (.ite _ (.telemetryWord ..) (.bump ..))

theorem CycleOnly.offerEvent (s : State) (w : Block) : CycleOnly s (s.offerEvent w) := by
  unfold State.offerEvent
  exact .ite _ (.eventArrives ..) (.ite _ (.of_tele ..) ((CycleOnly.of_tele s _).trans (.bump ..)))

theorem CycleOnly.logEvent (s : State) (event unit detail : Nat) : CycleOnly s (s.logEvent event unit detail) := by
  unfold State.logEvent
  exact .ite _ (.offerEvent ..) (.bump ..)

theorem CycleOnly.brassPass (s : State) : CycleOnly s s.brassPass := by
  unfold State.brassPass
  split
  · exact .refl s
  · exact .ite _ (.refl s) (.of_tele ..)

theorem CycleOnly.eventMarker (s : State) : CycleOnly s s.eventMarker := by
  unfold State.eventMarker
  exact .ite _ (.of_tele ..) (.refl s)

theorem CycleOnly.brassArrives (s : State) (w : Block) : CycleOnly s (s.brassArrives w) := by
  unfold State.brassArrives
  exact (CycleOnly.of_tele s _).trans (.ite _ (.telemetryWord ..) (.bump ..))

theorem CycleOnly.eventPass (s : State) : CycleOnly s s.eventPass := by
  unfold State.eventPass
  split
  · exact (CycleOnly.of_tele s _).trans ((CycleOnly.eventMarker _).trans (.eventArrives ..))
  · exact (CycleOnly.of_tele s _).trans ((CycleOnly.eventMarker _).trans (.brassArrives ..))
  · exact .refl s

/-! Rebuilds and page operations in an idle cycle (R321, R322, R324, R325). -/

theorem CycleOnly.loseBlock (s : State) (g pos row blk : Nat) : CycleOnly s (s.loseBlock g pos row blk) := by
  unfold State.loseBlock
  dsimp only
  exact (StripeOnly.of_stripe s _).cycleOnly.trans ((CycleOnly.raise _ _).trans (.logEvent ..))

theorem CycleOnly.rebuildRow (s : State) (p row : Nat) (bad : List Nat) : CycleOnly s (s.rebuildRow p row bad) := by
  unfold State.rebuildRow
  dsimp only
  refine CycleOnly.trans (.each _ (fun t b => ?_) _ _)
    ((writePage_same _ _ _ _).1.cycleOnly.trans ((CycleOnly.bump _ _ _ _).trans (.modMport ..)))
  exact .ite _ (.loseBlock ..) ((StripeOnly.of_stripe t _).cycleOnly.trans (.bump ..))

theorem CycleOnly.pumpRebuild (s : State) (p : Nat) : CycleOnly s (s.pumpRebuild p) := by
  unfold State.pumpRebuild
  dsimp only
  refine .ite _ (.refl s) ?_
  split
  · exact .refl s
  · exact .ite _ (.refl s) (.ite _ (.startRow ..) (.rebuildRow ..))

theorem CycleOnly.pumpPages (s : State) (p : Nat) : CycleOnly s (s.pumpPages p) := by
  unfold State.pumpPages
  refine .ite _ (.each _ (fun t o => ?_) _ _) (.refl s)
  dsimp only
  split
  · refine .ite _ (.refl t) (.ite _ ((CycleOnly.modMport t p _).trans (.startRow ..)) ?_)
    split
    next u h => exact (CycleOnly.sendMem h).trans ((CycleOnly.modMport u p _).trans (.bump ..))
    next => exact .refl t
  · exact .ite _ (.refl t) (.startRow ..)
  · exact .refl t

/-- A hub cycle of the Memory Stripe Unit leaves the other units alone. -/
theorem CycleOnly.stripeCycle (s : State) : CycleOnly s s.stripeCycle :=
  (CycleOnly.each _ CycleOnly.presentNext s _).trans
    (.each _ (fun s p => (CycleOnly.pumpPages s p).trans (.pumpRebuild ..)) _ _)

/-- One idle hub cycle moves the clocks on, and nothing else that is not a cycle's work. -/
theorem idleEff_cycleOnly (s : State) :
    (s.off = true → idleEff s = s.passTime)
    ∧ (s.off = false → CycleOnly
      { s with clk := { s.passTime.clk with abs := s.clk.abs + 1, hc := s.clk.hc + 1 } } (idleEff s)) := by
  refine ⟨fun h => if_pos h, fun h => ?_⟩
  have hrun : ¬ s.passTime.off = true := Bool.eq_false_iff.mp h
  rw [idleEff]
  dsimp only
  rw [if_neg hrun]
  exact (CycleOnly.countWaits _).trans <| (CycleOnly.stripeCycle _).trans <| (CycleOnly.brassPass _).trans (.eventPass _)

/-- Settles O2: the hub cycle of a queue that is empty, off and running, with the pins brought in line after it. -/
theorem idleStepPassesOneHubCycle : Obligations.IdleStepPassesOneHubCycle := by
  intro s hpending
  have hstep : step s = .next { State.settle (idleEff { s with out := [] }) with pending := s.pending } := by
    rw [step, hpending]
    exact (run_eq idleEff s).trans (by rw [hpending])
  obtain ⟨stands, runs⟩ := idleEff_cycleOnly { s with out := [] }
  refine ⟨_, hstep, hpending, ?_⟩
  rw [settle_frame]
  cases hoff : s.off with
  | true => rw [stands hoff]; simp [State.passTime, State.convLevel]
  | false =>
    have h := runs hoff
    unfold CycleOnly at h
    rw [h]
    simp [State.passTime, State.convLevel]

end Sys2Proof.Machine
